-- ==== Sys2Proof/Word.lean ====
section
/-! DEFINITION. The byte, the names of ports, drives and paths, and the plainest byte arithmetic of the frame layouts. -/

namespace Sys2Proof

/-- One byte of a frame or of a field on the medium. -/
abbrev Byte := BitVec 8

/-- The four host-side ports, A to D as 0 to 3 (00_scope, "Outside connections"). -/
abbrev Port := Fin 4

/-- The eight drive positions, 0 to 7. -/
abbrev Drive := Fin 8

/-- The two transfer paths, 0 and 1 (R64). -/
abbrev PathNo := Fin 2

/-- The four drive types, 0 to 3 (R17). -/
abbrev TypeNo := Fin 4

/-- Ports in letter order. -/
def allPorts : List Port := [0, 1, 2, 3]

/-- Drives in number order. -/
def allDrives : List Drive := [0, 1, 2, 3, 4, 5, 6, 7]

/-- A set of ports, as one Bool a port. -/
abbrev PortSet := Vector Bool 4

/-- The empty set of ports. -/
def PortSet.none : PortSet := Vector.replicate 4 false

/-- Bytes as one number, high byte first ("Numbers", 00_scope). -/
def numOfBytes (bs : List Byte) : Nat := bs.foldl (fun n b => n * 256 + b.toNat) 0

end Sys2Proof
end

