-- ==== Sys2Proof/Syntax.lean ====
section
/-! DEFINITION. The commands of the unit: one constructor of Instr per row of spec/opcode_table.json, and the data they carry. -/

namespace Sys2Proof

/-- A track, cylinder/head (00_scope, "Tracks"); whether it is logical or physical is said where it is used. -/
structure Track where
  cyl : Nat
  head : Nat
  deriving DecidableEq, Repr

/-- The condition a home field states, with its pointer where R3 gives one. -/
inductive Condition where
  /-- a home track in service -/
  | good
  /-- a home track withdrawn; the pointer is the alternate that stands in for it -/
  | defective (pointer : Track)
  /-- an alternate track available for assignment -/
  | freeAlternate
  /-- an alternate track in service; the pointer is the home track it stands in for -/
  | alternate (pointer : Track)
  /-- an alternate track withdrawn for good -/
  | retired
  deriving DecidableEq, Repr

/-- The content of a home field read good: physical address and condition (R3). -/
structure HomeField where
  address : Track
  condition : Condition
  deriving DecidableEq, Repr

/-- The content of an ID field read good (R5). -/
structure IdField where
  address : Track
  number : Nat
  keyLength : Nat
  dataLength : Nat
  deriving DecidableEq, Repr

/-- What ID FIELD READ carries: the byte of the track at which the record starts, by which the unit places its fields on the
revolution (R2, log 6); its place in recorded order, as the start of the record whose ID field passes before it, for the first
record the last of the track (R83, log 50); and the content read, where `none` is a field check (R8). -/
structure IdRead where
  start : Nat
  before : Nat
  content : Option IdField
  deriving DecidableEq, Repr

/-- One record descriptor of FORMAT TRACK (R94). -/
structure Descriptor where
  number : Nat
  keyLength : Nat
  dataLength : Nat
  deriving DecidableEq, Repr

/-- The thirteen fields of a drive type, items 2 to 14 of LOAD DRIVE TYPE in order (R17). -/
structure DriveType where
  dataCyls : Nat
  altCyls : Nat
  heads : Nat
  sectors : Nat
  lead : Nat
  setup : Nat
  stepTime : Nat
  settleTime : Nat
  capacity : Nat
  retryBudget : Nat
  missLimit : Nat
  threshold : Nat
  holdLimit : Nat
  deriving DecidableEq, Repr

/-- One entry of LOAD SPARE ENTRIES as carried (R121). -/
structure SpareItem where
  drive : Nat
  home : Track
  alternate : Track
  deriving DecidableEq, Repr

/-- The straps of one port (R140). The window base is 16 times `window`. -/
structure Straps where
  enabled : Bool
  window : Fin 16
  control : Bool
  deriving DecidableEq, Repr

/-- The levels of one drive position that the unit reads at power-on (R12). -/
structure Level where
  ready : Bool
  writeProtect : Bool
  deriving DecidableEq, Repr

/-- The frame a command or order arrives in (R78, R143). -/
inductive Via where
  | select
  | command
  deriving DecidableEq, Repr

/-- Where a command or order arrives: the port, the frame kind and the device address the frame carries (R141). -/
structure Hdr where
  port : Port
  via : Via
  address : Nat
  deriving DecidableEq, Repr

/-- The rows of spec/opcode_table.json. -/
inductive Instr where
  -- power
  | powerOn (straps : Vector Straps 4) (levels : Vector Level 8)
  -- drive commands (R156, codes 0x10 to 0x1A)
  | locate (h : Hdr) (track : Track) (record : Nat) (sector : Nat)
  | search (h : Hdr) (condition : Nat) (argument : List Byte)
  | read (h : Hdr) (count : Nat) (span : Nat)
  | write (h : Hdr) (count : Nat)
  | formatTrack (h : Hdr) (descriptors : List Descriptor)
  | recalibrate (h : Hdr)
  | readDriveState (h : Hdr)
  | readFaultRecord (h : Hdr)
  | reserve (h : Hdr)
  | reserveUnconditional (h : Hdr)
  | release (h : Hdr)
  | unknownCommandCode (h : Hdr) (code : Nat) (params : List Byte)
  -- unit orders (R156, codes 0x40 to 0x4C)
  | loadDriveType (h : Hdr) (typeNo : Nat) (fields : DriveType)
  | loadDriveRecord (h : Hdr) (drive configured typeNo writePermitted cursor : Nat)
  | readDriveTables (h : Hdr)
  | loadSpareEntries (h : Hdr) (entries : List SpareItem)
  | deleteSpareEntry (h : Hdr) (drive : Nat) (home : Track)
  | readSpareMap (h : Hdr) (start : Nat)
  | assignAlternate (h : Hdr) (drive : Nat) (home : Track)
  | restoreTrack (h : Hdr) (drive : Nat) (home : Track)
  | readSuspectList (h : Hdr)
  | setPathGroup (h : Hdr) (group : Nat)
  | setNoticeMask (h : Hdr) (stateChange spareAdvised : Nat)
  | readUnitState (h : Hdr)
  | unitClear (h : Hdr)
  -- other frames of a port (R143, R144) and the acknowledgement of an outbound one (R145)
  | data (p : Port) (address offset count : Nat) (bytes : List Byte)
  | close (p : Port) (address : Nat)
  | halt (p : Port) (address : Nat)
  | portReset (p : Port)
  | take (p : Port) (address : Nat)
  | defer (p : Port) (address : Nat)
  | outboundFrameLeft (p : Port)
  -- drive-side events (R10)
  | sectorMark (d : Drive)
  | indexMark (d : Drive)
  | onCylinder (d : Drive)
  | seekIncomplete (d : Drive)
  | seekDeadlineExpiry (d : Drive)
  | readyGained (d : Drive)
  | readyLost (d : Drive)
  | writeProtectChange (d : Drive) (on : Bool)
  /-- `none` is a field check (R8). -/
  | homeFieldRead (d : Drive) (content : Option HomeField)
  | idFieldRead (d : Drive) (read : IdRead)
  | keyFieldRead (d : Drive) (key : List Byte)
  /-- Bytes of the data field as they pass. Where the field `ends` with them its outcome comes too, good or a data check (R10,
  R13, log 6). -/
  | dataFieldRead (d : Drive) (bytes : List Byte) (ends good : Bool)
  | fieldWritten (d : Drive) (good : Bool)
  -- expiries and inner events
  | requestRaised (d : Drive)
  | requestLapse (d : Drive)
  | idleExpiry (d : Drive)
  | unitIdleTimerExpiry (p : Port)
  | holdTimerExpiry (d : Drive)
  | locateSearchBound (d : Drive)
  | searchIndexCountLimit (d : Drive)
  | bytesDrawnForWriting (d : Drive)
  deriving DecidableEq, Repr

end Sys2Proof
end

