-- ==== Sys2Proof/WellFormed.lean ====
section
/-! DEFINITION. The ranges a command's operands have in their frame or event (R3, R5, R144, R156). A term outside them spells
no frame and no event of the spec. -/

namespace Sys2Proof

/-- A number of one byte. -/
def isByte (n : Nat) : Bool := decide (n < 256)

/-- A number of two bytes. -/
def isWord (n : Nat) : Bool := decide (n < 65536)

/-- A track as three bytes (R156). -/
def Track.inFrame (t : Track) : Bool := isWord t.cyl && isByte t.head

/-- Whether a parameter field's length fits a command or order code (R144, R156). -/
def paramsFit (code : Nat) (params : List Byte) : Bool :=
  let n := params.length
  match code with
  | 0x10 => n == 5
  | 0x11 => decide (2 ≤ n ∧ n ≤ 33)
  | 0x12 => n == 3
  | 0x13 => n == 2
  | 0x14 => decide (4 ≤ n ∧ n ≤ 256 ∧ n % 4 = 0)
  | 0x15 | 0x16 | 0x17 | 0x18 | 0x19 | 0x1A => n == 0
  | 0x40 => n == 17
  | 0x41 => n == 6
  | 0x42 | 0x48 | 0x4B | 0x4C => n == 0
  | 0x43 =>
    match params with
    | [] => false
    | c :: rest => rest.length == 7 * c.toNat && decide (n ≤ 256)
  | 0x44 | 0x46 | 0x47 => n == 4
  | 0x45 => n == 1
  | 0x49 => n == 1
  | 0x4A => n == 2
  | _ => false

/-- The widths of LOAD DRIVE TYPE's items in its frame (R156). -/
def DriveType.inFrame (t : DriveType) : Bool :=
  isWord t.dataCyls && isByte t.altCyls && isByte t.heads && isByte t.sectors && isByte t.lead && isByte t.setup &&
  isWord t.stepTime && isByte t.settleTime && isWord t.capacity && isByte t.retryBudget && isByte t.missLimit &&
  isByte t.threshold && isByte t.holdLimit

/-- A physical track that some drive type can hold: at most 1016 cylinders and 24 heads (R17). -/
def Track.onMedium (t : Track) : Bool := decide (t.cyl < 1016) && decide (t.head < 24)

/-- The pointer of a condition, where it has one, is a track (R3). -/
def Condition.onMedium : Condition → Bool
  | .defective p => p.onMedium
  | .alternate p => p.onMedium
  | .good | .freeAlternate | .retired => true

/-- A byte at which a record can start: after the home field, on a track of at most 20480 bytes (R1, R17). -/
def recordStart (q : Nat) : Bool := decide (24 ≤ q) && decide (q < 20480)

/-- The ranges of R5. -/
def IdField.onMedium (f : IdField) : Bool :=
  f.address.onMedium && decide (1 ≤ f.number ∧ f.number ≤ 255) && decide (f.keyLength ≤ 32) &&
  decide (1 ≤ f.dataLength ∧ f.dataLength ≤ 8192)

/-- The command spells a frame or an event of the spec. -/
def Instr.wellFormed : Instr → Bool
  | .powerOn _ _ => true
  | .locate h t r o => isByte h.address && t.inFrame && isByte r && isByte o
  | .search h c a => isByte h.address && isByte c && decide (1 ≤ a.length ∧ a.length ≤ 32)
  | .read h n sp => isByte h.address && isWord n && isByte sp
  | .write h n => isByte h.address && isWord n
  | .formatTrack h ds => isByte h.address && decide (1 ≤ ds.length ∧ ds.length ≤ 64) &&
      ds.all (fun x => isByte x.number && isByte x.keyLength && isWord x.dataLength)
  | .recalibrate h => isByte h.address
  | .readDriveState h => isByte h.address
  | .readFaultRecord h => isByte h.address
  | .reserve h => isByte h.address
  | .reserveUnconditional h => isByte h.address
  | .release h => isByte h.address
  | .unknownCommandCode h code ps => isByte h.address && isByte code && decide (ps.length ≤ 259) && !paramsFit code ps
  | .loadDriveType h ty t => isByte h.address && isByte ty && t.inFrame
  | .loadDriveRecord h d c ty w cur => isByte h.address && isByte d && isByte c && isByte ty && isByte w && isWord cur
  | .readDriveTables h => isByte h.address
  | .loadSpareEntries h es => isByte h.address && decide (es.length ≤ 36) &&
      es.all (fun e => isByte e.drive && e.home.inFrame && e.alternate.inFrame)
  | .deleteSpareEntry h d t => isByte h.address && isByte d && t.inFrame
  | .readSpareMap h st => isByte h.address && isByte st
  | .assignAlternate h d t => isByte h.address && isByte d && t.inFrame
  | .restoreTrack h d t => isByte h.address && isByte d && t.inFrame
  | .readSuspectList h => isByte h.address
  | .setPathGroup h g => isByte h.address && isByte g
  | .setNoticeMask h a b => isByte h.address && isByte a && isByte b
  | .readUnitState h => isByte h.address
  | .unitClear h => isByte h.address
  | .data _ a o c bs => isByte a && isWord o && isWord c && decide (bs.length ≤ 256)
  | .close _ a | .halt _ a | .take _ a | .defer _ a => isByte a
  | .portReset _ | .outboundFrameLeft _ | .unitIdleTimerExpiry _ => true
  | .sectorMark _ | .indexMark _ | .onCylinder _ | .seekIncomplete _ | .seekDeadlineExpiry _ => true
  | .readyGained _ | .readyLost _ | .writeProtectChange _ _ | .fieldWritten _ _ => true
  | .homeFieldRead _ none => true
  | .homeFieldRead _ (some f) => f.address.onMedium && f.condition.onMedium
  | .idFieldRead _ x => recordStart x.start && recordStart x.before && (match x.content with | some f => f.onMedium | none => true)
  | .keyFieldRead _ k => decide (k.length ≤ 32)
  | .dataFieldRead _ bs ends good => decide (bs.length ≤ 8192) && (ends || !good)
  | .requestRaised _ | .requestLapse _ | .idleExpiry _ | .holdTimerExpiry _ => true
  | .locateSearchBound _ | .searchIndexCountLimit _ | .bytesDrawnForWriting _ => true

end Sys2Proof
end

