-- ==== Sys2Proof/Decode.lean ====
section
/-! DEFINITION. Inbound frames as commands and back (R144, R156). The opcode table gives its rows no bits, so the host's
decodeTableWord answers none for every word. -/

namespace Sys2Proof

/-- The table gives no row any bits ("fields" is empty throughout): no word spells a command. -/
def decodeTableWord (_nbits _w : Nat) : Option Instr := none

/-! ## Reading a frame -/

/-- Two bytes, high byte first. -/
def nat2 (hi lo : Byte) : Nat := hi.toNat * 256 + lo.toNat

/-- A track from its three bytes (R156). -/
def trackOf (c1 c2 h : Byte) : Track := { cyl := nat2 c1 c2, head := h.toNat }

/-- FORMAT TRACK's descriptors, four bytes each (R156). -/
def decodeDescriptors : List Byte → List Descriptor
  | n :: k :: d1 :: d2 :: rest =>
    { number := n.toNat, keyLength := k.toNat, dataLength := nat2 d1 d2 } :: decodeDescriptors rest
  | _ => []

/-- LOAD SPARE ENTRIES' entries, seven bytes each (R156). -/
def decodeSpareItems : List Byte → List SpareItem
  | d :: a :: b :: c :: e :: f :: g :: rest =>
    { drive := d.toNat, home := trackOf a b c, alternate := trackOf e f g } :: decodeSpareItems rest
  | _ => []

/-- LOAD DRIVE TYPE's items 2 to 14 (R156). -/
def decodeDriveType : List Byte → Option DriveType
  | [n1, n2, a, h, s, l, m, t1, t2, se, c1, c2, rb, ml, sp, hl] =>
    some { dataCyls := nat2 n1 n2, altCyls := a.toNat, heads := h.toNat, sectors := s.toNat, lead := l.toNat,
           setup := m.toNat, stepTime := nat2 t1 t2, settleTime := se.toNat, capacity := nat2 c1 c2,
           retryBudget := rb.toNat, missLimit := ml.toNat, threshold := sp.toNat, holdLimit := hl.toNat }
  | _ => none

/-- The command or order of a code with parameters whose length fits it, by the table of R156. -/
def decodeKnown (h : Hdr) (code : Nat) (params : List Byte) : Option Instr :=
  match code with
  | 0x10 =>
    match params with
    | [a, b, c, r, o] => some (.locate h (trackOf a b c) r.toNat o.toNat)
    | _ => none
  | 0x11 =>
    match params with
    | c :: arg => some (.search h c.toNat arg)
    | _ => none
  | 0x12 =>
    match params with
    | [a, b, sp] => some (.read h (nat2 a b) sp.toNat)
    | _ => none
  | 0x13 =>
    match params with
    | [a, b] => some (.write h (nat2 a b))
    | _ => none
  | 0x14 => some (.formatTrack h (decodeDescriptors params))
  | 0x15 => some (.recalibrate h)
  | 0x16 => some (.readDriveState h)
  | 0x17 => some (.readFaultRecord h)
  | 0x18 => some (.reserve h)
  | 0x19 => some (.reserveUnconditional h)
  | 0x1A => some (.release h)
  | 0x40 =>
    match params with
    | ty :: rest => (decodeDriveType rest).map (.loadDriveType h ty.toNat)
    | _ => none
  | 0x41 =>
    match params with
    | [d, c, ty, w, a, b] => some (.loadDriveRecord h d.toNat c.toNat ty.toNat w.toNat (nat2 a b))
    | _ => none
  | 0x42 => some (.readDriveTables h)
  | 0x43 =>
    match params with
    | _ :: rest => some (.loadSpareEntries h (decodeSpareItems rest))
    | _ => none
  | 0x44 =>
    match params with
    | [d, a, b, c] => some (.deleteSpareEntry h d.toNat (trackOf a b c))
    | _ => none
  | 0x45 =>
    match params with
    | [st] => some (.readSpareMap h st.toNat)
    | _ => none
  | 0x46 =>
    match params with
    | [d, a, b, c] => some (.assignAlternate h d.toNat (trackOf a b c))
    | _ => none
  | 0x47 =>
    match params with
    | [d, a, b, c] => some (.restoreTrack h d.toNat (trackOf a b c))
    | _ => none
  | 0x48 => some (.readSuspectList h)
  | 0x49 =>
    match params with
    | [g] => some (.setPathGroup h g.toNat)
    | _ => none
  | 0x4A =>
    match params with
    | [a, b] => some (.setNoticeMask h a.toNat b.toNat)
    | _ => none
  | 0x4B => some (.readUnitState h)
  | 0x4C => some (.unitClear h)
  | _ => none

/-- A command or order: the row of its code, or UNKNOWN COMMAND CODE for an unknown code or a parameter field whose length
does not fit (R144). -/
def decodeCommand (h : Hdr) (code : Nat) (params : List Byte) : Instr :=
  if paramsFit code params then (decodeKnown h code params).getD (.unknownCommandCode h code params)
  else .unknownCommandCode h code params

/-- An inbound frame on port p, from its bytes. `none` is a frame that is discarded unanswered: an unknown kind, a body
length over 260 (R144), a SELECT or COMMAND without a code (log 33), and a frame with fewer bytes than its body length says or
than its first four, of which R144 does not speak (model's choice, log 70). Bytes beyond the body length are dropped and the
frame is taken (model's choice, log 68). -/
def decodeFrame (p : Port) (bytes : List Byte) : Option Instr :=
  match bytes with
  | kind :: addr :: l1 :: l2 :: rest =>
    let len := nat2 l1 l2
    let body := rest.take len
    if len > 260 || rest.length < len then none
    else match kind.toNat with
      | 0x01 =>
        match body with
        | code :: ps => some (decodeCommand { port := p, via := .select, address := addr.toNat } code.toNat ps)
        | [] => none
      | 0x02 =>
        match body with
        | code :: ps => some (decodeCommand { port := p, via := .command, address := addr.toNat } code.toNat ps)
        | [] => none
      | 0x03 =>
        match body with
        | o1 :: o2 :: c1 :: c2 :: bs => some (.data p addr.toNat (nat2 o1 o2) (nat2 c1 c2) bs)
        | _ => none
      | 0x04 => some (.close p addr.toNat)
      | 0x05 => some (.halt p addr.toNat)
      | 0x06 => some (.portReset p)
      | 0x07 => some (.take p addr.toNat)
      | 0x08 => some (.defer p addr.toNat)
      | _ => none
  | _ => none

/-! ## Writing a frame -/

/-- A number as one byte. -/
def byte (n : Nat) : Byte := BitVec.ofNat 8 n

/-- A number as two bytes, high byte first. -/
def be2 (n : Nat) : List Byte := [byte (n / 256), byte n]

/-- A track as three bytes (R156). -/
def Track.bytes (t : Track) : List Byte := be2 t.cyl ++ [byte t.head]

/-- LOAD DRIVE TYPE's sixteen bytes after the type (R156). -/
def DriveType.bytes (t : DriveType) : List Byte :=
  be2 t.dataCyls ++ [byte t.altCyls, byte t.heads, byte t.sectors, byte t.lead, byte t.setup] ++ be2 t.stepTime ++
  [byte t.settleTime] ++ be2 t.capacity ++ [byte t.retryBudget, byte t.missLimit, byte t.threshold, byte t.holdLimit]

/-- The header, code and parameters of a drive command or unit order (R156). -/
def encodeCommand : Instr → Option (Hdr × Nat × List Byte)
  | .locate h t r o => some (h, 0x10, t.bytes ++ [byte r, byte o])
  | .search h c a => some (h, 0x11, byte c :: a)
  | .read h n sp => some (h, 0x12, be2 n ++ [byte sp])
  | .write h n => some (h, 0x13, be2 n)
  | .formatTrack h ds =>
    some (h, 0x14, ds.flatMap fun x => [byte x.number, byte x.keyLength] ++ be2 x.dataLength)
  | .recalibrate h => some (h, 0x15, [])
  | .readDriveState h => some (h, 0x16, [])
  | .readFaultRecord h => some (h, 0x17, [])
  | .reserve h => some (h, 0x18, [])
  | .reserveUnconditional h => some (h, 0x19, [])
  | .release h => some (h, 0x1A, [])
  | .unknownCommandCode h code ps => some (h, code, ps)
  | .loadDriveType h ty t => some (h, 0x40, byte ty :: t.bytes)
  | .loadDriveRecord h d c ty w cur => some (h, 0x41, [byte d, byte c, byte ty, byte w] ++ be2 cur)
  | .readDriveTables h => some (h, 0x42, [])
  | .loadSpareEntries h es =>
    some (h, 0x43, byte es.length :: es.flatMap fun e => [byte e.drive] ++ e.home.bytes ++ e.alternate.bytes)
  | .deleteSpareEntry h d t => some (h, 0x44, byte d :: t.bytes)
  | .readSpareMap h st => some (h, 0x45, [byte st])
  | .assignAlternate h d t => some (h, 0x46, byte d :: t.bytes)
  | .restoreTrack h d t => some (h, 0x47, byte d :: t.bytes)
  | .readSuspectList h => some (h, 0x48, [])
  | .setPathGroup h g => some (h, 0x49, [byte g])
  | .setNoticeMask h a b => some (h, 0x4A, [byte a, byte b])
  | .readUnitState h => some (h, 0x4B, [])
  | .unitClear h => some (h, 0x4C, [])
  | _ => none

/-- The envelope of a frame (R156). -/
def envelope (kind address : Nat) (body : List Byte) : List Byte :=
  [byte kind, byte address] ++ be2 body.length ++ body

/-- The bytes of the inbound frame that spells a command; `none` for a drive-side or inner event, which is no frame. PORT
RESET's device address is ignored (R156) and written as 0. -/
def encodeFrame (i : Instr) : Option (Port × List Byte) :=
  match encodeCommand i with
  | some (h, code, ps) =>
    some (h.port, envelope (match h.via with | .select => 0x01 | .command => 0x02) h.address (byte code :: ps))
  | none =>
    match i with
    | .data p a o c bs => some (p, envelope 0x03 a (be2 o ++ be2 c ++ bs))
    | .close p a => some (p, envelope 0x04 a [])
    | .halt p a => some (p, envelope 0x05 a [])
    | .portReset p => some (p, envelope 0x06 0 [])
    | .take p a => some (p, envelope 0x07 a [])
    | .defer p a => some (p, envelope 0x08 a [])
    | _ => none

end Sys2Proof
end

