-- ==== Sys2Proof/Config.lean ====
section
/-! DEFINITION. The free values: what the spec leaves open, as constants without a body. No proof can see their value. -/

namespace Sys2Proof

/-- Which of the claims that wait for one IDLE port is taken first: "any one of them may be taken first" (R150, R184).
The argument is the number of free values used before (log 5). Free value. -/
opaque Config.claimChoice : Nat → Nat

/-- The angular counter after a SECTOR MARK on a position whose record names a type that is not loaded, so that R55's
modulus S does not exist (log 7). The argument is the counter before. Free value. -/
opaque Config.counterWithoutType : Nat → Nat

/-- Whether a READ whose span byte is neither 1 (YES) nor 0 (NO) spans: R89 and R156 give those two values only
(log 8). The argument is the byte. Free value. -/
opaque Config.spanOfOtherByte : Nat → Bool

end Sys2Proof
end

