-- ==== Sys2Proof/Machine/State.lean ====
section
/-! DEFINITION. The state of the unit as plain data, its value at reset, and the (unused) reasons a step could stop. -/

namespace Sys2Proof.Machine

open Sys2Proof

/-! ## Status, notices and outbound frames (chapters 8 and 10) -/

/-- The fault kinds, which are reason codes of a STATUS (R156). -/
inductive FaultKind where
  | commandReject | notConfigured | notReady | notWritable | equipmentCheck | notFound | idCheck | dataCheck
  | homeCheck | overrun | spareConflict | noAlternate | mapFull
  deriving DecidableEq, Repr

/-- The reason code of a STATUS: none, a HELD reason or a fault kind (R149). -/
inductive Reason where
  | none | busy | reserved | hold | portBusy
  | fault (k : FaultKind)
  deriving DecidableEq, Repr

/-- The detail codes (R156). -/
inductive Detail where
  | none | seek | recalibrate | misposition | noResponse | read | write | homeUnmarked | altUnmarked | homeCondition
  | alternateCondition | pointerRange | pointerHeld | exhausted | skipLimit | noConnection
  deriving DecidableEq, Repr

/-- The two alternate operations (R124). -/
inductive AltOrder where
  | assign | restore
  deriving DecidableEq, Repr

/-- How an alternate operation ended (R130). -/
inductive AltOutcome where
  | done
  | fault (k : FaultKind) (det : Detail)
  | aborted
  deriving DecidableEq, Repr

/-- The result of an alternate operation (R130). `marked` is home marked (ASSIGN) or home restored (RESTORE), `retired`
is old alternate retired or alternate retired; `none` is "not applicable". -/
structure AltResult where
  order : AltOrder
  drive : Drive
  home : Track
  alternate : Option Track
  outcome : AltOutcome
  marked : Option Bool
  retired : Option Bool
  cursor : Nat
  deriving DecidableEq, Repr

/-- A STATUS: its items, reason code, detail code, residual count and, for an alternate operation, the result (R149). -/
structure Status where
  accept : Bool := false
  disconnect : Bool := false
  done : Bool := false
  matched : Bool := false
  endCyl : Bool := false
  halted : Bool := false
  held : Bool := false
  fault : Bool := false
  reason : Reason := .none
  detail : Detail := .none
  residual : Nat := 0
  alt : Option AltResult := Option.none
  deriving DecidableEq, Repr

/-- A notice, its content fixed when it is posted (R175). -/
inductive Notice where
  | deviceFree (d : Drive)
  | stateChange (d : Drive)
  | reserveBroken (d : Drive)
  | spareAdvised (d : Drive) (logical : Track)
  | rescan
  deriving DecidableEq, Repr

/-- What an offer proposes (R150). -/
inductive Offer where
  | reconnect (d : Drive)
  | status (d : Drive)
  | notice (n : Notice)
  deriving DecidableEq, Repr

/-- An outbound frame, with the device address of its envelope (R141, R156). -/
inductive OutFrame where
  /-- `ends`: this STATUS ends the connection as it leaves (R148); the model's own mark. -/
  | status (address : Nat) (st : Status) (ends : Bool)
  | data (address : Nat) (offset : Nat) (bytes : List Byte)
  /-- an outbound DATA frame without bytes: a data request (R153) -/
  | request (address : Nat) (offset count : Nat)
  | offer (address : Nat) (o : Offer)
  deriving DecidableEq, Repr

/-! ## The port record (R140) -/

inductive PortState where
  | disabled | idle | connected | offering | resetting
  deriving DecidableEq, Repr

/-- What a connection joins the port to. -/
inductive Conn where
  | drive (d : Drive)
  | unit
  deriving DecidableEq, Repr

/-- A STATUS that is due when the port buffer has drained (R145): `found` is the home condition a fault record takes,
`resets` says that a DONE sets the search index count to 0 (R87). -/
structure Answer where
  status : Status
  found : Option Condition
  resets : Bool
  deriving DecidableEq, Repr

/-- Inbound DATA bytes held for a WRITE, by their offset (R153). -/
structure Chunk where
  offset : Nat
  bytes : List Byte
  deriving DecidableEq, Repr

structure PortRec where
  straps : Straps
  state : PortState
  conn : Option Conn
  /-- the offer and whether its OFFER frame has left (phase SENT) or not (QUEUED) -/
  offer : Option (Offer × Bool)
  group : Nat
  maskStateChange : Bool
  maskSpareAdvised : Bool
  overflow : Bool
  /-- frames produced that have not left, oldest first (R145); its DATA frames are the outbound part of the buffer -/
  link : List OutFrame
  /-- inbound frames held for a WRITE -/
  held : List Chunk
  /-- data requests outstanding, oldest first: offset and count -/
  requests : List (Nat × Nat)
  idleTimer : Option Nat
  /-- a STATUS waiting for the buffer to drain; while present the command or order is unanswered -/
  answer : Option Answer
  /-- CLOSE taken while a unit order was unanswered (R148) -/
  closing : Bool
  /-- the connection is being set aside and the port becomes IDLE when its buffer has drained (R46, R118) -/
  draining : Bool
  /-- a RESERVE UNCONDITIONAL of this connection whose STATUS waits for the end of the drive's operation (R165) -/
  awaiting : Bool
  /-- in RESETTING: the drive whose FIELD WRITTEN ends the reset (R155) -/
  resetDrive : Option Drive
  deriving DecidableEq, Repr

/-- The notice queue of a port, oldest first, and its presentation hold (R176). -/
structure NoticeQueue where
  notices : List Notice
  held : Bool
  deriving DecidableEq, Repr

/-! ## Table store (chapter 2) -/

structure DriveRecord where
  configured : Bool
  typeNo : TypeNo
  writePermitted : Bool
  cursor : Nat
  deriving DecidableEq, Repr

/-! ## Positioner (R33) -/

inductive Actuator where
  | notReady | uncalibrated | onCylinder | seeking | recalibrating
  deriving DecidableEq, Repr

structure Positioner where
  actuator : Actuator
  cyl : Option Nat
  head : Option Nat
  motionTarget : Option Nat
  /-- the motion owner is the operation in flight on this drive, or none -/
  owned : Bool
  deadline : Option Nat
  unanswered : Nat
  calVoid : Bool
  /-- track status: `none` is UNKNOWN (R15) -/
  status : Option Condition
  /-- angular counter: `none` is unknown (R55) -/
  angle : Option Nat
  writeProtect : Bool
  deriving DecidableEq, Repr

/-! ## Operations (R77, R58, R124) -/

inductive ReqState where
  | dormant | active | granted
  deriving DecidableEq, Repr

/-- An orientation (R58). `later` is raisings LATER. `tested` (the model's): a mark of the drive has passed since the
orientation became DORMANT, so that R59's test can be made. -/
structure Orientation where
  external : Bool
  sector : Nat
  req : ReqState
  windowOpen : Bool
  later : Bool
  deferred : PortSet
  tested : Bool
  deriving DecidableEq, Repr

/-- What the operation is at. -/
inductive Work where
  /-- on its way to the physical target -/
  | positioning
  /-- a RECALIBRATE command's motion -/
  | recalibrating
  /-- an INTERNAL request, or its grant, for a read of the home field -/
  | readHome
  /-- an INTERNAL request, or its grant, for a write of the home field with this content -/
  | writeHome (f : HomeField)
  /-- an EXTERNAL request for the host -/
  | reconnect
  | connected
  /-- ended, with its pending status -/
  | ended
  deriving DecidableEq, Repr

inductive SearchCond where
  | eq | highOrEq | high
  deriving DecidableEq, Repr

/-- A record by its place in recorded order, the byte of the track at which it starts, and by the content of its ID field
(R2, R83). -/
structure RecordAt where
  start : Nat
  id : IdField
  deriving DecidableEq, Repr

/-- The search for a record after a reconnection (R82, R46): INDEX MARKs since the TAKE, whether an ID field check was noted,
and whether it acts only from the next INDEX MARK on. -/
structure Finding where
  marks : Nat
  noted : Bool
  waitIndex : Bool
  deriving DecidableEq, Repr

/-- The ID field a SEARCH or a spanning READ waits for (R83, R84, R95). -/
inductive Awaited where
  /-- the first one after the next INDEX MARK -/
  | afterIndex
  /-- the next one to pass -/
  | next
  /-- the one that passes next after that of the record that starts at this byte: the next record (R83) -/
  | after (start : Nat)
  /-- the one of the record that starts at this byte: a field to be reread -/
  | place (start : Nat)
  deriving DecidableEq, Repr

/-- The field a SEARCH waits for. -/
inductive SearchPhase where
  /-- after R46, the record at which the command stopped; `none` is the first record after the index -/
  | find (sought : Option RecordAt) (f : Finding)
  | id (w : Awaited)
  | key
  /-- the search index count has reached 2 while it waited for its ID field: FAULT NOT FOUND is due (R87) -/
  | over
  deriving DecidableEq, Repr

/-- The field a READ waits for. -/
inductive ReadPhase where
  | data
  | nextId (w : Awaited)
  | home
  /-- after R46, the record before the one being entered; `none` is the first record after the index -/
  | find (sought : Option RecordAt) (f : Finding)
  /-- after R46, the current record, whose data field the READ takes -/
  | seek (f : Finding)
  /-- its STATUS waits for the buffer -/
  | done
  deriving DecidableEq, Repr

structure ReadCmd where
  span : Bool
  phase : ReadPhase
  /-- bytes of the field in progress that have passed in this pass -/
  got : Nat
  /-- bytes of the field in progress already formed into frames in this pass -/
  formed : Nat
  /-- the frame being formed -/
  forming : List Byte
  /-- the READ's transfer has been sent to the host up to this offset -/
  sentTo : Nat
  deriving DecidableEq, Repr

/-- How a stopped command ends, at once or at its FIELD WRITTEN (R98, R78, R80); `hold` says whether the FAULT COMMAND
REJECT that stopped it gives a hold (R166, log 30). -/
inductive StopEnd where
  | halted
  | rejected (hold : Bool)
  /-- refused by READ DRIVE TABLES, with residual 0 (R31, log 51) -/
  | tables
  | closed
  deriving DecidableEq, Repr

structure WriteCmd where
  /-- host bytes needed, min(count, DL) (R93) -/
  need : Nat
  /-- the host bytes drawn onto the path, which the drive writes first into the data field -/
  bytes : List Byte
  /-- ranges of the host bytes still to be asked for: offset and length -/
  toAsk : List (Nat × Nat)
  /-- after R46, the current record is sought again; nothing is written before it is found -/
  seek : Option Finding
  /-- the data field has begun -/
  begun : Bool
  /-- overrun: the rest of the field is zeros (R97) -/
  zeroFill : Bool
  stop : Option StopEnd
  deriving DecidableEq, Repr

/-- A field FORMAT TRACK writes, with its content: key bytes and data bytes go under one check (R94, R7). -/
inductive FormatField where
  | home (f : HomeField)
  | id (f : RecordAt)
  | keyData (key data : List Byte)
  deriving DecidableEq, Repr

structure FormatCmd where
  fields : List FormatField
  last : Option RecordAt
  begun : Bool
  stop : Option StopEnd
  deriving DecidableEq, Repr

/-- The command in progress in a connection (R77). -/
inductive Cmd where
  | locate (f : Finding)
  | search (cond : SearchCond) (argument : List Byte) (phase : SearchPhase)
  | read (r : ReadCmd)
  | write (w : WriteCmd)
  | format (f : FormatCmd)
  | driveState
  deriving DecidableEq, Repr

/-- A fault record (R167). -/
structure FaultRecord where
  kind : Option FaultKind
  detail : Detail
  drive : Drive
  logical : Option Track
  physical : Option Track
  record : Nat
  retries : Nat
  miss : Nat
  residual : Nat
  found : Option Condition
  deriving DecidableEq, Repr

/-- A pending status (R102): the STATUS to be delivered and, for a fault of a drive command, its fault record. -/
structure Pending where
  status : Status
  record : Option FaultRecord
  deriving DecidableEq, Repr

inductive AltStep where
  | pick | probe | markAlt | markHome | commit | approach | rewriteHome | retireAlt
  deriving DecidableEq, Repr

/-- The further items of an alternate operation (R124). The entry is named by the drive and the home track. -/
structure AltOp where
  step : AltStep
  writePassed : Bool
  candidate : Option Track
  tried : Nat
  hasEntry : Bool
  fresh : Bool
  old : Option Track
  issuerHeld : Bool
  marked : Option Bool
  retired : Option Bool
  firstFault : Option (FaultKind × Detail)
  deriving DecidableEq, Repr

inductive OpKind where
  | locate | recalibrate | assignAlternate | restoreTrack
  deriving DecidableEq, Repr

/-- The drive operation record (R77). -/
structure Operation where
  kind : OpKind
  issuer : Port
  group : Nat
  logical : Option Track
  record : Nat
  /-- LOCATE's orientation sector, reduced modulo S (R56) -/
  sector : Nat
  target : Option Track
  /-- the expected home condition (R109) -/
  expected : Option Condition
  /-- the home track of the spare-map entry the target came from (R109, R111) -/
  entry : Option Track
  recovery : Bool
  miss : Nat
  orient : Option Orientation
  work : Work
  /-- the operation's first reconnection has been made (R56) -/
  reconnected : Bool
  conn : Option Port
  cmd : Option Cmd
  current : Option RecordAt
  /-- the ports on which frames of the READ in progress, formed before its connection there was set aside, may still be leaving
  (R46, R90, R118) -/
  leaving : PortSet
  /-- marks of the drive since the read or write at hand was armed (R2; the model's own, log 6) -/
  marksSince : Nat
  /-- an ID field with a check has been read since the last INDEX MARK: no further record is reached in this revolution (R8) -/
  lost : Bool
  /-- the data field of the record last compared stays armed for its check (R88) -/
  keyCheck : Bool
  byteCount : Nat
  accounted : Nat
  retries : Nat
  /-- rereads made of the field at hand, and whether one is awaited (R95, R87) -/
  rereads : Nat
  rereadDue : Bool
  reported : List Track
  searchIndex : Nat
  idle : Nat
  pending : Option Pending
  /-- the ports that have deferred the pending status (R103) -/
  statusDeferred : PortSet
  alt : Option AltOp
  deriving DecidableEq, Repr

/-- A write left to be finished after its operation was aborted (R105, R155): the track it is on, whether the operation
had reported it (R96), the home field when that is what is being written (R15), and the RESETTING port that waits for it. -/
structure Finishing where
  physical : Track
  logical : Track
  reported : Bool
  home : Option HomeField
  port : Option Port
  deriving DecidableEq, Repr

/-! ## Path arbiter (R64) -/

/-- The holder of a path: the drive and, for an EXTERNAL grant, the port. -/
structure PathHold where
  drive : Drive
  port : Option Port
  deriving DecidableEq, Repr

/-! ## Spare map and suspect list (chapters 6 and 7) -/

inductive Origin where
  | loaded | learned | assigned
  deriving DecidableEq, Repr

/-- An entry of the spare map (R106); `active` is ACTIVE, otherwise STALE. -/
structure SpareEntry where
  drive : Drive
  home : Track
  current : Option Track
  pending : Option Track
  origin : Origin
  active : Bool
  deriving DecidableEq, Repr

/-- An entry of the suspect list (R135). -/
structure Suspect where
  drive : Drive
  physical : Track
  logical : Track
  count : Nat
  lastKind : FaultKind
  advised : Bool
  deriving DecidableEq, Repr

/-! ## Sharing unit (R159) -/

inductive OwedMark where
  | command | order
  deriving DecidableEq, Repr

structure Hold where
  port : Port
  timer : Nat
  record : FaultRecord
  deriving DecidableEq, Repr

/-- A drive sharing record: the fault record and timer exist exactly with the hold. -/
structure Sharing where
  owner : Option Nat
  hold : Option Hold
  owed : Vector (Option OwedMark) 4
  deriving DecidableEq, Repr

/-! ## The whole unit -/

structure State where
  /-- POWER_ON has been taken (R189, log 2) -/
  powered : Bool
  /-- the timebase, in milliseconds -/
  now : Nat
  types : Vector (Option DriveType) 4
  records : Vector DriveRecord 8
  positioners : Vector Positioner 8
  ops : Vector (Option Operation) 8
  finishing : Vector (Option Finishing) 8
  paths : Vector (Option PathHold) 2
  spareMap : List SpareEntry
  suspects : List Suspect
  lastAlt : Option AltResult
  ports : Vector PortRec 4
  queues : Vector NoticeQueue 4
  sharing : Vector Sharing 8
  /-- the drive whose last mark has consequences not yet taken (the model's own, log 4) -/
  due : Option Drive
  /-- free values used so far (the model's own, log 5) -/
  choices : Nat
  /-- the commands that wait, first in first out -/
  pending : List Instr
  deriving DecidableEq, Repr

/-- No command of this unit stops the machine with a fault: every failure the spec gives is an answer in a STATUS frame,
part of the next state. The constructor stands for the type only; no definition answers it (safe). -/
inductive Fault where
  /-- raised by no one; safe -/
  | unreachable
  deriving DecidableEq, Repr

/-- Why a command is refused. -/
inductive Refusal where
  /-- raised by an arm of exec for a row of the opcode table that has no meaning yet; safe. No arm does. -/
  | notModelled (mnemonic : String)
  deriving DecidableEq, Repr

/-! ## Values at power-on -/

/-- A positioner found not ready (R50, R51, R54). -/
def Positioner.notReady : Positioner :=
  { actuator := .notReady, cyl := none, head := none, motionTarget := none, owned := false, deadline := none,
    unanswered := 0, calVoid := false, status := none, angle := none, writeProtect := false }

/-- An unconfigured drive record (R19, R21). -/
def DriveRecord.unconfigured : DriveRecord :=
  { configured := false, typeNo := 0, writePermitted := false, cursor := 0 }

/-- A sharing record with nothing in it (R159). -/
def Sharing.empty : Sharing :=
  { owner := none, hold := none, owed := Vector.replicate 4 none }

/-- Straps as if none had been read: the port disabled (log 2). -/
def Straps.unread : Straps := { enabled := false, window := 0, control := false }

/-- A port record at power-on with these straps (R140). -/
def PortRec.powerOn (st : Straps) : PortRec :=
  { straps := st, state := if st.enabled then .idle else .disabled, conn := none, offer := none, group := 0,
    maskStateChange := true, maskSpareAdvised := true, overflow := false, link := [], held := [], requests := [],
    idleTimer := none, answer := none, closing := false, draining := false, awaiting := false, resetDrive := none }

/-- The unit before POWER_ON is taken: every block at its power-on value, no strap read, no drive found ready (R189, log 2). -/
def State.reset : State :=
  { powered := false
    now := 0
    types := Vector.replicate 4 none
    records := Vector.replicate 8 DriveRecord.unconfigured
    positioners := Vector.replicate 8 Positioner.notReady
    ops := Vector.replicate 8 none
    finishing := Vector.replicate 8 none
    paths := Vector.replicate 2 none
    spareMap := []
    suspects := []
    lastAlt := none
    ports := Vector.replicate 4 (PortRec.powerOn Straps.unread)
    queues := Vector.replicate 4 { notices := [], held := false }
    sharing := Vector.replicate 8 Sharing.empty
    due := none
    choices := 0
    pending := [] }

end Sys2Proof.Machine
end

