-- ==== Sys2Proof/Machine/Flags.lean ====
section
/-! DEFINITION. STATUS item sets (R149) and the codes of items, reasons, details, conditions and states (R156). -/

namespace Sys2Proof

/-- The pointer of a condition, where it has one (R3). -/
def Condition.pointer : Condition → Option Track
  | .defective p => some p
  | .alternate p => some p
  | .good | .freeAlternate | .retired => none

end Sys2Proof

namespace Sys2Proof.Machine

/-- ACCEPT and DISCONNECT: a disconnecting command or order taken (R149). -/
def Status.accepted : Status := { accept := true, disconnect := true }

/-- DONE with a residual (R149); DISCONNECT is added where the connection ends. -/
def Status.doneWith (residual : Nat) : Status := { done := true, residual := residual }

/-- DONE, HALTED, DISCONNECT (R98). -/
def Status.haltedWith (residual : Nat) : Status :=
  { done := true, halted := true, disconnect := true, residual := residual }

/-- FAULT of a kind, with detail and residual (R149). -/
def Status.faultOf (k : FaultKind) (det : Detail) (residual : Nat) : Status :=
  { fault := true, reason := .fault k, detail := det, residual := residual }

/-- HELD for a reason (R149). -/
def Status.heldFor (r : Reason) : Status := { held := true, reason := r }

/-- The same STATUS with DISCONNECT: the port is no longer connected once it has left (R149). -/
def Status.disc (st : Status) : Status := { st with disconnect := true }

def FaultKind.code : FaultKind → Nat
  | .commandReject => 0x10 | .notConfigured => 0x11 | .notReady => 0x12 | .notWritable => 0x13
  | .equipmentCheck => 0x14 | .notFound => 0x15 | .idCheck => 0x16 | .dataCheck => 0x17 | .homeCheck => 0x18
  | .overrun => 0x19 | .spareConflict => 0x1A | .noAlternate => 0x1B | .mapFull => 0x1C

def Reason.code : Reason → Nat
  | .none => 0x00 | .busy => 0x01 | .reserved => 0x02 | .hold => 0x03 | .portBusy => 0x04
  | .fault k => k.code

def Detail.code : Detail → Nat
  | .none => 0 | .seek => 1 | .recalibrate => 2 | .misposition => 3 | .noResponse => 4 | .read => 5 | .write => 6
  | .homeUnmarked => 7 | .altUnmarked => 8 | .homeCondition => 9 | .alternateCondition => 10 | .pointerRange => 11
  | .pointerHeld => 12 | .exhausted => 13 | .skipLimit => 14 | .noConnection => 15

/-- The items byte of a STATUS body (R156). -/
def Status.itemsCode (st : Status) : Nat :=
  st.accept.toNat * 0x80 + st.disconnect.toNat * 0x40 + st.done.toNat * 0x20 + st.matched.toNat * 0x10 +
  st.endCyl.toNat * 0x08 + st.halted.toNat * 0x04 + st.held.toNat * 0x02 + st.fault.toNat * 0x01

def conditionCode : Option Condition → Nat
  | none => 0
  | some .good => 1
  | some (.defective _) => 2
  | some .freeAlternate => 3
  | some (.alternate _) => 4
  | some .retired => 5

def Actuator.code : Actuator → Nat
  | .notReady => 0 | .uncalibrated => 1 | .onCylinder => 2 | .seeking => 3 | .recalibrating => 4

def PortState.code : PortState → Nat
  | .disabled => 0 | .idle => 1 | .connected => 2 | .offering => 3 | .resetting => 4

def Origin.code : Origin → Nat
  | .loaded => 1 | .learned => 2 | .assigned => 3

def AltOrder.code : AltOrder → Nat
  | .assign => 1 | .restore => 2

/-- DONE 0, a fault reason code, ABORTED 0xFF (R156). -/
def AltOutcome.code : AltOutcome → Nat
  | .done => 0
  | .fault k _ => k.code
  | .aborted => 0xFF

def AltOutcome.detail : AltOutcome → Detail
  | .fault _ det => det
  | .done | .aborted => .none

def Notice.code : Notice → Nat
  | .deviceFree _ => 1 | .stateChange _ => 2 | .reserveBroken _ => 3 | .spareAdvised _ _ => 4 | .rescan => 5

end Sys2Proof.Machine
end

