-- ==== Sys2Proof/Machine/Ops.lean ====
section
/-! DEFINITION. Reads and writes of the pieces of state, and the small operations every block shares. -/

namespace Sys2Proof

/-- A type that is not loaded has no fields; READ DRIVE TABLES reports them as zero (R17). -/
def DriveType.absent : DriveType :=
  { dataCyls := 0, altCyls := 0, heads := 0, sectors := 0, lead := 0, setup := 0, stepTime := 0, settleTime := 0,
    capacity := 0, retryBudget := 0, missLimit := 0, threshold := 0, holdLimit := 0 }

def PortSet.has (ps : PortSet) (p : Port) : Bool := ps[p]

def PortSet.add (ps : PortSet) (p : Port) : PortSet := ps.set p true

def PortSet.remove (ps : PortSet) (p : Port) : PortSet := ps.set p false

/-- The track lies on the data cylinders and heads of the type (R4, R81). -/
def DriveType.isHome (t : DriveType) (x : Track) : Bool := decide (x.cyl < t.dataCyls) && decide (x.head < t.heads)

/-- The track lies on the alternate cylinders and heads of the type (R4, R111). -/
def DriveType.isAlternate (t : DriveType) (x : Track) : Bool :=
  decide (t.dataCyls ≤ x.cyl) && decide (x.cyl < t.dataCyls + t.altCyls) && decide (x.head < t.heads)

/-- The number of alternate tracks, A × H (R20). -/
def DriveType.alternates (t : DriveType) : Nat := t.altCyls * t.heads

/-- The alternate track at an index: cylinder N + floor(i / H), head i mod H (R20). -/
def DriveType.alternateAt (t : DriveType) (i : Nat) : Track :=
  { cyl := t.dataCyls + i / t.heads, head := i % t.heads }

/-- The index of an alternate track: (cyl − N) × H + head (R20). -/
def DriveType.alternateIndex (t : DriveType) (x : Track) : Nat := (x.cyl - t.dataCyls) * t.heads + x.head

/-- The length of a record: 40 + KL + DL (R1). -/
def recordLength (kl dl : Nat) : Nat := 40 + kl + dl

/-- The sector in which a field that starts at byte p starts: floor(p × S / C) (R2). -/
def DriveType.sectorOf (t : DriveType) (p : Nat) : Nat := p * t.sectors / t.capacity

/-- The byte at which the first record starts (R1). -/
def firstStart : Nat := 24

/-- The byte at which the key field of a record that starts at byte q starts (R2). -/
def keyStart (q : Nat) : Nat := q + 28

/-- The byte at which the data field of a record that starts at byte q and has a key of kl bytes starts (R2). -/
def dataStart (q kl : Nat) : Nat := q + 28 + kl

/-- 24 plus the records' lengths (R9). -/
def trackSum (ds : List Descriptor) : Nat := ds.foldl (fun n x => n + recordLength x.keyLength x.dataLength) firstStart

/-- The lengths lie in the ranges of R5. -/
def Descriptor.lengthsInRange (x : Descriptor) : Bool :=
  decide (x.keyLength ≤ 32) && decide (1 ≤ x.dataLength) && decide (x.dataLength ≤ 8192)

/-- The list fits a track of the type (R9). -/
def DriveType.fits (t : DriveType) (ds : List Descriptor) : Bool :=
  decide (1 ≤ ds.length) && decide (ds.length ≤ 64) && ds.all Descriptor.lengthsInRange &&
  decide (trackSum ds ≤ t.capacity)

/-- settle time + ceil(d × step time / 1000) + 10, in milliseconds (R36). -/
def DriveType.motionTime (t : DriveType) (d : Nat) : Nat := t.settleTime + (d * t.stepTime + 999) / 1000 + 10

end Sys2Proof

namespace Sys2Proof.Machine

open Sys2Proof

/-! ## Access to one item -/

def State.port (s : State) (p : Port) : PortRec := s.ports[p]
def State.setPort (s : State) (p : Port) (r : PortRec) : State := { s with ports := s.ports.set p r }
def State.modPort (s : State) (p : Port) (f : PortRec → PortRec) : State := s.setPort p (f (s.port p))

def State.op (s : State) (d : Drive) : Option Operation := s.ops[d]
def State.setOp (s : State) (d : Drive) (o : Option Operation) : State := { s with ops := s.ops.set d o }
def State.modOp (s : State) (d : Drive) (f : Operation → Operation) : State := s.setOp d ((s.op d).map f)

def State.pos (s : State) (d : Drive) : Positioner := s.positioners[d]
def State.setPos (s : State) (d : Drive) (q : Positioner) : State := { s with positioners := s.positioners.set d q }
def State.modPos (s : State) (d : Drive) (f : Positioner → Positioner) : State := s.setPos d (f (s.pos d))

def State.share (s : State) (d : Drive) : Sharing := s.sharing[d]
def State.setShare (s : State) (d : Drive) (x : Sharing) : State := { s with sharing := s.sharing.set d x }
def State.modShare (s : State) (d : Drive) (f : Sharing → Sharing) : State := s.setShare d (f (s.share d))

def State.queue (s : State) (p : Port) : NoticeQueue := s.queues[p]
def State.setQueue (s : State) (p : Port) (q : NoticeQueue) : State := { s with queues := s.queues.set p q }

def State.record (s : State) (d : Drive) : DriveRecord := s.records[d]
def State.setRecord (s : State) (d : Drive) (r : DriveRecord) : State := { s with records := s.records.set d r }

def State.path (s : State) (n : PathNo) : Option PathHold := s.paths[n]
def State.setPath (s : State) (n : PathNo) (h : Option PathHold) : State := { s with paths := s.paths.set n h }

def State.finish (s : State) (d : Drive) : Option Finishing := s.finishing[d]
def State.setFinish (s : State) (d : Drive) (f : Option Finishing) : State :=
  { s with finishing := s.finishing.set d f }

/-- The type named by the drive's record, if it is loaded (R18). -/
def State.loadedType (s : State) (d : Drive) : Option DriveType := s.types[(s.record d).typeNo]

/-- The fields of the type named by the drive's record at the moment of use (R18); a configured record names a loaded type
(R25). -/
def State.typeOf (s : State) (d : Drive) : DriveType := (s.loadedType d).getD DriveType.absent

/-- A drive number carried in a frame, when it is 0 to 7. -/
def driveOf (n : Nat) : Option Drive := if h : n < 8 then some ⟨n, h⟩ else none

/-! ## Places of a record (R1, R2, R83) -/

/-- The byte at which the key field starts (R2). -/
def RecordAt.keyStart (r : RecordAt) : Nat := Sys2Proof.keyStart r.start

/-- The byte at which the data field starts (R2). -/
def RecordAt.dataStart (r : RecordAt) : Nat := Sys2Proof.dataStart r.start r.id.keyLength

/-! ## Folds over the ports and drives -/

def State.forPorts (s : State) (f : State → Port → State) : State := allPorts.foldl f s
def State.forDrives (s : State) (f : State → Drive → State) : State := allDrives.foldl f s

/-! ## Bytes -/

/-- A number as one byte of a layout. -/
def byteOf (n : Nat) : Byte := BitVec.ofNat 8 n

/-- A number as two bytes, high byte first ("Numbers", 00_scope). -/
def twoBytes (n : Nat) : List Byte := [byteOf (n / 256), byteOf n]

/-! ## Times (R36, R37) -/

/-- |a − b| in cylinders (R36). -/
def distance (a b : Nat) : Nat := (a - b) + (b - a)

end Sys2Proof.Machine
end

