-- ==== Sys2Proof/Machine/Layouts.lean ====
section
/-! DEFINITION. The layouts of outbound frames and of the answers carried in DATA (R156). -/

namespace Sys2Proof.Machine

open Sys2Proof

/-- A track as three bytes; an absent one is 0xFFFF and 0xFF (R156). -/
def trackBytes : Option Track → List Byte
  | some t => twoBytes t.cyl ++ [byteOf t.head]
  | none => [0xFF, 0xFF, 0xFF]

/-- YES is 1 and NO is 0 (R156). -/
def flagByte (b : Bool) : Byte := if b then 1 else 0

/-- Ports A to D are 1 to 4 and 0 is none (R156). -/
def portByte : Option Port → Byte
  | some p => byteOf (p.val + 1)
  | none => 0

/-- Flags byte of an alternate result: 0x02 home marked or restored, 0x01 retired (R156). -/
def AltResult.flags (a : AltResult) : Byte :=
  byteOf ((if a.marked = some true then 2 else 0) + (if a.retired = some true then 1 else 0))

/-- Bytes 5 to 15 of an alternate operation's STATUS body (R156). -/
def AltResult.statusBytes (a : AltResult) : List Byte :=
  [byteOf a.order.code, byteOf a.drive.val] ++ trackBytes (some a.home) ++ trackBytes a.alternate ++ [a.flags] ++
  twoBytes a.cursor

/-- The STATUS body (R156). -/
def Status.body (st : Status) : List Byte :=
  [byteOf st.itemsCode, byteOf st.reason.code, byteOf st.detail.code] ++ twoBytes st.residual ++
  (match st.alt with | some a => a.statusBytes | none => [])

/-- The drive a notice names, or 0xFF for RESCAN (R156). -/
def Notice.driveByte : Notice → Byte
  | .deviceFree d | .stateChange d | .reserveBroken d | .spareAdvised d _ => byteOf d.val
  | .rescan => 0xFF

/-- The track of a notice, absent unless SPARE-ADVISED (R156). -/
def Notice.track : Notice → Option Track
  | .spareAdvised _ t => some t
  | .deviceFree _ | .stateChange _ | .reserveBroken _ | .rescan => none

/-- The OFFER body (R156). -/
def Offer.body : Offer → List Byte
  | .reconnect _ => [1]
  | .status _ => [2]
  | .notice n => [3, byteOf n.code, n.driveByte] ++ trackBytes n.track

/-- An outbound frame as bytes: kind, device address, body length, body (R156). -/
def OutFrame.bytes : OutFrame → List Byte
  | .status a st _ => [0x81, byteOf a] ++ twoBytes st.body.length ++ st.body
  | .data a o bs => [0x83, byteOf a] ++ twoBytes (4 + bs.length) ++ twoBytes o ++ twoBytes bs.length ++ bs
  | .request a o c => [0x83, byteOf a] ++ twoBytes 4 ++ twoBytes o ++ twoBytes c
  | .offer a o => [0x85, byteOf a] ++ twoBytes o.body.length ++ o.body

/-- Drive state, 14 bytes (R101, R156). -/
def State.driveStateBytes (s : State) (d : Drive) : List Byte :=
  let q := s.pos d
  [flagByte (s.record d).configured, byteOf q.actuator.code] ++ twoBytes (q.cyl.getD 0xFFFF) ++
  [byteOf (q.head.getD 0xFF), byteOf (conditionCode q.status)] ++ trackBytes (q.status.bind Condition.pointer) ++
  [flagByte q.angle.isSome, flagByte q.writeProtect, byteOf ((s.share d).owner.getD 0),
   portByte ((s.share d).hold.map Hold.port), flagByte (s.op d).isSome]

/-- Fault record, 15 bytes (R167, R156). -/
def FaultRecord.bytes (r : FaultRecord) : List Byte :=
  [byteOf ((r.kind.map FaultKind.code).getD 0), byteOf r.detail.code, byteOf r.drive.val] ++ trackBytes r.logical ++
  trackBytes r.physical ++ [byteOf r.record, byteOf r.retries, byteOf r.miss] ++ twoBytes r.residual ++
  [byteOf (conditionCode r.found)]

/-- The record READ FAULT RECORD returns to a port without a hold: kind none, other items absent or 0 (R169, log 27). -/
def FaultRecord.empty : FaultRecord :=
  { kind := none, detail := .none, drive := 0, logical := none, physical := none, record := 0, retries := 0, miss := 0,
    residual := 0, found := none }

/-- One type of the drive tables: loaded flag and the 16 parameter bytes, zero when not loaded (R31, R156). -/
def typeBytes (o : Option DriveType) : List Byte :=
  let t := o.getD DriveType.absent
  [flagByte o.isSome] ++ twoBytes t.dataCyls ++
  [byteOf t.altCyls, byteOf t.heads, byteOf t.sectors, byteOf t.lead, byteOf t.setup] ++ twoBytes t.stepTime ++
  [byteOf t.settleTime] ++ twoBytes t.capacity ++
  [byteOf t.retryBudget, byteOf t.missLimit, byteOf t.threshold, byteOf t.holdLimit]

/-- One drive record of the drive tables (R31, R156). -/
def DriveRecord.bytes (r : DriveRecord) : List Byte :=
  [flagByte r.configured, byteOf r.typeNo.val, flagByte r.writePermitted] ++ twoBytes r.cursor

/-- Drive tables, 108 bytes (R31, R156). -/
def State.driveTablesBytes (s : State) : List Byte :=
  s.types.toList.flatMap typeBytes ++ s.records.toList.flatMap DriveRecord.bytes

/-- One entry of the spare map, 12 bytes (R123, R156). -/
def SpareEntry.bytes (e : SpareEntry) : List Byte :=
  [byteOf e.drive.val] ++ trackBytes (some e.home) ++ trackBytes e.current ++ trackBytes e.pending ++
  [byteOf e.origin.code, if e.active then 1 else 2]

/-- The spare map's answer: the count, then up to 16 entries from the start place (R123). -/
def State.spareMapBytes (s : State) (start : Nat) : List Byte :=
  byteOf s.spareMap.length :: ((s.spareMap.drop (start - 1)).take 16).flatMap SpareEntry.bytes

/-- One entry of the suspect list, 10 bytes (R139, R156). -/
def Suspect.bytes (e : Suspect) : List Byte :=
  [byteOf e.drive.val] ++ trackBytes (some e.physical) ++ trackBytes (some e.logical) ++
  [byteOf e.count, byteOf e.lastKind.code, flagByte e.advised]

/-- The suspect list's answer (R139). -/
def State.suspectBytes (s : State) : List Byte :=
  byteOf s.suspects.length :: s.suspects.flatMap Suspect.bytes

/-- One port of the unit state (R187, R156). -/
def PortRec.stateBytes (r : PortRec) : List Byte :=
  [byteOf r.state.code, byteOf r.group,
   byteOf ((if r.maskStateChange then 2 else 0) + (if r.maskSpareAdvised then 1 else 0))]

/-- One path of the unit state: holder drive, kind, port; a FREE path is 0xFF, 0, 0 (R187, R156). -/
def pathBytes : Option PathHold → List Byte
  | none => [0xFF, 0, 0]
  | some h => [byteOf h.drive.val, if h.port.isSome then 2 else 1, portByte h.port]

/-- Operations in flight, drive d at bit value 2 to the power d (R156). -/
def State.inFlightByte (s : State) : Byte :=
  byteOf (allDrives.foldl (fun n d => n + if (s.op d).isSome then 2 ^ d.val else 0) 0)

/-- The last alternate result of the unit state; without one its bytes are 0 and its tracks absent (R187, R156, log 43). -/
def lastAltBytes : Option AltResult → List Byte
  | none => [0, 0, 0] ++ trackBytes none ++ trackBytes none ++ [0, 0, 0, 0, 0]
  | some a =>
    [1, byteOf a.order.code, byteOf a.drive.val] ++ trackBytes (some a.home) ++ trackBytes a.alternate ++
    [byteOf a.outcome.code, byteOf a.outcome.detail.code, a.flags] ++ twoBytes a.cursor

/-- Unit state (R187, R156). -/
def State.unitStateBytes (s : State) : List Byte :=
  s.ports.toList.flatMap PortRec.stateBytes ++ s.paths.toList.flatMap pathBytes ++ [s.inFlightByte] ++
  s.records.toList.flatMap (fun r => twoBytes r.cursor) ++ lastAltBytes s.lastAlt

end Sys2Proof.Machine
end

