-- ==== Sys2Proof/Machine/Operands.lean ====
section
/-! DEFINITION. What a command's operands name and which check they fail first: device addresses (R141), the items of the table
orders (R17, R22, R24), the condition of SEARCH (R85), a READ's span flag (R89). -/

namespace Sys2Proof

/-- The item numbers of R17's fields with the check of each, in item order. -/
def DriveType.checks (t : DriveType) : List (Nat × Bool) :=
  [(2, decide (64 ≤ t.dataCyls ∧ t.dataCyls ≤ 1000)), (3, decide (1 ≤ t.altCyls ∧ t.altCyls ≤ 16)),
   (4, decide (1 ≤ t.heads ∧ t.heads ≤ 24)), (5, decide (32 ≤ t.sectors ∧ t.sectors ≤ 128)),
   (6, decide (2 ≤ t.lead ∧ t.lead ≤ 15 ∧ 4 * t.lead ≤ t.sectors)), (7, decide (1 ≤ t.setup ∧ t.setup ≤ t.lead)),
   (8, decide (5 ≤ t.stepTime ∧ t.stepTime ≤ 500)), (9, decide (1 ≤ t.settleTime ∧ t.settleTime ≤ 40)),
   (10, decide (2048 ≤ t.capacity ∧ t.capacity ≤ 20480)), (11, decide (t.retryBudget ≤ 3)),
   (12, decide (1 ≤ t.missLimit ∧ t.missLimit ≤ 15)), (13, decide (1 ≤ t.threshold ∧ t.threshold ≤ 7)),
   (14, decide (1 ≤ t.holdLimit ∧ t.holdLimit ≤ 255))]

/-- The number of the first item whose check fails (R29). -/
def firstFailing (cs : List (Nat × Bool)) : Option Nat := (cs.find? fun c => !c.2).map Prod.fst

/-- The shape fields with their item numbers, each equal to the one already loaded or not (R18, R22 step 4). -/
def DriveType.shapeChecks (t old : DriveType) : List (Nat × Bool) :=
  [(2, decide (t.dataCyls = old.dataCyls)), (3, decide (t.altCyls = old.altCyls)), (4, decide (t.heads = old.heads)),
   (5, decide (t.sectors = old.sectors)), (10, decide (t.capacity = old.capacity))]

/-- The fields lie within the ranges of R17. -/
def DriveType.inRange (t : DriveType) : Bool := (firstFailing t.checks).isNone

end Sys2Proof

namespace Sys2Proof.Machine

open Sys2Proof

/-! ## Device addresses (R141) -/

/-- The window base, 0x00 to 0xF0 in steps of 0x10 (R140). -/
def PortRec.base (r : PortRec) : Nat := 16 * r.straps.window.val

/-- The address of a drive, or of the unit (offset 8), in the port's window (R141). -/
def PortRec.addressOf (r : PortRec) : Conn → Nat
  | .drive d => r.base + d.val
  | .unit => r.base + 8

/-- What a device address names in the port's window; `none` is an unanswered address (R141). -/
def PortRec.named (r : PortRec) (address : Nat) : Option Conn :=
  if address < r.base then none
  else if address = r.base + 8 then some .unit
  else (driveOf (address - r.base)).map Conn.drive

/-! ## LOAD DRIVE TYPE (R17, R22) -/

/-- A type number carried in a frame, when it is 0 to 3. -/
def typeNoOf (n : Nat) : Option TypeNo := if h : n < 4 then some ⟨n, h⟩ else none

/-! ## Other operands -/

/-- The condition of a SEARCH: EQ 1, HIGH-OR-EQ 2, HIGH 3 (R85, R156). -/
def searchCondOf : Nat → Option SearchCond
  | 1 => some .eq
  | 2 => some .highOrEq
  | 3 => some .high
  | _ => none

/-- The span flag: 1 is YES and 0 is NO (R156); another byte has no stated meaning and gives a free value (log 8). -/
def spanOf : Nat → Bool
  | 0 => false
  | 1 => true
  | n => Config.spanOfOtherByte n

/-- An enable or flag item: 1 or 0, otherwise none (R24, R179). -/
def flagOf : Nat → Option Bool
  | 0 => some false
  | 1 => some true
  | _ => none

/-- The key brought to n bytes and the argument of n bytes, compared as unsigned numbers (R86). -/
def keyMeets (c : SearchCond) (key argument : List Byte) : Bool :=
  let n := argument.length
  let k := numOfBytes ((key ++ List.replicate n 0).take n)
  let g := numOfBytes argument
  match c with
  | .eq => decide (k = g)
  | .highOrEq => decide (g ≤ k)
  | .high => decide (g < k)

end Sys2Proof.Machine
end

