-- ==== Sys2Proof/Machine/Notices.lean ====
section
/-! DEFINITION. Notice queues: posting, and what a TAKE of a notice does (chapter 10). -/

namespace Sys2Proof.Machine

open Sys2Proof

def Notice.isSpareAdvised : Notice → Bool
  | .spareAdvised _ _ => true
  | .deviceFree _ | .stateChange _ | .reserveBroken _ | .rescan => false

/-- The list without its oldest SPARE-ADVISED; `none` when it holds none. -/
def dropOldestSpareAdvised : List Notice → Option (List Notice)
  | [] => none
  | n :: rest => if n.isSpareAdvised then some rest else (dropOldestSpareAdvised rest).map (n :: ·)

/-- The same, passing over the head when it is under offer (R177, step 3). -/
def dropForNewcomer (underOffer : Bool) (q : List Notice) : Option (List Notice) :=
  match underOffer, q with
  | true, n :: rest => (dropOldestSpareAdvised rest).map (n :: ·)
  | true, [] => none
  | false, q => dropOldestSpareAdvised q

/-- What a queue becomes when a notice is posted to it, and whether the overflow flag becomes SET: the five steps of R177. -/
def enterQueue (q : List Notice) (underOffer : Bool) (n : Notice) : List Notice × Bool :=
  if n ∈ q then (q, false)
  else if q.length < 12 then (q ++ [n], false)
  else if n.isSpareAdvised then (q, false)
  else match dropForNewcomer underOffer q with
    | some q' => (q' ++ [n], false)
    | none => (q, true)

/-- The port is OFFERING a notice (R177). -/
def PortRec.offersNotice (r : PortRec) : Bool :=
  match r.offer with
  | some (.notice _, _) => true
  | some (.reconnect _, _) | some (.status _, _) | none => false

/-- A notice posted to a port (R177); never to a DISABLED port (R175). -/
def State.post (s : State) (p : Port) (n : Notice) : State :=
  if (s.port p).state = .disabled then s
  else
    let q := s.queue p
    let e := enterQueue q.notices (s.port p).offersNotice n
    (s.setQueue p { q with notices := e.1 }).modPort p fun r => { r with overflow := r.overflow || e.2 }

/-- The head notice leaves its queue at a TAKE; an emptied queue whose overflow flag is SET takes a RESCAN (R178, R181). -/
def State.removeHeadNotice (s : State) (p : Port) : State :=
  let q := s.queue p
  let rest := q.notices.tail
  if rest = [] ∧ (s.port p).overflow = true then
    (s.setQueue p { q with notices := [.rescan] }).modPort p fun r => { r with overflow := false }
  else s.setQueue p { q with notices := rest }

/-- STATE-CHANGE for d to each port that was IDLE or CONNECTED when the event was taken and whose mask enables it (R171,
R172; log 23). `before` is the state at that moment. -/
def State.postStateChange (s before : State) (d : Drive) : State :=
  s.forPorts fun s p =>
    let r := before.port p
    if (r.state = .idle ∨ r.state = .connected) ∧ r.maskStateChange = true then s.post p (.stateChange d) else s

/-- SPARE-ADVISED to the ports R137 names. -/
def State.postSpareAdvised (s : State) (d : Drive) (logical : Track) : State :=
  let owner := (s.share d).owner
  s.forPorts fun s p =>
    let r := s.port p
    let named : Bool :=
      match owner with
      | some g => decide (r.group = g ∧ r.state ≠ .disabled ∧ r.state ≠ .resetting)
      | none => decide (r.state = .idle ∨ r.state = .connected)
    if named && r.maskSpareAdvised then s.post p (.spareAdvised d logical) else s

end Sys2Proof.Machine
end

