-- ==== Sys2Proof/Machine/Sharing.lean ====
section
/-! DEFINITION. The sharing unit: admission, holds, owed sets and DEVICE-FREE (chapter 9). -/

namespace Sys2Proof.Machine

open Sys2Proof

/-! ## Owed sets (R161, R170) -/

def Sharing.owes (x : Sharing) (p : Port) : Option OwedMark := x.owed[p]

/-- d has a hold by a port other than p (R160, step 3). -/
def State.heldByOther (s : State) (d : Drive) (p : Port) : Bool :=
  match (s.share d).hold with
  | some h => decide (h.port ≠ p)
  | none => false

/-- d is reserved by a group other than p's present group (R160, step 4). -/
def State.reservedByOther (s : State) (d : Drive) (p : Port) : Bool :=
  match (s.share d).owner with
  | some g => decide (g ≠ (s.port p).group)
  | none => false

/-- A port in the owed set with this mark is admitted now (R170). -/
def State.admittedNow (s : State) (d : Drive) (p : Port) (m : OwedMark) : Bool :=
  match m with
  | .command => !s.heldByOther d p && !s.reservedByOther d p && (s.op d).isNone
  | .order => (s.op d).isNone

/-- The port leaves d's owed set. -/
def State.removeOwed (s : State) (d : Drive) (p : Port) : State :=
  s.modShare d fun x => { x with owed := x.owed.set p none }

/-- An answer of admission adds the port, marked COMMAND whatever mark it held (R161). -/
def State.oweCommand (s : State) (d : Drive) (p : Port) : State :=
  s.modShare d fun x => { x with owed := x.owed.set p (some .command) }

/-- A unit order's refusal adds the port marked ORDER; a port already in the set keeps its mark (R161). -/
def State.oweOrder (s : State) (d : Drive) (p : Port) : State :=
  s.modShare d fun x => { x with owed := x.owed.set p (some ((x.owes p).getD .order)) }

/-- The test of R170 for every port in d's owed set. -/
def State.owedTest (s : State) (d : Drive) : State :=
  s.forPorts fun s p =>
    match (s.share d).owes p with
    | some m => if s.admittedNow d p m then (s.removeOwed d p).post p (.deviceFree d) else s
    | none => s

/-- Every port in the owed set but `except` is given DEVICE-FREE without the test, and the set is emptied (R165, R171). -/
def State.freeAllOwed (s : State) (d : Drive) (except : Option Port) : State :=
  let s' := s.forPorts fun s p =>
    if ((s.share d).owes p).isSome ∧ except ≠ some p then s.post p (.deviceFree d) else s
  s'.modShare d fun x => { x with owed := Vector.replicate 4 none }

/-! ## Holds (R166, R168) -/

/-- A hold begins: the port, the fault record, and the timer at the hold limit of the drive's type (R166). -/
def State.beginHold (s : State) (d : Drive) (p : Port) (r : FaultRecord) : State :=
  s.modShare d fun x => { x with hold := some { port := p, timer := (s.typeOf d).holdLimit, record := r } }

/-- The hold goes, with its record and timer. -/
def State.dropHold (s : State) (d : Drive) : State := s.modShare d fun x => { x with hold := none }

/-- d is held by p. -/
def State.heldBy (s : State) (d : Drive) (p : Port) : Bool :=
  match (s.share d).hold with
  | some h => decide (h.port = p)
  | none => false

/-- The holding port's command that has passed admission ends the hold, and the test of R170 follows (R168). -/
def State.endOwnHold (s : State) (d : Drive) (p : Port) : State :=
  if s.heldBy d p then (s.dropHold d).owedTest d else s

/-- The hold timer has reached 0: the hold and its record end and the owed set is tested (R168). -/
def State.holdExpire (s : State) (d : Drive) : State :=
  match (s.share d).hold with
  | some h => if h.timer = 0 then (s.dropHold d).owedTest d else s
  | none => s

/-- The timer decreases by 1 at each INDEX MARK while the hold stands (R168). -/
def State.holdTick (s : State) (d : Drive) : State :=
  s.modShare d fun x => { x with hold := x.hold.map fun h => { h with timer := h.timer - 1 } }

/-! ## Admission (R160) -/

/-- Which steps of R160 a command is tested at. -/
inductive Steps where
  /-- steps 1 to 5 -/
  | all
  /-- RELEASE: steps 1, 2 and 5 -/
  | release
  /-- steps 1 and 2 -/
  | ready
  deriving DecidableEq, Repr

inductive Admission where
  | admitted
  | fault (k : FaultKind)
  | held (r : Reason)
  deriving DecidableEq, Repr

/-- Admission of a drive command from port p for drive d: the first condition met gives the answer (R160). -/
def State.admission (s : State) (d : Drive) (p : Port) (st : Steps) : Admission :=
  if (s.record d).configured = false then .fault .notConfigured
  else if (s.pos d).actuator = .notReady then .fault .notReady
  else if st = .all ∧ s.heldByOther d p = true then .held .hold
  else if st = .all ∧ s.reservedByOther d p = true then .held .reserved
  else if st ≠ .ready ∧ (s.op d).isSome = true then .held .busy
  else .admitted

/-- The steps at which READ FAULT RECORD is tested: 1 and 2 from the holding port, all from any other (R160). -/
def State.faultRecordSteps (s : State) (d : Drive) (p : Port) : Steps := if s.heldBy d p then .ready else .all

end Sys2Proof.Machine
end

