-- ==== Sys2Proof/Machine/Ports.lean ====
section
/-! DEFINITION. Port controllers: frames produced, the ends of connections and offers, paths held for a port (chapter 8, R74). -/

namespace Sys2Proof.Machine

open Sys2Proof

/-! ## The link and the buffer (R145, R152) -/

def OutFrame.isData : OutFrame → Bool
  | .data _ _ _ => true
  | .status _ _ _ | .request _ _ _ | .offer _ _ => false

def OutFrame.isOffer : OutFrame → Bool
  | .offer _ _ => true
  | .status _ _ _ | .request _ _ _ | .data _ _ _ => false

/-- A STATUS on the link that ends the connection as it leaves (R148). -/
def OutFrame.isEnding : OutFrame → Bool
  | .status _ _ e => e
  | .data _ _ _ | .request _ _ _ | .offer _ _ => false

/-- Slots of the buffer taken by outbound DATA frames that have not left (R152). -/
def PortRec.slots (r : PortRec) : Nat := (r.link.filter OutFrame.isData).length

/-- Where in the READ's transfer the DATA frames on the link end, the farthest of them; 0 without any (R90). -/
def PortRec.dataEnd (r : PortRec) : Nat :=
  r.link.foldl (fun m f => match f with
    | .data _ off bs => max m (off + bs.length)
    | .status _ _ _ | .request _ _ _ | .offer _ _ => m) 0

/-- The port buffer's frames, 0 to 2 (R140). -/
def PortRec.bufferCount (r : PortRec) : Nat := r.slots + r.held.length

/-- A STATUS that ends the connection has been produced and has not left. -/
def PortRec.ending (r : PortRec) : Bool := r.link.any OutFrame.isEnding

def State.push (s : State) (p : Port) (f : OutFrame) : State := s.modPort p fun r => { r with link := r.link ++ [f] }

/-- A STATUS frame with the address of a drive or of the unit in the port's window (R141). -/
def State.sendStatus (s : State) (p : Port) (c : Conn) (st : Status) (ends : Bool) : State :=
  s.push p (.status ((s.port p).addressOf c) st ends)

/-- Outbound DATA frames of the port discarded (R152). -/
def dropData (l : List OutFrame) : List OutFrame := l.filter fun f => !f.isData

/-- What stays on the link when a connection ends, by CLOSE, an expiry, PORT RESET or UNIT CLEAR, set aside, or as its ending
STATUS leaves (R148, R154, R188). The buffer's frames go. A STATUS already produced still leaves, and no longer ends anything (log
21); the port is then not connected any more, so it carries DISCONNECT, also where it was produced to let the connection stand
(R149; how R149 is read beside a later connection: log 59). A data request that has not left goes with its connection (model's
choice, log 75). -/
def afterConnection : List OutFrame → List OutFrame
  | [] => []
  | .status a st _ :: rest => .status a st.disc false :: afterConnection rest
  | .offer a o :: rest => .offer a o :: afterConnection rest
  | .data _ _ _ :: rest => afterConnection rest
  | .request _ _ _ :: rest => afterConnection rest

/-! ## Paths (R64, R74) -/

/-- Paths whose holder meets the test become FREE. -/
def State.freePaths (s : State) (held : PathHold → Bool) : State :=
  { s with paths := s.paths.map fun h => match h with
      | some x => if held x then none else some x
      | none => none }

/-- The path held for this port becomes FREE. -/
def State.freePathOfPort (s : State) (p : Port) : State := s.freePaths fun h => decide (h.port = some p)

/-- The path held by an INTERNAL grant of this drive becomes FREE. -/
def State.freeInternalPath (s : State) (d : Drive) : State :=
  s.freePaths fun h => decide (h.drive = d ∧ h.port = none)

/-- The operation of drive d holds path n: by an INTERNAL grant, or for the port that is offered its reconnection or that it is
connected on (R64, R68, R69). -/
def State.usesPath (s : State) (d : Drive) (n : PathNo) : Bool :=
  match s.path n with
  | some h =>
    decide (h.drive = d) &&
    match h.port with
    | none => true
    | some p =>
      decide ((s.port p).offer.map Prod.fst = some (.reconnect d)) || decide ((s.op d).bind Operation.conn = some p)
  | none => false

/-! ## Ends of connections and offers (R148, R150) -/

/-- A port that has ended a connection leaves the set of ports that deferred a pending status (R103). -/
def State.forgetDeferral (s : State) (p : Port) : State :=
  s.forDrives fun s d => s.modOp d fun o => { o with statusDeferred := o.statusDeferred.remove p }

/-- The port record without its connection: buffer emptied, requests and timer gone (R148), the link as afterConnection has it
(logs 21, 59 and 75). A port has no offer beside a connection (R142). -/
def PortRec.disconnected (r : PortRec) (st : PortState) : PortRec :=
  { r with state := st, conn := none, offer := none, link := afterConnection r.link, held := [], requests := [], idleTimer := none,
           answer := none, closing := false, draining := false, awaiting := false }

/-- The end of a connection on p (R148): the port takes state st, its path becomes FREE (R74), the presentation hold
becomes CLEAR (R176), and the port may be offered deferred statuses again (R103). -/
def State.endConnectionAs (s : State) (p : Port) (st : PortState) : State :=
  let s := (s.modPort p fun r => r.disconnected st).freePathOfPort p
  (s.setQueue p { s.queue p with held := false }).forgetDeferral p

/-- The end of a connection that leaves the port IDLE (R148). -/
def State.endConnection (s : State) (p : Port) : State := s.endConnectionAs p .idle

/-- An offer leaves the port IDLE; an OFFER frame that has not left is discarded (R150). -/
def PortRec.withoutOffer (r : PortRec) : PortRec :=
  { r with state := .idle, offer := none, link := r.link.filter fun f => !f.isOffer }

def State.dropOffer (s : State) (p : Port) : State := s.modPort p PortRec.withoutOffer

/-- The offer is about the operation of drive d (RECONNECT or STATUS). -/
def Offer.concerns (o : Offer) (d : Drive) : Bool :=
  match o with
  | .reconnect e | .status e => decide (e = d)
  | .notice _ => false

/-- Offers made for d's operation are withdrawn, and with a RECONNECT its path becomes FREE (R72, R75). -/
def State.withdrawOffersOf (s : State) (d : Drive) : State :=
  s.forPorts fun s p =>
    match (s.port p).offer with
    | some (o, _) => if o.concerns d then (s.dropOffer p).freePathOfPort p else s
    | none => s

/-! ## Answers in a connection with the unit address (R147, R148, R186) -/

/-- The unit idle timer is armed to run 250 ms from now (R148). -/
def State.armIdle (s : State) (p : Port) : State := s.modPort p fun r => { r with idleTimer := some (s.now + 250) }

/-- A STATUS in a unit-address connection: the connection stands and the timer is rearmed, or, after a CLOSE taken during
the order, the STATUS carries DISCONNECT and the connection ends as it leaves (R148). The 250 ms run from the production of
the STATUS (log 41). -/
def State.unitStatus (s : State) (p : Port) (st : Status) : State :=
  if (s.port p).closing then s.sendStatus p .unit st.disc true
  else (s.sendStatus p .unit st false).armIdle p

/-- FAULT COMMAND REJECT in a unit-address connection (R29, R186). -/
def State.unitReject (s : State) (p : Port) (residual : Nat) : State :=
  s.unitStatus p (.faultOf .commandReject .none residual)

/-- A STATUS that ends a drive connection, unless one that does is already on the link (R146). -/
def State.reply (s : State) (p : Port) (d : Drive) (st : Status) : State :=
  s.sendStatus p (.drive d) st.disc (!(s.port p).ending)

/-! ## The bytes of a state-reading answer (R152) -/

/-- DATA frames of at most 256 bytes with offsets from 0. -/
def answerFrames (address : Nat) : Nat → Nat → List Byte → List OutFrame
  | 0, _, _ => []
  | fuel + 1, off, bs =>
    if bs = [] then []
    else .data address off (bs.take 256) :: answerFrames address fuel (off + 256) (bs.drop 256)

/-- The DATA of a state-reading command or order, and DONE due when the buffer has drained (R145, R152). An answer has
at most 321 bytes, so two frames. The buffer is empty when it is formed; what no run leaves there goes (R152, log 56). -/
def State.answerData (s : State) (p : Port) (c : Conn) (bs : List Byte) : State :=
  s.modPort p fun r =>
    { r with held := [], link := dropData r.link ++ answerFrames (r.addressOf c) 2 0 bs,
             answer := some { status := .doneWith 0, found := none, resets := false } }

/-! ## RESERVE UNCONDITIONAL waiting for an operation's end (R165) -/

/-- Ports whose RESERVE UNCONDITIONAL of d waited for the operation's end receive DONE and DISCONNECT. -/
def State.answerWaiting (s : State) (d : Drive) : State :=
  s.forPorts fun s p =>
    let r := s.port p
    if r.awaiting = true ∧ r.conn = some (.drive d) then
      (s.modPort p fun r => { r with awaiting := false }).reply p d (.doneWith 0)
    else s

/-! ## The end of an operation (R77) -/

/-- The operation record is discarded. -/
def State.discardOp (s : State) (d : Drive) : State := s.setOp d none

/-- The operation ends: its record is discarded, the owed set is tested (R170) and a waiting RESERVE UNCONDITIONAL is
answered (R165). -/
def State.endOperation (s : State) (d : Drive) : State := ((s.discardOp d).owedTest d).answerWaiting d

/-- The end of an operation and the hold that begins with it, taken together (R166). -/
def State.endOperationWithHold (s : State) (d : Drive) (p : Port) (r : FaultRecord) : State :=
  (((s.discardOp d).beginHold d p r).owedTest d).answerWaiting d

/-- The fault record the sequencer supplies (R79, R167). -/
def Operation.faultRecord (o : Operation) (d : Drive) (k : FaultKind) (det : Detail) (residual : Nat)
    (found : Option Condition) : FaultRecord :=
  { kind := some k, detail := det, drive := d, logical := o.logical, physical := o.target,
    record := (o.current.map fun r => r.id.number).getD o.record, retries := o.retries, miss := o.miss,
    residual := residual, found := found }

/-- A drive command of the operation connected on p ends with FAULT: STATUS FAULT and DISCONNECT is produced, the
operation ends and, but for NOT READY, a hold by p begins as the STATUS is produced (R79, R166). The connection ends as the
STATUS leaves (R148, log 1). -/
def State.faultInConnection (s : State) (d : Drive) (p : Port) (o : Operation) (k : FaultKind) (det : Detail)
    (residual : Nat) (found : Option Condition) : State :=
  let s := s.modPort p fun r => { r with answer := none, held := [], requests := [] }
  let s := s.sendStatus p (.drive d) (Status.faultOf k det residual).disc true
  if k = .notReady then s.endOperation d
  else s.endOperationWithHold d p (o.faultRecord d k det residual found)

end Sys2Proof.Machine
end

