-- ==== Sys2Proof/Machine/Positioner.lean ====
section
/-! DEFINITION. Positioners: motion orders, deadlines, ready changes, the angular counter and slack (chapters 3 and 4). -/

namespace Sys2Proof.Machine

open Sys2Proof

/-! ## Orders (R35 to R40, R48) -/

/-- How far a positioning got with what it could do at once. -/
inductive Reach where
  /-- on the target cylinder with the target head selected -/
  | arrived
  /-- a motion order was sent -/
  | moving
  /-- the motion of an aborted operation runs to its end first (R39) -/
  | waiting
  /-- a motion order was refused by the unanswered count (R48) -/
  | noResponse
  deriving DecidableEq, Repr

/-- A motion order to a cylinder over a distance: deadline armed, track status UNKNOWN, the operation in flight its owner
(R36 to R39); refused while the unanswered count is 2 (R48). -/
def State.orderMotion (s : State) (d : Drive) (kind : Actuator) (cyl dist : Nat) : State × Reach :=
  if 2 ≤ (s.pos d).unanswered then (s, .noResponse)
  else
    (s.modPos d fun q =>
      { q with actuator := kind, cyl := none, motionTarget := some cyl, owned := true,
               deadline := some (s.now + (s.typeOf d).motionTime dist), status := none }, .moving)

/-- A recalibrate order; its deadline uses N + A (R37). -/
def State.orderRecalibrate (s : State) (d : Drive) : State × Reach :=
  let t := s.typeOf d
  s.orderMotion d .recalibrating 0 (t.dataCyls + t.altCyls)

/-- A head-select order: a different head makes the track status UNKNOWN (R16, R40). -/
def State.selectHead (s : State) (d : Drive) (h : Nat) : State :=
  if (s.pos d).head = some h then s else s.modPos d fun q => { q with head := some h, status := none }

/-- A positioning to a physical track, as far as it goes at once (R39, R40). An ON-CYLINDER positioner whose cylinder is
unknown, left by R48 after a misposition, begins with a recalibrate (log 12). NOT READY is not reached (R39). -/
def State.moveTo (s : State) (d : Drive) (t : Track) : State × Reach :=
  match (s.pos d).actuator with
  | .onCylinder =>
    match (s.pos d).cyl with
    | some c =>
      if c = t.cyl then (s.selectHead d t.head, .arrived)
      else s.orderMotion d .seeking t.cyl (distance t.cyl c)
    | none => s.orderRecalibrate d
  | .uncalibrated => s.orderRecalibrate d
  | .seeking | .recalibrating | .notReady => (s, .waiting)

/-! ## Ends of motion (R41 to R43) -/

/-- The outstanding motion ends in time on its target; with calibration void the drive is UNCALIBRATED instead (R41, R27). -/
def Positioner.motionDone (q : Positioner) : Positioner :=
  let q' := { q with deadline := none, motionTarget := none, owned := false, calVoid := false }
  if q.calVoid then { q' with actuator := .uncalibrated, cyl := none }
  else { q' with actuator := .onCylinder, cyl := q.motionTarget }

/-- A seek or recalibrate failure (R42, R43). -/
def Positioner.motionFailed (q : Positioner) : Positioner :=
  { q with actuator := .uncalibrated, cyl := none, deadline := none, motionTarget := none, owned := false,
           calVoid := false }

/-- The positioner after EQUIPMENT CHECK SEEK, RECALIBRATE or MISPOSITION (R47). -/
def Positioner.uncalibrate (q : Positioner) : Positioner :=
  { q with actuator := .uncalibrated, cyl := none, status := none, deadline := none }

/-- A motion order is outstanding and still waited for (R34). -/
def Positioner.inMotion (q : Positioner) : Bool :=
  decide (q.actuator = .seeking) || decide (q.actuator = .recalibrating)

/-! ## Ready changes and UNIT CLEAR (R50, R51, R53, R27) -/

/-- READY GAINED: UNCALIBRATED, head 0 (R51). -/
def Positioner.readyGained (q : Positioner) : Positioner :=
  { q with actuator := .uncalibrated, cyl := none, head := some 0, status := none, angle := none, unanswered := 0 }

/-- A position as found at power-on (R12, R51). -/
def Positioner.powerOn (l : Level) : Positioner :=
  if l.ready then { Positioner.notReady.readyGained with writeProtect := l.writeProtect } else Positioner.notReady

/-- UNIT CLEAR at a positioner (R53). -/
def Positioner.clear (q : Positioner) : Positioner :=
  let q' := { q with status := none, owned := false, motionTarget := none, deadline := none, calVoid := false }
  if q.inMotion then { q' with actuator := .uncalibrated, cyl := none, unanswered := min 2 (q.unanswered + 1) } else q'

/-- A load that changes the drive's type, at the positioner (R27). -/
def Positioner.retype (q : Positioner) : Positioner :=
  match q.actuator with
  | .notReady => { q with angle := none }
  | .uncalibrated => { q with angle := none }
  | .onCylinder => { q with actuator := .uncalibrated, cyl := none, angle := none }
  | .seeking | .recalibrating => { q with calVoid := true, angle := none }

/-! ## Rotation (R55, R57) -/

/-- The counter after a SECTOR MARK: (a + 1) mod S (R55); without a loaded type there is no S and the value is free (log 7). -/
def nextAngle (t : Option DriveType) (a : Nat) : Nat :=
  match t with
  | some t => (a + 1) % t.sectors
  | none => Config.counterWithoutType a

/-- SECTOR MARK at the angular counter (R55). -/
def State.sectorPasses (s : State) (d : Drive) : State :=
  s.modPos d fun q => { q with angle := q.angle.map (nextAngle (s.loadedType d)) }

/-- INDEX MARK at the angular counter (R55). -/
def State.indexPasses (s : State) (d : Drive) : State := s.modPos d fun q => { q with angle := some 0 }

/-- The request sector r = (o + S − L) mod S (R57). -/
def requestSector (t : DriveType) (o : Nat) : Nat := (o + t.sectors - t.lead) % t.sectors

/-- The slack s = (o + S − a) mod S (R57). -/
def slackAt (t : DriveType) (o a : Nat) : Nat := (o + t.sectors - a) % t.sectors

/-- The slack of an orientation sector, when the counter is known (R57). -/
def State.slack (s : State) (d : Drive) (o : Nat) : Option Nat := (s.pos d).angle.map (slackAt (s.typeOf d) o)

/-- The track the drive has selected, when known (R15). -/
def Positioner.selected (q : Positioner) : Option Track :=
  match q.cyl, q.head with
  | some c, some h => some { cyl := c, head := h }
  | _, _ => none

/-- The track status after a home field read on the selected track: the condition at the selected track's own address,
UNKNOWN otherwise (R15). -/
def Positioner.homeRead (q : Positioner) (content : Option HomeField) : Positioner :=
  match content with
  | some f => { q with status := if q.selected = some f.address then some f.condition else none }
  | none => { q with status := none }

/-- The track status after a home field written: the condition written, or UNKNOWN after a write check, when the field is the
selected track's; a field written on another track says nothing of the selected one (R15). -/
def Positioner.homeWritten (q : Positioner) (f : HomeField) (good : Bool) : Positioner :=
  if q.selected = some f.address then { q with status := if good then some f.condition else none } else q

/-! ## Field arming (R2, R10, R13) -/

/-- Marks of the drive since the mark at which a field in sector k was reached (R2, R11). -/
def marksPast (t : DriveType) (a k : Nat) : Nat := (a + t.sectors - k) % t.sectors

/-- The read or write armed `armed` marks ago acts on the field that starts at byte p and that last passed the head: it was
armed at or before the mark at which that field was reached (R2). With the counter unknown there is no saying (log 6). -/
def State.inTimeAt (s : State) (d : Drive) (armed p : Nat) : Bool :=
  match (s.pos d).angle with
  | some a => decide (marksPast (s.typeOf d) a ((s.typeOf d).sectorOf p) < armed)
  | none => true

/-- The same for what the operation has armed. -/
def State.inTime (s : State) (d : Drive) (o : Operation) (p : Nat) : Bool := s.inTimeAt d o.marksSince p

/-- A read or write is armed now (R2). -/
def Operation.arm (o : Operation) : Operation := { o with marksSince := 0 }

end Sys2Proof.Machine
end

