-- ==== Sys2Proof/Machine/Sparing.lean ====
section
/-! DEFINITION. The spare map and the suspect list: look-ups, translation, learning and updates (chapters 6 and 7). -/

namespace Sys2Proof.Machine

open Sys2Proof

/-! ## The spare map (R106, R107) -/

/-- The entry is the one of this drive and home track. -/
def SpareEntry.isFor (e : SpareEntry) (d : Drive) (t : Track) : Bool := decide (e.drive = d) && decide (e.home = t)

/-- The entry holds this physical track as current or pending alternate. -/
def SpareEntry.holds (e : SpareEntry) (q : Track) : Bool := decide (e.current = some q) || decide (e.pending = some q)

/-- The entry of drive d for home track t. -/
def State.entryFor (s : State) (d : Drive) (t : Track) : Option SpareEntry := s.spareMap.find? (·.isFor d t)

/-- The entry of d for t changed in its place (R107). -/
def State.modEntry (s : State) (d : Drive) (t : Track) (f : SpareEntry → SpareEntry) : State :=
  { s with spareMap := s.spareMap.map fun e => if e.isFor d t then f e else e }

/-- The entry of d for t deleted and the gap closed (R107). -/
def State.deleteEntry (s : State) (d : Drive) (t : Track) : State :=
  { s with spareMap := s.spareMap.filter fun e => !e.isFor d t }

/-- A new entry joins at the end (R107). -/
def State.addEntry (s : State) (e : SpareEntry) : State := { s with spareMap := s.spareMap ++ [e] }

/-- Every entry of d becomes STALE in its place (R108). -/
def State.staleEntries (s : State) (d : Drive) : State :=
  { s with spareMap := s.spareMap.map fun e => if e.drive = d then { e with active := false } else e }

/-- Every entry of d is deleted (R26). -/
def State.deleteEntriesOf (s : State) (d : Drive) : State :=
  { s with spareMap := s.spareMap.filter fun e => !decide (e.drive = d) }

/-- The track is the current or pending alternate of an entry of d other than t's own (R111, step 2). -/
def State.heldElsewhere (s : State) (d : Drive) (t q : Track) : Bool :=
  s.spareMap.any fun e => decide (e.drive = d) && !decide (e.home = t) && e.holds q

/-- The two tracks lie where an entry of the configured drive d has them: its home track on a data cylinder, its alternate on an
alternate cylinder (R107). -/
def State.places (s : State) (d : Drive) (home alternate : Track) : Bool :=
  (s.record d).configured && (s.typeOf d).isHome home && (s.typeOf d).isAlternate alternate

/-- The track is the current alternate of some entry of d (R126). -/
def State.isCurrentAlternate (s : State) (d : Drive) (q : Track) : Bool :=
  s.spareMap.any fun e => decide (e.drive = d) && decide (e.current = some q)

/-- An abort of the alternate operation on d's home track clears the pending alternate, and removes the entry that the
operation has made fresh (R134, R108). -/
def State.undoPending (s : State) (d : Drive) (home : Track) (fresh : Bool) : State :=
  if fresh then s.deleteEntry d home else s.modEntry d home fun e => { e with pending := none }

/-- A translation: physical target, expected home condition, and the home track of the entry used (R109). -/
structure Translation where
  target : Track
  expected : Condition
  entry : Option Track
  deriving DecidableEq, Repr

/-- Translation of a logical track (R109). -/
def State.translate (s : State) (d : Drive) (t : Track) : Translation :=
  match s.entryFor d t with
  | some e =>
    match e.active, e.current with
    | true, some q => { target := q, expected := .alternate t, entry := some t }
    | _, _ => { target := t, expected := .good, entry := some t }
  | none => { target := t, expected := .good, entry := none }

/-! ## Home verification (R110, R111, R113) -/

inductive Verdict where
  | verified
  /-- learning, cases 3 to 5: the DEFECTIVE home field points to this track -/
  | learn (p : Track)
  | conflict (det : Detail)
  deriving DecidableEq, Repr

/-- What verification of logical track t makes of a condition found, read good at its own address: the table of R110 and
steps 1 and 2 of R111. -/
def State.verdict (s : State) (d : Drive) (t : Track) (expected found : Condition) : Verdict :=
  match expected with
  | .alternate _ => if found = expected then .verified else .conflict .alternateCondition
  | .good | .defective _ | .freeAlternate | .retired =>
    match found with
    | .good => .verified
    | .defective p =>
      if (s.typeOf d).isAlternate p = false then .conflict .pointerRange
      else if s.heldElsewhere d t p = true then .conflict .pointerHeld
      else .learn p
    | .freeAlternate | .alternate _ | .retired => .conflict .homeCondition

/-- The map after learning that t's home field points to p: the entry becomes ACTIVE with p, origin LEARNED; or a new entry
joins when the map has room (R111, steps 3 to 5). -/
def State.learn (s : State) (d : Drive) (t p : Track) : State :=
  match s.entryFor d t with
  | some _ => s.modEntry d t fun e => { e with active := true, current := some p, origin := .learned }
  | none =>
    if s.spareMap.length < 96 then
      s.addEntry { drive := d, home := t, current := some p, pending := none, origin := .learned, active := true }
    else s

/-- A STALE entry used for a home track found GOOD is deleted (R110). -/
def State.confirmGood (s : State) (d : Drive) (t : Track) : State :=
  match s.entryFor d t with
  | some e => if e.active then s else s.deleteEntry d t
  | none => s

/-! ## The suspect list (R135 to R138) -/

def Suspect.isFor (e : Suspect) (d : Drive) (phys : Track) : Bool := decide (e.drive = d) && decide (e.physical = phys)

/-- The entry an update leaves at the front, before the threshold is compared (R136). -/
def suspectFront (l : List Suspect) (d : Drive) (phys logical : Track) (k : FaultKind) : Suspect :=
  match l.find? (·.isFor d phys) with
  | some e => { e with count := min 15 (e.count + 1), logical := logical, lastKind := k }
  | none => { drive := d, physical := phys, logical := logical, count := 1, lastKind := k, advised := false }

/-- The other entries after an update: the updated one taken out, or the last removed from a full list (R136). -/
def suspectRest (l : List Suspect) (d : Drive) (phys : Track) : List Suspect :=
  match l.find? (·.isFor d phys) with
  | some _ => l.filter fun e => !e.isFor d phys
  | none => l.take 31

/-- One update of the suspect list, with SPARE-ADVISED when the count reaches the sparing threshold (R136, R137). Where the
drive's record names no loaded type there is no threshold, and the model takes 0, so that the update advises (log 40). -/
def State.suspectUpdate (s : State) (d : Drive) (phys logical : Track) (k : FaultKind) : State :=
  let e := suspectFront s.suspects d phys logical k
  let rest := suspectRest s.suspects d phys
  if (s.typeOf d).threshold ≤ e.count ∧ e.advised = false then
    ({ s with suspects := { e with advised := true } :: rest } : State).postSpareAdvised d logical
  else { s with suspects := e :: rest }

/-- The drive's entries for these physical tracks removed (R138). -/
def State.removeSuspects (s : State) (d : Drive) (tracks : List Track) : State :=
  { s with suspects := s.suspects.filter fun e => !(decide (e.drive = d) && tracks.contains e.physical) }

/-- Every entry of d removed (R138). -/
def State.removeSuspectsOf (s : State) (d : Drive) : State :=
  { s with suspects := s.suspects.filter fun e => !decide (e.drive = d) }

/-- A field check met by the operation on its physical target: the first one on that track sends one update (R96).
Where the event also ends the operation, this comes first, so SPARE-ADVISED stands before DEVICE-FREE in a port's queue (model's
choice, log 60). -/
def State.reportCheck (s : State) (d : Drive) (k : FaultKind) : State :=
  match s.op d with
  | some o =>
    match o.target with
    | some phys =>
      if phys ∈ o.reported then s
      else (s.modOp d fun o => { o with reported := phys :: o.reported }).suspectUpdate d phys (o.logical.getD phys) k
    | none => s
  | none => s

end Sys2Proof.Machine
end

