-- ==== Sys2Proof/Machine/Operations.lean ====
section
/-! DEFINITION. Operations on a drive while disconnected: orientations, pending status, positioning, recovery, home
verification, the alternate operations and aborts (chapters 3, 5, 6 and 7). -/

namespace Sys2Proof.Machine

open Sys2Proof

/-! ## Orientations (R56, R58, R62) -/

/-- An orientation as it is handed to the positioner (R58). -/
def Orientation.handed (external : Bool) (sector : Nat) : Orientation :=
  { external := external, sector := sector, req := .dormant, windowOpen := false, later := false,
    deferred := PortSet.none, tested := false }

/-- The next field at hand starts with no reread made and none awaited (R95). -/
def Operation.newField (o : Operation) : Operation := { o with rereads := 0, rereadDue := false }

/-- The INTERNAL orientation for a read of the home field (R56, R110). -/
def State.handHomeRead (s : State) (d : Drive) : State :=
  s.modOp d fun o => { o.newField with work := .readHome, orient := some (Orientation.handed false 0) }

/-- The INTERNAL orientation for a write of the home field (R124, R127). -/
def State.handHomeWrite (s : State) (d : Drive) (f : HomeField) : State :=
  s.modOp d fun o => { o with work := .writeHome f, orient := some (Orientation.handed false 0) }

/-- The EXTERNAL orientation for the host: LOCATE's sector governs the first reconnection, later ones use 0 (R56). -/
def State.handReconnect (s : State) (d : Drive) : State :=
  s.modOp d fun o =>
    { o.newField with work := .reconnect, orient := some (Orientation.handed true (if o.reconnected then 0 else o.sector)) }

/-! ## Pending status (R102) -/

/-- The residual an operation set aside in a READ or WRITE holds: byte count less bytes accounted, otherwise 0 (R102). -/
def Operation.pendingResidual (o : Operation) : Nat :=
  match o.cmd with
  | some (.read _) | some (.write _) => o.byteCount - o.accounted
  | some (.locate _) | some (.search _ _ _) | some (.format _) | some .driveState | none => 0

/-- The operation ends while disconnected and keeps a pending status; its path and orientation are given up (R102). -/
def State.keepPending (s : State) (d : Drive) (st : Status) (r : Option FaultRecord) : State :=
  (s.modOp d fun o =>
    { o with work := .ended, orient := none, pending := some { status := st, record := r },
             statusDeferred := PortSet.none }).freeInternalPath d

/-- A drive command's FAULT kept as a pending status with its fault record (R102, R114). -/
def State.pendingFault (s : State) (d : Drive) (k : FaultKind) (det : Detail) (found : Option Condition) : State :=
  match s.op d with
  | some o =>
    let res := o.pendingResidual
    s.keepPending d (Status.faultOf k det res).disc (some (o.faultRecord d k det res found))
  | none => s

/-! ## The end of an alternate operation (R130) -/

/-- The alternate that ASSIGN ALTERNATE has committed: the current alternate that the map holds for the home track once COMMIT
has been made; an entry removed by an abort has none (R129, R130, R134). -/
def State.committedAlternate (s : State) (d : Drive) (home : Track) (a : AltOp) : Option Track :=
  if a.step = .commit then (s.entryFor d home).bind SpareEntry.current else none

/-- The result an alternate operation ends with (R130): the alternate is the committed one (ASSIGN) or the restored
entry's (RESTORE), which is given also where RESTORE TRACK has restored nothing (model's choice, log 54). -/
def State.altResult (s : State) (d : Drive) (o : Operation) (a : AltOp) (out : AltOutcome) : AltResult :=
  { order := if o.kind = .restoreTrack then .restore else .assign
    drive := d
    home := o.logical.getD { cyl := 0, head := 0 }
    alternate := if o.kind = .restoreTrack then a.old else s.committedAlternate d (o.logical.getD { cyl := 0, head := 0 }) a
    outcome := out
    marked := a.marked
    retired := a.retired
    cursor := (s.record d).cursor }

/-- No port can take the status: the issuer claim is LOST and the operation's group is 0 or carried by no port (R130). -/
def State.unclaimable (s : State) (o : Operation) (a : AltOp) : Bool :=
  !a.issuerHeld && (decide (o.group = 0) || !(allPorts.any fun p => decide ((s.port p).group = o.group)))

/-- The end without waiting for a port, when no port can take the pending status of an alternate operation (R130). -/
def State.dropUnclaimed (s : State) (d : Drive) : State :=
  match s.op d with
  | some o =>
    match o.alt, o.pending with
    | some a, some _ => if s.unclaimable o a then (s.withdrawOffersOf d).endOperation d else s
    | _, _ => s
  | none => s

/-- The first fault met is kept (R124). -/
def AltOp.meets (a : AltOp) (k : FaultKind) (det : Detail) : AltOp := { a with firstFault := a.firstFault <|> some (k, det) }

/-- The record of an alternate operation as it ends: a fault that ends it is the first fault where none was met before (R124). -/
def AltOp.ended (a : AltOp) (out : AltOutcome) : AltOp :=
  match out with
  | .fault k det => a.meets k det
  | .done | .aborted => a

def State.modAlt (s : State) (d : Drive) (f : AltOp → AltOp) : State := s.modOp d fun o => { o with alt := o.alt.map f }

/-- An alternate operation ends by completion or by a fault: first fault, last alternate result and pending status (R124, R130,
R102). -/
def State.endAlternate (s : State) (d : Drive) (out : AltOutcome) : State :=
  match s.op d with
  | some o =>
    match o.alt with
    | some a =>
      let res := s.altResult d o a out
      let st : Status :=
        match out with
        | .fault k det => { (Status.faultOf k det 0).disc with alt := some res }
        | .done | .aborted => { (Status.doneWith 0).disc with alt := some res }
      (((({ s with lastAlt := some res } : State).modAlt d fun a => a.ended out).keepPending d st none)).dropUnclaimed d
    | none => s
  | none => s

/-- The home track of an alternate operation. -/
def Operation.home (o : Operation) : Track := o.logical.getD { cyl := 0, head := 0 }

/-- The end of ASSIGN ALTERNATE after COMMIT and of RESTORE TRACK after RETIRE-ALT: suspect entries removed, a restored
entry deleted, the result DONE or the first fault (R129, R131, R132). -/
def State.finishAlternate (s : State) (d : Drive) : State :=
  match s.op d with
  | some o =>
    match o.alt with
    | some a =>
      let s := s.removeSuspects d (o.home :: a.old.toList)
      let s := if o.kind = .restoreTrack then s.deleteEntry d o.home else s
      s.endAlternate d (match a.firstFault with | some (k, det) => .fault k det | none => .done)
    | none => s
  | none => s

/-- The first fault met is kept (R124). -/
def State.noteFirstFault (s : State) (d : Drive) (k : FaultKind) (det : Detail) : State :=
  s.modAlt d fun a => a.meets k det

/-- Q is positioned to, to be read and retired: at COMMIT or RETIRE-ALT (R129, R131). Without an answer from the drive it
is left alone (R129, R132). -/
def State.goRetire (s : State) (d : Drive) (q : Track) : State :=
  let s := s.modOp d fun o => { o with target := some q, work := .positioning }
  match s.moveTo d q with
  | (s, .arrived) => s.handHomeRead d
  | (s, .moving) | (s, .waiting) => s
  | (s, .noResponse) =>
    ((s.noteFirstFault d .equipmentCheck .noResponse).modAlt d fun a => { a with retired := some false }).finishAlternate d

/-- COMMIT (R129): the pending alternate becomes current, then a re-spare retires its old alternate, unless the positioner
is UNCALIBRATED after an EQUIPMENT CHECK in this operation. -/
def State.commit (s : State) (d : Drive) : State :=
  match s.op d with
  | some o =>
    match o.alt with
    | some a =>
      let s := s.modEntry d o.home fun e =>
        { e with current := e.pending, pending := none, origin := .assigned, active := true }
      let s := s.modAlt d fun a => { a with step := .commit }
      match a.old with
      | none => s.finishAlternate d
      | some q =>
        let failed : Bool := match a.firstFault with
          | some (k, _) => decide (k = .equipmentCheck)
          | none => false
        if failed = true ∧ (s.pos d).actuator = .uncalibrated then
          (s.modAlt d fun a => { a with retired := some false }).finishAlternate d
        else s.goRetire d q
    | none => s
  | none => s

/-- The home track is not marked, with this fault, and COMMIT follows (R128). -/
def State.homeUnmarked (s : State) (d : Drive) (k : FaultKind) (det : Detail) : State :=
  ((s.noteFirstFault d k det).modAlt d fun a => { a with marked := some false }).commit d

/-- The write of MARK-HOME is requested (R128). -/
def State.requestMarkHome (s : State) (d : Drive) : State :=
  match s.op d with
  | some o =>
    match o.alt.bind AltOp.candidate with
    | some c => s.handHomeWrite d { address := o.home, condition := .defective c }
    | none => s
  | none => s

/-- MARK-HOME begins: the operation positions to the home track (R128). -/
def State.markHome (s : State) (d : Drive) : State :=
  match s.op d with
  | some o =>
    let s := (s.modAlt d fun a => { a with step := .markHome }).modOp d fun o' =>
      { o' with target := some o.home, work := .positioning }
    match s.moveTo d o.home with
    | (s, .arrived) => if (s.pos d).status = none then s.handHomeRead d else s.requestMarkHome d
    | (s, .moving) | (s, .waiting) => s
    | (s, .noResponse) => s.homeUnmarked d .equipmentCheck .noResponse
  | none => s

/-- A positioning failure of an alternate operation with the recovery spent (or a recalibrate failure, or no response),
by the step it stands at (R126, R128, R129, R132). -/
def State.altPositioningFault (s : State) (d : Drive) (det : Detail) : State :=
  match (s.op d).bind Operation.alt with
  | some a =>
    match a.step with
    | .pick | .probe | .markAlt | .approach | .rewriteHome => s.endAlternate d (.fault .equipmentCheck det)
    | .markHome => s.homeUnmarked d .equipmentCheck det
    | .commit | .retireAlt =>
      ((s.noteFirstFault d .equipmentCheck det).modAlt d fun a => { a with retired := some false }).finishAlternate d
  | none => s

/-- The operation meets EQUIPMENT CHECK with this detail (R47). -/
def State.equipmentCheck (s : State) (d : Drive) (det : Detail) : State :=
  match s.op d with
  | some o => if o.alt.isSome then s.altPositioningFault d det else s.pendingFault d .equipmentCheck det none
  | none => s

/-! ## PICK, PROBE and MARK-ALT (R126, R127) -/

/-- The candidate becomes the pending alternate of the home track's entry, or of a fresh one at the end of the map (R127). PICK
has seen that no entry holds the candidate (R126), and what the map holds while the operation is in flight is its own to
change: that no two entries share a home track or an alternate, and that both lie in their places (R107), is tested again here,
and a map in which it would not be so stays (log 56). -/
def State.takePending (s : State) (d : Drive) (home c : Track) (hasEntry : Bool) : State :=
  if s.heldElsewhere d home c = true ∨ s.places d home c = false then s
  else if hasEntry then s.modEntry d home fun e => { e with pending := some c, active := true }
  else if (s.entryFor d home).isSome then s
  else s.addEntry { drive := d, home := home, current := none, pending := some c, origin := .assigned, active := true }

/-- MARK-ALT begins: the cursor passes the candidate, the candidate becomes the entry's pending alternate, the write is
requested and the write point is PASSED; or MAP FULL (R127). -/
def State.markAlt (s : State) (d : Drive) : State :=
  match s.op d with
  | some o =>
    match o.alt, o.alt.bind AltOp.candidate with
    | some a, some c =>
      if a.hasEntry = false ∧ 96 ≤ s.spareMap.length then
        (s.modAlt d fun a => { a with step := .markAlt }).endAlternate d (.fault .mapFull .none)
      else
        let s := s.setRecord d { s.record d with cursor := (s.record d).cursor + 1 }
        let s := (s.takePending d o.home c a.hasEntry).modAlt d fun a' =>
          { a' with step := .markAlt, hasEntry := true, fresh := !a.hasEntry, writePassed := true }
        s.handHomeWrite d { address := c, condition := .alternate o.home }
    | _, _ => s
  | none => s

/-- A skip: the cursor and the tried count rise by 1 (R126). -/
def State.skipCandidate (s : State) (d : Drive) : State :=
  (s.setRecord d { s.record d with cursor := (s.record d).cursor + 1 }).modAlt d fun a => { a with tried := a.tried + 1 }

/-- PICK, with the skips that need no seek and the arrivals that need no read (R126). The track at the cursor is the candidate,
also one that is skipped at once (R124, R126); with eight tried no step back to PICK is made. The fuel bounds the candidates
tried in one step; a ninth is never picked. -/
def State.pick (s : State) (d : Drive) : Nat → State
  | 0 => s.endAlternate d (.fault .noAlternate .skipLimit)
  | fuel + 1 =>
    match (s.op d).bind Operation.alt with
    | none => s
    | some a =>
      let t := s.typeOf d
      let cursor := (s.record d).cursor
      let back := s.modAlt d fun a => { a with step := .pick }
      if 8 ≤ a.tried then s.endAlternate d (.fault .noAlternate .skipLimit)
      else if t.alternates ≤ cursor then back.endAlternate d (.fault .noAlternate .exhausted)
      else
        let c := t.alternateAt cursor
        let s := back.modAlt d fun a => { a with candidate := some c }
        if s.isCurrentAlternate d c then (s.skipCandidate d).pick d fuel
        else
          let s := (s.modAlt d fun a => { a with step := .probe }).modOp d fun o =>
            { o with target := some c, work := .positioning }
          match s.moveTo d c with
          | (s, .arrived) =>
            match (s.pos d).status with
            | none => s.handHomeRead d
            | some .freeAlternate => s.markAlt d
            | some _ => (s.skipCandidate d).pick d fuel
          | (s, .moving) | (s, .waiting) => s
          | (s, .noResponse) => s.endAlternate d (.fault .equipmentCheck .noResponse)

/-- PICK, or the return to it after a skip (R126). -/
def State.beginPick (s : State) (d : Drive) : State := s.pick d 9

/-- PROBE's judgement of the candidate's home field; `none` is a field check (R126). -/
def State.probe (s : State) (d : Drive) (found : Option Condition) : State :=
  match found with
  | some .freeAlternate => s.markAlt d
  | some .good | some (.defective _) | some (.alternate _) | some .retired | none => (s.skipCandidate d).beginPick d

/-! ## RESTORE TRACK (R131) -/

/-- REWRITE-HOME begins; the write point is PASSED (R131). -/
def State.rewriteHome (s : State) (d : Drive) : State :=
  match s.op d with
  | some o =>
    (s.modAlt d fun a => { a with step := .rewriteHome, writePassed := true }).handHomeWrite d
      { address := o.home, condition := .good }
  | none => s

/-- RETIRE-ALT begins (R131). -/
def State.retireAlt (s : State) (d : Drive) : State :=
  match (s.op d).bind Operation.alt with
  | some a =>
    let s := s.modAlt d fun a => { a with step := .retireAlt }
    match a.old with
    | some q => s.goRetire d q
    | none => s.finishAlternate d
  | none => s

/-- The alternate's home field was read for its retirement: ALTERNATE pointing to the home track is followed by the write
of RETIRED, any other finding leaves it alone (R129, R131). -/
def State.judgeRetire (s : State) (d : Drive) (found : Option Condition) : State :=
  match s.op d with
  | some o =>
    match o.target with
    | some q =>
      if found = some (.alternate o.home) then s.handHomeWrite d { address := q, condition := .retired }
      else (s.modAlt d fun a => { a with retired := some false }).finishAlternate d
    | none => s
  | none => s

/-- The outcome of a home-field write of an alternate operation, by step (R127 to R131). A write that write protect keeps
from being made has the outcome of a write check (R124). -/
def State.altWritten (s : State) (d : Drive) (good : Bool) : State :=
  match s.op d with
  | some o =>
    match o.alt with
    | some a =>
      match a.step with
      | .markAlt =>
        if good then s.markHome d
        else (s.undoPending d o.home a.fresh).endAlternate d (.fault .dataCheck .altUnmarked)
      | .markHome =>
        if good then (s.modAlt d fun a => { a with marked := some true }).commit d
        else s.homeUnmarked d .dataCheck .homeUnmarked
      | .rewriteHome =>
        if good then (s.modAlt d fun a => { a with marked := some true }).retireAlt d
        else (s.modAlt d fun a => { a with marked := some false }).endAlternate d (.fault .dataCheck .homeUnmarked)
      | .commit | .retireAlt => (s.modAlt d fun a => { a with retired := some good }).finishAlternate d
      | .pick | .probe | .approach => s
    | none => s
  | none => s

/-- A home field read of an alternate operation at its step; `none` is a field check, taken at once as unreadable (R124). -/
def State.altHomeRead (s : State) (d : Drive) (found : Option Condition) : State :=
  match (s.op d).bind Operation.alt with
  | some a =>
    match a.step with
    | .pick | .probe => s.probe d found
    | .markHome => s.requestMarkHome d
    | .commit | .retireAlt => s.judgeRetire d found
    | .approach => s.rewriteHome d
    | .markAlt | .rewriteHome => s
  | none => s

/-! ## Positioning and home verification of the drive commands (R39, R41, R110, R111) -/

/-- The operation positions again to its physical target after learning; on arrival the home field is read (R111). -/
def State.reposition (s : State) (d : Drive) (t : Track) : State :=
  let s := s.modOp d fun o => { o with work := .positioning }
  match s.moveTo d t with
  | (s, .arrived) => s.handHomeRead d
  | (s, .moving) | (s, .waiting) => s
  | (s, .noResponse) => s.equipmentCheck d .noResponse

/-- Learning in the operation record and the map: the operation takes P as its target and ALTERNATE with pointer T as its
expected condition (R111, R112). The places of R107 are tested again (log 56). -/
def State.learnInOp (s : State) (d : Drive) (t p : Track) : State :=
  let s := if s.places d t p then s.learn d t p else s
  s.modOp d fun o =>
    { o with target := some p, expected := some (.alternate t), entry := (s.entryFor d t).map SpareEntry.home }

/-- ALTERNATE-CONDITION makes the entry the target came from STALE; no other conflict changes the map (R113). -/
def State.noteConflict (s : State) (d : Drive) (det : Detail) : State :=
  match det, (s.op d).bind Operation.entry with
  | .alternateCondition, some t => s.modEntry d t fun e => { e with active := false }
  | _, _ => s

/-- The verdict on a condition found for the operation's logical track. -/
def State.opVerdict (s : State) (d : Drive) (o : Operation) (found : Condition) : Verdict :=
  s.verdict d o.home (o.expected.getD .good) found

/-- Home verification of a disconnected operation (R110, R111, R114). -/
def State.judgeHome (s : State) (d : Drive) (found : Condition) : State :=
  match s.op d with
  | some o =>
    match s.opVerdict d o found with
    | .verified => (if o.expected = some .good then s.confirmGood d o.home else s).handReconnect d
    | .learn p => (s.learnInOp d o.home p).reposition d p
    | .conflict det => (s.noteConflict d det).pendingFault d .spareConflict det (some found)
  | none => s

/-- Arrival on the physical target (R41, R110): a known track status is judged, an unknown one is read first. -/
def State.arrive (s : State) (d : Drive) : State :=
  match s.op d with
  | some o =>
    match o.alt with
    | none =>
      match (s.pos d).status with
      | none => s.handHomeRead d
      | some c => s.judgeHome d c
    | some a =>
      match a.step, (s.pos d).status with
      | .commit, _ | .retireAlt, _ | _, none => s.handHomeRead d
      | _, some c => s.altHomeRead d (some c)
  | none => s

/-- The positioning of the operation to its physical target, from the state the positioner is in (R39). -/
def State.position (s : State) (d : Drive) : State :=
  match (s.op d).bind Operation.target with
  | some t =>
    let s := s.modOp d fun o => { o with work := .positioning, orient := none }
    match s.moveTo d t with
    | (s, .arrived) => s.arrive d
    | (s, .moving) | (s, .waiting) => s
    | (s, .noResponse) => s.equipmentCheck d .noResponse
  | none => s

/-- The RECALIBRATE command at its positioner (R49): a recalibrate order in UNCALIBRATED or ON-CYLINDER, a wait otherwise. -/
def State.beginRecalibrate (s : State) (d : Drive) : State :=
  match (s.pos d).actuator with
  | .onCylinder | .uncalibrated =>
    match s.orderRecalibrate d with
    | (s, .noResponse) => s.equipmentCheck d .noResponse
    | (s, _) => s
  | .seeking | .recalibrating | .notReady => s

/-- What the operation does next once no motion is outstanding. -/
def State.afterMotion (s : State) (d : Drive) : State :=
  match s.op d with
  | some o =>
    match o.work with
    | .positioning => s.position d
    | .recalibrating => s.beginRecalibrate d
    | .readHome | .writeHome _ | .reconnect | .connected | .ended => s
  | none => s

/-- The one recovery begins: the mark becomes YES and a recalibrate order is sent (R42, R44, R45). -/
def State.recover (s : State) (d : Drive) : State :=
  let s := s.modOp d fun o => { o with recovery := true, work := .positioning, orient := none }
  match s.orderRecalibrate d with
  | (s, .noResponse) => s.equipmentCheck d .noResponse
  | (s, _) => s

/-- A misposition of a disconnected operation (R45, R46): cylinder and track status unknown, then the recovery or
EQUIPMENT CHECK MISPOSITION. -/
def State.misposition (s : State) (d : Drive) : State :=
  let s := s.modPos d fun q => { q with cyl := none, status := none }
  match s.op d with
  | some o =>
    if o.recovery then (s.modPos d Positioner.uncalibrate).equipmentCheck d .misposition else s.recover d
  | none => s

/-- A seek failure (R42). -/
def State.seekFailure (s : State) (d : Drive) : State :=
  let owned := (s.pos d).owned
  let s := s.modPos d Positioner.motionFailed
  match s.op d with
  | some o =>
    if owned = false then s.afterMotion d
    else if o.recovery then s.equipmentCheck d .seek
    else s.recover d
  | none => s

/-- A recalibrate failure (R43). -/
def State.recalibrateFailure (s : State) (d : Drive) : State :=
  let owned := (s.pos d).owned
  let s := s.modPos d Positioner.motionFailed
  if owned then s.equipmentCheck d .recalibrate else s.afterMotion d

/-- A motion order has failed, by its kind (R38, R42, R43). -/
def State.motionFailure (s : State) (d : Drive) : State :=
  match (s.pos d).actuator with
  | .seeking => s.seekFailure d
  | .recalibrating => s.recalibrateFailure d
  | .notReady | .uncalibrated | .onCylinder => s

/-- ON-CYLINDER for the outstanding order (R41, R49). -/
def State.motionSuccess (s : State) (d : Drive) : State :=
  let owned := (s.pos d).owned
  let s := s.modPos d Positioner.motionDone
  match s.op d with
  | some o =>
    if owned = true ∧ o.work = .recalibrating then s.keepPending d (Status.doneWith 0).disc none
    else s.afterMotion d
  | none => s

/-! ## Aborts (R75, R99, R133, R134) -/

/-- The operation's hold on offers, paths and motion is given up: offers withdrawn, its INTERNAL path FREE, the motion
ordered runs on with no owner (R52, R75). -/
def State.releaseOp (s : State) (d : Drive) : State :=
  ((s.withdrawOffersOf d).freeInternalPath d).modPos d fun q => { q with owned := false }

/-- The spare map after the abort of the operation on d, when it is an alternate operation (R134). -/
def State.undoAlternate (s : State) (d : Drive) : State :=
  match s.op d with
  | some o =>
    match o.alt with
    | some a => s.undoPending d o.home a.fresh
    | none => s
  | none => s

/-- An abort by HALT, PORT RESET or RESERVE UNCONDITIONAL, up to the record's end: an alternate operation writes ABORTED
(R99, R130, R133). -/
def State.abortQuietly (s : State) (d : Drive) : State :=
  match s.op d with
  | some o =>
    let s := s.releaseOp d
    match o.alt with
    | some a => ({ s with lastAlt := some (s.altResult d o a .aborted) } : State).discardOp d
    | none => s.discardOp d
  | none => s

/-- The abort of a disconnected operation, which ends (R99). -/
def State.abort (s : State) (d : Drive) : State := ((s.abortQuietly d).owedTest d).answerWaiting d

/-- HALT reaches this alternate operation, and RESERVE UNCONDITIONAL and PORT RESET too: its write point is NOT PASSED
(R133). -/
def Operation.abortable (o : Operation) : Bool :=
  match o.alt with
  | some a => !a.writePassed
  | none => true

/-- The port's group reaches the operation (R63, R99, R103): the issuing port, or the operation's group when it is not 0. -/
def Operation.reaches (o : Operation) (p : Port) (group : Nat) : Bool :=
  decide (o.issuer = p) || (decide (group ≠ 0) && decide (group = o.group))

end Sys2Proof.Machine
end

