-- ==== Sys2Proof/Machine/Sequencer.lean ====
section
/-! DEFINITION. The command sequencers: the command in progress in a connection with a drive (chapter 5, and 6.4 for spans). -/

namespace Sys2Proof.Machine

open Sys2Proof

/-! ## Ends of a command (R79, R80, R145) -/

/-- DONE with the connection standing: the command is over, the idle count is 0, and where R87 says so the search index
count too. -/
def State.commandDone (s : State) (d : Drive) (p : Port) (st : Status) (resets : Bool) : State :=
  (s.sendStatus p (.drive d) st false).modOp d fun o =>
    { o with cmd := none, idle := 0, searchIndex := if resets then 0 else o.searchIndex }

/-- The STATUS that a command or order was to give is produced (R145): in a unit-address connection, for the operation
connected on the port, or in a drive connection without an operation. -/
def State.produce (s : State) (p : Port) (a : Answer) : State :=
  match (s.port p).conn with
  | some .unit => (s.modPort p fun r => { r with answer := none }).unitStatus p a.status
  | some (.drive d) =>
    let s := s.modPort p fun r => { r with answer := none }
    match s.op d with
    | some o =>
      if o.conn = some p then
        match a.status.reason with
        | .fault k => s.faultInConnection d p o k a.status.detail a.status.residual a.found
        | .none | .busy | .reserved | .hold | .portBusy => s.commandDone d p a.status a.resets
      else s.reply p d a.status
    | none => s.reply p d a.status
  | none => s

/-- A command gives its STATUS: at once when the port buffer holds none of its frames, otherwise when the last has left
(R145). -/
def State.complete (s : State) (p : Port) (a : Answer) : State :=
  if (s.port p).slots = 0 then s.produce p a else s.modPort p fun r => { r with answer := some a }

/-- The command in progress changed. -/
def State.setCmd (s : State) (d : Drive) (c : Cmd) : State := s.modOp d fun o => { o with cmd := some c }

/-- A FAULT of the command in progress (R79). -/
def State.commandFault (s : State) (p : Port) (k : FaultKind) (det : Detail) (residual : Nat)
    (found : Option Condition) : State :=
  s.complete p { status := Status.faultOf k det residual, found := found, resets := false }

/-! ## Residuals (R90, R98) -/

/-- How many host bytes of a WRITE have been drawn onto the path (R93). -/
def WriteCmd.drawn (w : WriteCmd) : Nat := w.bytes.length

/-- The data field a WRITE records: the host bytes drawn, then zero bytes to the field's length (R7, R93, R97). -/
def WriteCmd.recorded (w : WriteCmd) (dl : Nat) : List Byte := w.bytes ++ List.replicate (dl - w.drawn) 0

/-- Bytes of fields ended good, plus bytes of the field in progress already sent, each once (R90). -/
def Operation.transferred (o : Operation) (r : ReadCmd) : Nat := max o.accounted r.sentTo

/-- The residual when the command is stopped by HALT, or ended by READY LOST (R98, R90, R104); of a READ DRIVE STATE stopped it
is 0 (model's choice, log 73). -/
def Operation.stopResidual (o : Operation) : Nat :=
  match o.cmd with
  | some (.read r) => o.byteCount - o.transferred r
  | some (.write w) => o.byteCount - w.drawn
  | some (.locate _) | some (.search _ _ _) | some (.format _) | some .driveState | none => 0

/-- The residual of a FAULT that ends the command between fields: count less bytes accounted for READ and WRITE, else 0 (R79,
R90). -/
def Operation.faultResidual (o : Operation) : Nat :=
  match o.cmd with
  | some (.read _) | some (.write _) => o.byteCount - o.accounted
  | some (.locate _) | some (.search _ _ _) | some (.format _) | some .driveState | none => 0

/-! ## Stopping a command (R78, R80, R98) -/

/-- What follows a stopped command: HALTED and DISCONNECT with no hold, FAULT COMMAND REJECT with or without a hold, or the
end of the connection without a STATUS (R98, R78, R80, R166). -/
def State.finishStopped (s : State) (d : Drive) (p : Port) (e : StopEnd) (residual : Nat) : State :=
  match s.op d with
  | some o =>
    match e with
    | .halted =>
      ((s.modPort p fun r => { r with answer := none, held := [], requests := [] }).sendStatus p (.drive d)
        (Status.haltedWith residual) true).endOperation d
    | .rejected true => s.faultInConnection d p o .commandReject .none residual none
    | .tables => s.faultInConnection d p o .commandReject .none 0 none
    | .rejected false =>
      ((s.modPort p fun r => { r with answer := none, held := [], requests := [] }).sendStatus p (.drive d)
        (Status.faultOf .commandReject .none residual).disc true).endOperation d
    | .closed => (s.endConnection p).endOperation d
  | none => s

/-- The buffer's frames discarded and its requests cancelled: an answer to them finds none. A request frame that has been
produced and has not left still leaves while the connection stands (R98, R152, R153, model's choice, log 42; at its end: log
75). -/
def PortRec.emptied (r : PortRec) : PortRec := { r with link := dropData r.link, held := [], requests := [], answer := none }

/-- The command in progress on the operation connected on p is stopped as HALT stops it (R98): inside a WRITE's data field
or a FORMAT TRACK's writing, when the field has been written; otherwise at once. A command already being stopped goes on to
the end it was given (log 22), also where RESERVE UNCONDITIONAL stops it again (model's choice, log 71). A READ whose outcome
only waits for the buffer is stopped as a READ in transfer: the outcome that was due, and the hold of a fault, are discarded
with the frames (model's choice, log 38). READ DRIVE STATE, for which R98's table has no phase, is stopped at once: its DATA
frame is discarded with its DONE, and the residual is 0 (model's choice, log 73). -/
def State.stopCommand (s : State) (d : Drive) (p : Port) (e : StopEnd) : State :=
  match s.op d with
  | some o =>
    let res := o.stopResidual
    match o.cmd with
    | some (.write w) =>
      if w.begun then
        if w.stop.isSome then s
        else (s.modPort p PortRec.emptied).setCmd d (.write { w with stop := some e, toAsk := [] })
      else (s.modPort p PortRec.emptied).finishStopped d p e res
    | some (.format f) =>
      if f.begun then
        if f.stop.isSome then s else s.setCmd d (.format { f with stop := some e })
      else s.finishStopped d p e res
    | some (.read _) | some .driveState => (s.modPort p PortRec.emptied).finishStopped d p e res
    | some (.locate _) | some (.search _ _ _) | none => s.finishStopped d p e res
  | none => s

/-! ## Setting a connection aside (R46, R118) -/

/-- The connection on p is set aside: the path becomes FREE at once, and the port becomes IDLE when the frames already formed
have left (R46, R118, R152). The operation stays in flight, and counts what is still leaving there as sent (R90). -/
def State.setAside (s : State) (d : Drive) (p : Port) : State :=
  let s := (s.modOp d fun o =>
    { o with conn := none, idle := 0, keyCheck := false, leaving := o.leaving.add p }).freePathOfPort p
  if (s.port p).slots = 0 then s.endConnection p else s.modPort p fun r => { r with draining := true }

/-- The search for the record at which a set-aside command stopped, from the index (R46). -/
def Finding.fromIndex : Finding := { marks := 0, noted := false, waitIndex := true }

/-- A search set aside goes on from the index after the next TAKE, from which its INDEX MARKs count; a check noted stays
noted against the operation (R46, R82). -/
def Finding.again (f : Finding) : Finding := { Finding.fromIndex with noted := f.noted }

/-- The current record, when it lies on the operation's logical track as it stands (R46, R83, log 14). -/
def Operation.currentHere (o : Operation) : Option RecordAt :=
  match o.current, o.logical with
  | some r, some t => if r.id.address = t then some r else none
  | _, _ => none

/-- The command as a misposition sets it aside, to be resumed at the next TAKE (R46). One that stopped at a record after the
current one finds the current record and takes the next ID field; with no current record on the track it takes the first
record after the index (log 13). A READ or WRITE that waited for a field of the current record finds that record and takes
the field; a WRITE asks for its bytes again (log 62). -/
def Operation.resumed (o : Operation) (c : Cmd) : Cmd :=
  match c with
  | .locate f => .locate f.again
  | .search cond arg (.find sought f) => .search cond arg (.find sought f.again)
  | .search cond arg (.id _) | .search cond arg .key | .search cond arg .over =>
    .search cond arg (.find o.currentHere Finding.fromIndex)
  | .read r =>
    let phase := match r.phase with
      | .find sought f => .find sought f.again
      | .data => .seek Finding.fromIndex
      | .seek f => .seek f.again
      | .nextId _ | .home | .done => .find o.currentHere Finding.fromIndex
    .read { r with phase := phase, got := 0, formed := 0, forming := [] }
  | .write w =>
    let f := match w.seek with
      | some f => f.again
      | none => Finding.fromIndex
    .write { w with bytes := [], toAsk := [(0, w.need)], seek := some f }
  | .format f => .format f
  | .driveState => .driveState

/-- A misposition at an ID field or in-line at a home field: the command is kept as it will be resumed, the connection is set
aside and the positioner recovers (R45, R46). -/
def State.mispositionConnected (s : State) (d : Drive) (p : Port) : State :=
  ((s.modOp d fun o => { o.newField with cmd := o.cmd.map o.resumed }).setAside d p).misposition d

/-- A relocation: the connection is set aside and the operation positions to its physical target (R118). -/
def State.relocate (s : State) (d : Drive) (p : Port) : State := (s.setAside d p).position d

/-! ## Rereads (R95) -/

/-- A reread of the field at hand is armed while the type's retry budget allows (R95). -/
def State.canReread (s : State) (d : Drive) (o : Operation) : Bool := decide (o.rereads < (s.typeOf d).retryBudget)

/-- One reread: the same field is armed for its next arrival, and retries used rises by 1, saturating at 255 (R77, R95). -/
def State.reread (s : State) (d : Drive) : State :=
  s.modOp d fun o => { o.arm with rereads := o.rereads + 1, retries := min 255 (o.retries + 1), rereadDue := true }

/-! ## ID fields (R82, R85, R91) -/

/-- A record becomes the current record (R83). -/
def State.makeCurrent (s : State) (d : Drive) (r : RecordAt) : State :=
  s.modOp d fun o => { o.newField with current := some r }

/-- A SEARCH compares: DONE, with MATCH when the condition is met, and the record's data field stays armed for its check
(R85, R87, R88). -/
def State.compareKey (s : State) (d : Drive) (p : Port) (c : SearchCond) (arg key : List Byte) : State :=
  let m := keyMeets c key arg
  (s.commandDone d p { Status.doneWith 0 with matched := m } m).modOp d fun o => { o with keyCheck := true }

/-- A READ begins the data field of the current record (R89). -/
def ReadCmd.atData (r : ReadCmd) : ReadCmd := { r with phase := .data, got := 0, formed := 0, forming := [] }

/-- An ID field check in a search from a reconnection is noted; the search goes on after the next INDEX MARK (R82, R8). -/
def Finding.check (f : Finding) : Finding := { f with noted := true, waitIndex := true }

/-- The ID field read is the one that a SEARCH or a spanning READ waits for: after a field check only that field again, and
where the next record is awaited only the one that passes next after the current record's (R8, R83, R84, R95). -/
def Awaited.takes (w : Awaited) (x : IdRead) : Bool :=
  match w with
  | .afterIndex => false
  | .next => true
  | .after q => decide (x.before = q)
  | .place q => decide (x.start = q)

/-- The ID fields that pass are read for the wait: each with a good check is tested for misposition before it is asked whether
it is the one awaited (R46, R85), each with a field check is one of R96. Where the first field after the next INDEX MARK is
awaited, they are read only from that mark on (log 50). -/
def Awaited.reads (w : Awaited) : Bool :=
  match w with
  | .afterIndex => false
  | .next | .after _ | .place _ => true

/-- What is awaited after an INDEX MARK: the first ID field after it is the next to pass (R83). -/
def Awaited.index (w : Awaited) : Awaited :=
  match w with
  | .afterIndex | .next => .next
  | .after q => .after q
  | .place q => .place q

/-- The ID field of the record at this place is armed again, and no other is taken before it (R8, R95). -/
def Cmd.rereadAt (c : Cmd) (start : Nat) : Cmd :=
  match c with
  | .search k arg _ => .search k arg (.id (.place start))
  | .read r => .read { r with phase := .nextId (.place start) }
  | .locate _ | .write _ | .format _ | .driveState => c

/-- The command takes no further field: a READ whose STATUS waits for the buffer (R95, R145). -/
def Cmd.over (c : Cmd) : Cmd :=
  match c with
  | .read r => .read { r with phase := .done }
  | .locate _ | .search _ _ _ | .write _ | .format _ | .driveState => c

/-- The command takes no further field. -/
def State.readOver (s : State) (d : Drive) : State := s.modOp d fun o => { o with cmd := o.cmd.map Cmd.over }

/-- An ID field read with a check: one update of the suspect list (R96), and no further record is reached before the next INDEX
MARK (R8). -/
def State.badId (s : State) (d : Drive) : State := (s.reportCheck d .idCheck).modOp d fun o => { o with lost := true }

/-- An ID field with a check, where it is reread or ends the command (R95). -/
def State.idCheck (s : State) (d : Drive) (p : Port) (o : Operation) (start : Nat) : State :=
  let s := s.badId d
  if s.canReread d o then (s.reread d).modOp d fun o => { o with cmd := o.cmd.map (·.rereadAt start) }
  else (s.readOver d).commandFault p .idCheck .none o.faultResidual none

/-- The record a SEARCH was to compare: it becomes current and its key is compared, at once where it has none (R83, R85). -/
def State.searchRecord (s : State) (d : Drive) (p : Port) (c : SearchCond) (arg : List Byte) (x : RecordAt) : State :=
  let s := s.makeCurrent d x
  if x.id.keyLength = 0 then s.compareKey d p c arg [] else s.setCmd d (.search c arg .key)

/-- The record a spanning READ enters: it becomes current and its data field is transferred next (R91). -/
def State.enterRecord (s : State) (d : Drive) (r : ReadCmd) (x : RecordAt) : State :=
  (s.makeCurrent d x).setCmd d (.read r.atData)

/-- An ID field read good in a search from the index: nothing before that mark, a misposition where it has another track's
address, else `take` (R46, R82). -/
def State.soughtId (s : State) (d : Drive) (p : Port) (g : Finding) (wrong : Bool) (take : State) : State :=
  if g.waitIndex then s else if wrong then s.mispositionConnected d p else take

/-- An ID field read with a check in a search from the index: it is noted and not reread, and the search goes on after the next
INDEX MARK (R82, R8). `c` is the command with its search. -/
def State.soughtCheck (s : State) (d : Drive) (g : Finding) (c : Finding → Cmd) : State :=
  if g.waitIndex then s else (s.reportCheck d .idCheck).setCmd d (c g.check)

/-- ID FIELD READ with a field check, for the operation connected on p. In a search resumed after a misposition it is noted and
not reread, also where the first record after the index is sought (R46, R82, model's choice, log 53). A SEARCH or spanning READ
rereads that of the record it is making current (R95). Any other that passes while a field is waited for, the home field of an
in-line crossing among them (R117), makes R96's update and R8's loss, and is neither reread nor noted (model's choice, log
63). -/
def State.idReadCheck (s : State) (d : Drive) (p : Port) (o : Operation) (x : IdRead) : State :=
  match o.cmd with
  | some (.locate g) => s.soughtCheck d g .locate
  | some (.search c a (.find n g)) => s.soughtCheck d g fun g => .search c a (.find n g)
  | some (.search _ _ (.id w)) => if w.takes x then s.idCheck d p o x.start else if w.reads then s.badId d else s
  | some (.read r) =>
    match r.phase with
    | .find n g => s.soughtCheck d g fun g => .read { r with phase := .find n g }
    | .seek g => s.soughtCheck d g fun g => .read { r with phase := .seek g }
    | .nextId w => if w.takes x then s.idCheck d p o x.start else if w.reads then s.badId d else s
    | .data | .home => s.badId d
    | .done => s
  | some (.write w) =>
    match w.seek with
    | some g => s.soughtCheck d g fun g => .write { w with seek := some g }
    | none => if w.begun then s else s.badId d
  | some (.search _ _ .key) | some (.search _ _ .over) | some (.format _) | some .driveState | none => s

/-- ID FIELD READ good, for the operation connected on p (R82, R85, R91). A READ that waits for its data field, and a WRITE that
has not begun, test it for misposition alone (R46), and so does a spanning READ that waits for the home field of the track it has
crossed to in-line (R6, R116, R117). A spanning READ that has found its current record is no longer under R46's
bound (model's choice, log 52). A FORMAT TRACK reads no ID field (model's choice, log 62). -/
def State.idReadGood (s : State) (d : Drive) (p : Port) (o : Operation) (x : IdRead) (f : IdField) : State :=
  let wrong : Bool := decide (o.logical ≠ some f.address)
  let here : RecordAt := { start := x.start, id := f }
  match o.cmd with
  | some (.locate g) => s.soughtId d p g wrong
      (if f.number = o.record then (s.makeCurrent d here).commandDone d p (Status.doneWith 0) true else s)
  | some (.search c a (.find n g)) => s.soughtId d p g wrong (match n with
      | none => s.searchRecord d p c a here
      | some r => if r = here then s.setCmd d (.search c a (.id .next)) else s)
  | some (.search c a (.id w)) =>
    if w.reads = true ∧ wrong = true then s.mispositionConnected d p
    else if w.takes x then s.searchRecord d p c a here
    else s
  | some (.read r) =>
    match r.phase with
    | .find n g => s.soughtId d p g wrong (match n with
        | none => s.enterRecord d r here
        | some r' => if r' = here then s.setCmd d (.read { r with phase := .nextId .next }) else s)
    | .seek g => s.soughtId d p g wrong (if o.current = some here then s.setCmd d (.read r.atData) else s)
    | .nextId w =>
      if w.reads = true ∧ wrong = true then s.mispositionConnected d p
      else if w.takes x then s.enterRecord d r here
      else s
    | .data | .home => if wrong then s.mispositionConnected d p else s
    | .done => s
  | some (.write w) =>
    match w.seek with
    | some g => s.soughtId d p g wrong
        (if o.current = some here then s.setCmd d (.write { w with seek := none }) else s)
    | none => if w.begun = false ∧ wrong = true then s.mispositionConnected d p else s
  | some (.search _ _ .key) | some (.search _ _ .over) | some (.format _) | some .driveState | none => s

/-- ID FIELD READ for the operation connected on p, good or with a field check (R8, R46, R82, R85, R91, R95, R96). -/
def State.idRead (s : State) (d : Drive) (p : Port) (o : Operation) (x : IdRead) : State :=
  match x.content with
  | none => s.idReadCheck d p o x
  | some f => s.idReadGood d p o x f

/-- A field of a record, at this byte of the track, is reached by what the operation has armed: in time, and with no ID field of
this revolution lost (R2, R8, R84). -/
def State.reaches (s : State) (d : Drive) (o : Operation) (q : Nat) : Bool := !o.lost && s.inTime d o q

/-- A READ that awaits a reread of the home field of the track it has crossed to in-line. The ID fields of that track were
armed at the crossing, a revolution or more before; the reread arms the home field alone anew (R95, R117). -/
def Operation.homeAgain (o : Operation) : Bool :=
  match o.cmd with
  | some (.read r) => decide (r.phase = .home) && o.rereadDue
  | some (.locate _) | some (.search _ _ _) | some (.write _) | some (.format _) | some .driveState | none => false

/-- ID FIELD READ where the read armed acts on that field: the ID field is placed by the start of its record (R2, R13,
log 6). -/
def State.idArrives (s : State) (d : Drive) (p : Port) (o : Operation) (x : IdRead) : State :=
  if s.reaches d o x.start || (o.homeAgain && !o.lost) then s.idRead d p o x else s

/-! ## Data fields of a READ (R89, R90, R97) -/

/-- Full frames of 256 bytes taken off the bytes being formed; the rest stays. -/
def fullFrames : Nat → List Byte → List (List Byte) × List Byte
  | 0, bs => ([], bs)
  | fuel + 1, bs =>
    if bs.length < 256 then ([], bs)
    else
      let (fs, rest) := fullFrames fuel (bs.drop 256)
      (bs.take 256 :: fs, rest)

/-- The frames that bytes complete: full ones, and the last one when the field's transfer ends with them (R90). -/
def framesOf (bs : List Byte) (last : Bool) : List (List Byte) × List Byte :=
  let (fs, rest) := fullFrames bs.length bs
  if last = true ∧ rest ≠ [] then (fs ++ [rest], []) else (fs, rest)

/-- Formed frames enter the port buffer in order, from this offset. The answer is the state, the offset reached, and
whether a frame was formed while both slots were full: it is discarded and the transfer stops (R97, R152). -/
def State.formFrames (s : State) (p : Port) (address : Nat) : Nat → List (List Byte) → State × Nat × Bool
  | off, [] => (s, off, false)
  | off, f :: fs =>
    if 2 ≤ (s.port p).bufferCount then (s, off, true)
    else (s.push p (.data address off f)).formFrames p address (off + f.length) fs

/-- Bytes of the current record's data field that this READ transfers: min(count left, DL) (R89). -/
def Operation.fieldWant (o : Operation) : Nat :=
  min (o.byteCount - o.accounted) ((o.current.map fun r => r.id.dataLength).getD 0)

/-- Data bytes pass: those the READ transfers are formed into frames (R89, R90). `none` is an overrun, which ends the READ
when the frames in the buffer have left: they go to the host before the STATUS, and its residual counts them as sent (R97,
log 61). -/
def State.dataPasses (s : State) (d : Drive) (p : Port) (o : Operation) (r : ReadCmd) (bs : List Byte) :
    State × Option ReadCmd :=
  let want := o.fieldWant
  let mine := bs.take (want - r.got)
  let got := r.got + bs.length
  let (fs, rest) := framesOf (r.forming ++ mine) (decide (want ≤ got))
  let start := o.accounted + r.formed
  match s.formFrames p ((s.port p).addressOf (.drive d)) start fs with
  | (s, stop, false) =>
    (s, some { r with got := got, formed := r.formed + (stop - start), forming := rest })
  | (s, _, true) =>
    let s := s.setCmd d (.read { r with phase := .done })
    (s.commandFault p .overrun .read (o.byteCount - max (o.transferred r) (s.port p).dataEnd) none, none)

/-- A data field of a READ ends good: its bytes are accounted; the READ ends, or a spanning one goes on to the next record
(R89, R91). -/
def State.fieldGood (s : State) (d : Drive) (p : Port) (o : Operation) (r : ReadCmd) : State :=
  let acc := o.accounted + min o.fieldWant r.got
  let s := s.modOp d fun o => { o.newField with accounted := acc }
  if r.span = true ∧ acc < o.byteCount then s.setCmd d (.read { r with phase := .nextId .next })
  else
    (s.setCmd d (.read { r with phase := .done })).complete p
      { status := Status.doneWith (o.byteCount - acc), found := none, resets := true }

/-- A data check on a field a READ transfers: reread within the budget, else FAULT DATA CHECK READ (R95, R90). -/
def State.fieldCheck (s : State) (d : Drive) (p : Port) (o : Operation) (r : ReadCmd) : State :=
  let s := s.reportCheck d .dataCheck
  if s.canReread d o then (s.reread d).setCmd d (.read r.atData)
  else
    (s.setCmd d (.read { r with phase := .done })).commandFault p .dataCheck .read (o.byteCount - o.accounted) none

/-- The outcome of the data field left armed by a SEARCH: only a data check matters, for the suspect list (R88). -/
def State.keyCheckOutcome (s : State) (d : Drive) (good : Bool) : State :=
  let s := s.modOp d fun o => { o with keyCheck := false }
  if good then s else s.reportCheck d .dataCheck

/-- The data field of the current record is reached after the arming (R2, R84): the READ's own field. A record of another track
is placed by its start byte on the track selected (model's choice, log 74). -/
def State.dataInTime (s : State) (d : Drive) (o : Operation) : Bool :=
  match o.current with
  | some x => s.reaches d o x.dataStart
  | none => false

/-- The key field of the current record, where a SEARCH compares and a WRITE begins, is reached after the arming. Without a key
the data field starts at the same byte (R2, R84). A record of another track is placed by its start byte on the track selected
(model's choice, log 74). -/
def State.keyInTime (s : State) (d : Drive) (o : Operation) : Bool :=
  match o.current with
  | some x => s.reaches d o x.keyStart
  | none => false

/-- The READ that the data field passing now is read for: it waits for its data field, and was armed in time for it (R88,
R89). -/
def State.readsData (s : State) (d : Drive) (o : Operation) : Option ReadCmd :=
  match o.cmd with
  | some (.read r) => if r.phase = .data ∧ s.dataInTime d o = true then some r else none
  | some (.locate _) | some (.search _ _ _) | some (.write _) | some (.format _) | some .driveState | none => none

/-- The WRITE acts on the field at which it begins: the field is reached, and the record is not sought again (R2, R46, R84). -/
def State.writesNow (s : State) (d : Drive) (o : Operation) (w : WriteCmd) : Bool := w.seek.isNone && s.keyInTime d o

/-- A WRITE armed for the field replaces the read that a SEARCH has left armed (R88). -/
def State.writeReplaces (s : State) (d : Drive) (o : Operation) : Bool :=
  match o.cmd with
  | some (.write w) => s.writesNow d o w
  | some (.locate _) | some (.search _ _ _) | some (.read _) | some (.format _) | some .driveState | none => false

/-- DATA FIELD READ for the operation connected on p: a READ armed in time takes the field, otherwise the read that a SEARCH
left armed does, unless a WRITE replaces it (R88, R89, R95). -/
def State.dataRead (s : State) (d : Drive) (p : Port) (o : Operation) (bs : List Byte) (outcome : Option Bool) : State :=
  match s.readsData d o with
  | some r =>
    let s := s.modOp d fun o => { o with keyCheck := false, rereadDue := false }
    match s.dataPasses d p o r bs with
    | (s, some r') =>
      let s := s.setCmd d (.read r')
      match outcome with
      | none => s
      | some true => s.fieldGood d p o r'
      | some false => s.fieldCheck d p o r'
    | (s, none) => s
  | none =>
    if o.keyCheck = true ∧ s.writeReplaces d o = false then
      match outcome with
      | some good => s.keyCheckOutcome d good
      | none => s
    else s

/-! ## Span continuation (R91, R116 to R118) -/

/-- The last record of a track has passed with count remaining: the READ crosses to the next head, in-line when the new
physical target lies on the current cylinder and by relocation otherwise, or ends with END-CYL (R91, R116). -/
def State.endOfTrack (s : State) (d : Drive) (p : Port) (o : Operation) (r : ReadCmd) : State :=
  let h := o.home
  if h.head + 1 < (s.typeOf d).heads then
    let t : Track := { cyl := h.cyl, head := h.head + 1 }
    let x := s.translate d t
    let s := s.modOp d fun o =>
      { o.newField.arm with logical := some t, target := some x.target, expected := some x.expected, entry := x.entry }
    if (s.pos d).cyl = some x.target.cyl then
      (s.selectHead d x.target.head).setCmd d (.read { r with phase := .home })
    else (s.setCmd d (.read { r with phase := .nextId .afterIndex })).relocate d p
  else
    (s.setCmd d (.read { r with phase := .done })).complete p
      { status := { Status.doneWith (o.byteCount - o.accounted) with endCyl := true }, found := none, resets := true }

/-- The in-line home field of a span continuation, read good at its own address (R117). -/
def State.judgeInline (s : State) (d : Drive) (p : Port) (o : Operation) (r : ReadCmd) (found : Condition) : State :=
  match s.opVerdict d o found with
  | .verified =>
    let s := if o.expected = some .good then s.confirmGood d o.home else s
    (s.modOp d Operation.newField).setCmd d (.read { r with phase := .nextId .next })
  | .learn x =>
    ((s.learnInOp d o.home x).setCmd d (.read { r with phase := .nextId .afterIndex })).relocate d p
  | .conflict det =>
    ((s.noteConflict d det).setCmd d (.read { r with phase := .done })).commandFault p .spareConflict det
      (o.byteCount - o.accounted) (some found)

/-! ## INDEX MARK in a connection (R11, R80, R82, R87, R91, R94) -/

/-- An INDEX MARK in the search for a record: it counts since the TAKE and opens a search that waited for it (R82, R46). -/
def Finding.index (f : Finding) : Finding := { f with marks := f.marks + 1, waitIndex := false }

/-- The counts of INDEX MARKs that a standing connection keeps, and the records in reach again (R8, R80, R87). -/
def Operation.countIndex (o : Operation) : Operation :=
  { o with lost := false, idle := if o.cmd.isNone then min 4 (o.idle + 1) else o.idle,
           searchIndex := if o.rereadDue then o.searchIndex else min 2 (o.searchIndex + 1) }

/-- What an INDEX MARK makes of a SEARCH that waits for its ID field, o as the mark finds it: the search index count reaches 2,
also where it stood there before (log 36), or the wait goes on. An awaited reread is no such wait (R83, R87, R95). -/
def Operation.searchAtIndex (o : Operation) (w : Awaited) : SearchPhase :=
  if o.rereadDue = false ∧ 1 ≤ o.searchIndex then .over else .id w.index

/-- INDEX MARK at the command in progress on p. -/
def State.indexAtCommand (s : State) (d : Drive) (p : Port) (o : Operation) : State :=
  match o.cmd with
  | some (.locate f) => s.setCmd d (.locate f.index)
  | some (.search c a (.find n f)) => s.setCmd d (.search c a (.find n f.index))
  | some (.search c a (.id w)) => s.setCmd d (.search c a (o.searchAtIndex w))
  | some (.search _ _ .key) | some (.search _ _ .over) => s
  | some (.read r) =>
    match r.phase with
    | .find n f => s.setCmd d (.read { r with phase := .find n f.index })
    | .nextId .afterIndex => s.setCmd d (.read { r with phase := .nextId .next })
    | .nextId .next => s.endOfTrack d p o r
    | .nextId (.after _) | .nextId (.place _) => s
    | .seek f => s.setCmd d (.read { r with phase := .seek f.index })
    | .data | .home | .done => s
  | some (.format f) => s.setCmd d (.format { f with begun := true })
  | some (.write w) => s.setCmd d (.write { w with seek := w.seek.map Finding.index })
  | some .driveState | none => s

/-- INDEX MARK at the operation connected with the drive. -/
def State.indexAtConnection (s : State) (d : Drive) : State :=
  match s.op d with
  | some o =>
    match o.conn with
    | some p => (s.modOp d Operation.countIndex).indexAtCommand d p o
    | none => s
  | none => s

/-- The idle count has reached 4 with no command in progress: the connection ends by itself and the operation ends (R80). -/
def State.idleExpire (s : State) (d : Drive) : State :=
  match s.op d with
  | some o =>
    match o.conn with
    | some p => if o.cmd = none ∧ 4 ≤ o.idle then (s.endConnection p).endOperation d else s
    | none => s
  | none => s

/-- The search from a reconnection that is in progress (R82, R46). -/
def Operation.finding (o : Operation) : Option Finding :=
  match o.cmd with
  | some (.locate f) => some f
  | some (.search _ _ (.find _ f)) => some f
  | some (.search _ _ (.id _)) | some (.search _ _ .key) | some (.search _ _ .over) => none
  | some (.read r) =>
    match r.phase with
    | .find _ f | .seek f => some f
    | .data | .nextId _ | .home | .done => none
  | some (.write w) => w.seek
  | some (.format _) | some .driveState | none => none

/-- No match by the second INDEX MARK after TAKE: FAULT ID CHECK when a check was noted, else NOT FOUND (R82, R46). -/
def State.searchBound (s : State) (d : Drive) : State :=
  match s.op d with
  | some o =>
    match o.conn, o.finding with
    | some p, some f =>
      if 2 ≤ f.marks then
        (s.readOver d).commandFault p (if f.noted then .idCheck else .notFound) .none o.faultResidual none
      else s
    | _, _ => s
  | none => s

/-- The search index count has reached 2 while a SEARCH waited for its ID field (R87). One that still finds the record at which
it stopped stands under R46's bound, not under this one (log 48). -/
def Operation.searchSpent (o : Operation) : Bool :=
  match o.cmd with
  | some (.search _ _ .over) => true
  | some (.search _ _ (.id _)) | some (.search _ _ (.find _ _)) | some (.search _ _ .key) | some (.locate _) | some (.read _)
  | some (.write _) | some (.format _) | some .driveState | none => false

/-- The search index count has reached 2 while a SEARCH waited for its ID field: FAULT NOT FOUND (R87). -/
def State.searchLimit (s : State) (d : Drive) : State :=
  match s.op d with
  | some o =>
    match o.conn with
    | some p => if o.searchSpent then s.commandFault p .notFound .none 0 none else s
    | none => s
  | none => s

/-! ## WRITE (R92, R93, R97, R153) -/

/-- Data requests are sent while host bytes remain to be asked for and requests outstanding plus frames held are below two
(R93, R153). -/
def State.requestBytes (s : State) (d : Drive) (p : Port) : Nat → State
  | 0 => s
  | fuel + 1 =>
    match (s.op d).bind Operation.cmd with
    | some (.write w) =>
      match w.toAsk with
      | [] => s
      | (off, len) :: rest =>
        let r := s.port p
        if 2 ≤ r.requests.length + r.held.length then s
        else
          let n := min 256 len
          let more := if n < len then (off + n, len - n) :: rest else rest
          let s := s.setCmd d (.write { w with toAsk := more })
          let s := s.push p (.request (r.addressOf (.drive d)) off n)
          (s.modPort p fun r => { r with requests := r.requests ++ [(off, n)] }).requestBytes d p fuel
    | some (.locate _) | some (.search _ _ _) | some (.read _) | some (.format _) | some .driveState | none => s

/-! ## TAKE of a reconnection (R70, R82) -/

/-- The sequencer goes on with the operation at TAKE (R70, R82): record 0 gives DONE at once, another record is searched
for, and a command set aside is resumed as it was kept, a WRITE asking for its bytes again (R46, R118, R153, log 62). What it
reads next is armed now (R70, R73). -/
def State.proceed (s : State) (d : Drive) (p : Port) : State :=
  let s := s.modOp d Operation.arm
  match s.op d with
  | some o =>
    match o.cmd with
    | some (.write _) => s.requestBytes d p 2
    | some (.locate _) | some (.search _ _ _) | some (.read _) | some (.format _) | some .driveState => s
    | none =>
      if o.record = 0 then s.commandDone d p (Status.doneWith 0) true
      else s.setCmd d (.locate { marks := 0, noted := false, waitIndex := false })
  | none => s

/-! ## The host bytes of a WRITE (R93, R153, R97) -/

/-- An inbound DATA frame against the oldest outstanding request (R153): its bytes up to the request's count are held;
a shorter frame leaves the rest to be asked for, before the ranges not asked for yet (log 15). A slot is free for every request
that stands; that is tested again (R152, log 56). -/
def State.hostBytes (s : State) (d : Drive) (p : Port) (w : WriteCmd) (off : Nat) (bs : List Byte) : State :=
  match (s.port p).requests with
  | (o, n) :: rest =>
    if off = o ∧ (s.port p).bufferCount < 2 then
      let kept := bs.take n
      let short := if kept.length < n then [(o + kept.length, n - kept.length)] else []
      let s := s.modPort p fun r => { r with requests := rest, held := r.held ++ [{ offset := o, bytes := kept }] }
      (s.setCmd d (.write { w with toAsk := short ++ w.toAsk })).requestBytes d p 2
    else s
  | [] => s

/-- The bytes of the held frame that stands next in the WRITE are drawn onto the path, which frees its slot and lets the
next request follow; `none` when no held frame has them (R153). -/
def State.drawNext (s : State) (d : Drive) (p : Port) (w : WriteCmd) : Option (State × WriteCmd) :=
  match (s.port p).held.find? (fun c => decide (c.offset = w.drawn)) with
  | some c =>
    let w' := { w with bytes := w.bytes ++ c.bytes }
    let s := s.modPort p fun r => { r with held := r.held.filter fun x => !decide (x.offset = w.drawn) }
    some ((s.setCmd d (.write w')), w')
  | none => none

/-- Host bytes are drawn as the data field passes; when bytes must go to the medium and no held frame has them, the rest of
the field is zeros (R97, R153). -/
def State.drawBytes (s : State) (d : Drive) (p : Port) (w : WriteCmd) : State :=
  let w := { w with begun := true }
  let s := (s.setCmd d (.write w)).modOp d fun o => { o with keyCheck := false }
  if w.zeroFill = true ∨ w.stop.isSome = true ∨ w.need ≤ w.drawn then s
  else
    match s.drawNext d p w with
    | some (s, _) => s.requestBytes d p 2
    | none => s.setCmd d (.write { w with zeroFill := true })

/-- At the field's FIELD WRITTEN every frame still held that stands next has been drawn too (log 16). -/
def State.drawRest (s : State) (d : Drive) (p : Port) (w : WriteCmd) : Nat → State × WriteCmd
  | 0 => (s, w)
  | fuel + 1 =>
    if w.zeroFill = true ∨ w.stop.isSome = true ∨ w.need ≤ w.drawn then (s, w)
    else
      match s.drawNext d p w with
      | some (s, w') => s.drawRest d p w' fuel
      | none => (s, w)

/-- FIELD WRITTEN for a WRITE (R93, R96, R97, R98). The suspect list is updated, and SPARE-ADVISED posted, before the command's
end frees the drive and posts DEVICE-FREE (model's choice, log 60). A WRITE that was stopped after it had overrun ends as the
stop says, its OVERRUN dropped (model's choice, log 65). -/
def State.writeDone (s : State) (d : Drive) (p : Port) (o : Operation) (w : WriteCmd) (good : Bool) : State :=
  let (s, w) := s.drawRest d p w 2
  let s := if good then s else s.reportCheck d .dataCheck
  match w.stop with
  | some e => s.finishStopped d p e (o.byteCount - w.drawn)
  | none =>
    if w.drawn < w.need then s.commandFault p .overrun .write (o.byteCount - w.drawn) none
    else if good then
      let s := s.modOp d fun o => { o with accounted := w.need, keyCheck := false }
      (s.modPort p fun r => { r with requests := [], held := [] }).complete p
        { status := Status.doneWith (o.byteCount - w.need), found := none, resets := true }
    else s.commandFault p .dataCheck .write o.byteCount none

/-! ## FORMAT TRACK (R94) -/

/-- FIELD WRITTEN for a FORMAT TRACK (R94, R96, R98). -/
def State.formatDone (s : State) (d : Drive) (p : Port) (f : FormatCmd) (good : Bool) : State :=
  match f.fields with
  | x :: rest =>
    let s := match x with
      | .home h => s.modPos d fun q => q.homeWritten h good
      | .id _ | .keyData _ _ => s
    let s := if good then s else s.reportCheck d .dataCheck
    match f.stop with
    | some e => s.finishStopped d p e 0
    | none =>
      if good then
        let last := match x with
          | .id i => some i
          | .home _ | .keyData _ _ => f.last
        let s := s.setCmd d (.format { f with fields := rest, last := last })
        if rest = [] then
          (s.modOp d fun o => { o with current := last }).complete p
            { status := Status.doneWith 0, found := none, resets := true }
        else s
      else s.commandFault p .dataCheck .write 0 none
  | [] => s

/-! ## The abort of a connected operation (R105, R155) -/

/-- A write in progress inside its field, to be finished after the operation is aborted (R98, R105). -/
def Operation.writing (o : Operation) : Bool :=
  match o.cmd with
  | some (.write w) => w.begun
  | some (.format f) => f.begun
  | some (.locate _) | some (.search _ _ _) | some (.read _) | some .driveState | none => false

/-- The home field that a FORMAT TRACK is writing. -/
def Operation.homeInWriting (o : Operation) : Option HomeField :=
  match o.cmd with
  | some (.format f) =>
    match f.fields with
    | .home h :: _ => some h
    | .id _ :: _ | .keyData _ _ :: _ | [] => none
  | some (.write _) | some (.locate _) | some (.search _ _ _) | some (.read _) | some .driveState | none => none

/-- The operation connected with the drive is aborted without a STATUS; a write in progress is left to be finished (R105). The
home-field write of an alternate operation is no write of a connection, and its FIELD WRITTEN is not awaited (model's choice,
log 57). `port` is the port that waits for it in RESETTING (R155). -/
def State.leaveWrite (s : State) (d : Drive) (port : Option Port) : State :=
  match s.op d with
  | some o =>
    match o.target with
    | some t =>
      if o.conn.isSome = true ∧ o.writing = true then
        let f : Finishing :=
          { physical := t, logical := o.home, reported := o.reported.contains t, home := o.homeInWriting, port := port }
        s.setFinish d (some f)
      else s
    | none => s
  | none => s

/-- RESETTING ends and the port is IDLE with group 0 (R155). -/
def State.endReset (s : State) (p : Port) : State :=
  s.modPort p fun r => if r.state = .resetting then { r with state := .idle, resetDrive := none } else r

/-- The FIELD WRITTEN of a write that was left to be finished: a home field written sets the track status, a write check
goes to the suspect list as after HALT, and a reset that waited for it ends (R15, R98, R155). The update, and SPARE-ADVISED with
it, come before the reset ends: the port that waited is still RESETTING and gets none (model's choice, log 69). -/
def State.finishWritten (s : State) (d : Drive) (f : Finishing) (good : Bool) : State :=
  let s := s.setFinish d none
  let s := match f.home with
    | some h => s.modPos d fun q => q.homeWritten h good
    | none => s
  let s := if good = true ∨ f.reported = true then s else s.suspectUpdate d f.physical f.logical .dataCheck
  match f.port with
  | some p => s.endReset p
  | none => s

end Sys2Proof.Machine
end

