-- ==== Sys2Proof/Machine/Arbiter.lean ====
section
/-! DEFINITION. Position requests, the path arbiter, the claims on IDLE ports, and what every command shares: the consequences
of the last mark before it and the claims after it (chapter 4, R103, R150, R180, R184). -/

namespace Sys2Proof.Machine

open Sys2Proof

/-! ## Raising and lapsing (R59, R60, R71) -/

/-- The orientation after a lapse: DORMANT, CLOSED, nobody deferred (R60). -/
def Orientation.lapsed (x : Orientation) : Orientation :=
  { x with req := .dormant, windowOpen := false, deferred := PortSet.none, tested := false }

/-- A lapse: the miss count rises by 1, saturating at 15 (R60, R71). -/
def Operation.lapse (o : Operation) (x : Orientation) : Operation :=
  { o with orient := some x.lapsed, miss := min 15 (o.miss + 1) }

/-- What R60 makes of an operation whose slack is below M while its window is OPEN. -/
def Operation.closeWindow (o : Operation) (x : Orientation) : Operation :=
  match x.req with
  | .active => o.lapse x
  | .granted => { o with orient := some { x with windowOpen := false } }
  | .dormant => o

/-- A request whose window is OPEN while the slack is below M lapses, or its window closes (R60). -/
def State.requestLapse (s : State) (d : Drive) : State :=
  match s.op d with
  | some o =>
    match o.orient with
    | some x =>
      match s.slack d x.sector with
      | some k =>
        if x.windowOpen = true ∧ k < (s.typeOf d).setup then s.setOp d (some (o.closeWindow x)) else s
      | none => s
    | none => s
  | none => s

/-- The raising condition on the slack (R59). -/
def Orientation.raisedAt (x : Orientation) (t : DriveType) (k : Nat) : Bool :=
  if x.later then decide (k = t.lead) else decide (t.setup ≤ k) && decide (k ≤ t.lead)

/-- The orientation as it is raised (R59). -/
def Orientation.raised (x : Orientation) : Orientation :=
  { x with req := .active, windowOpen := true, deferred := PortSet.none, later := true }

/-- The drive stands on the operation's physical target (R59). -/
def State.positioned (s : State) (d : Drive) (o : Operation) : Bool :=
  decide ((s.pos d).actuator = .onCylinder) && decide (o.target.isSome = true) && decide ((s.pos d).selected = o.target)

/-- A DORMANT orientation that meets the raising condition at a mark becomes an ACTIVE request (R59). -/
def State.requestRaise (s : State) (d : Drive) : State :=
  match s.op d with
  | some o =>
    match o.orient with
    | some x =>
      match s.slack d x.sector with
      | some k =>
        if x.req = .dormant ∧ x.tested = true ∧ s.positioned d o = true ∧ x.raisedAt (s.typeOf d) k = true then
          s.setOp d (some { o with orient := some x.raised })
        else s
      | none => s
    | none => s
  | none => s

/-! ## Eligible ports and the grant order (R61, R63, R66, R67) -/

/-- The port is eligible for the operation's EXTERNAL request (R63). -/
def State.eligible (s : State) (o : Operation) (x : Orientation) (p : Port) : Bool :=
  decide ((s.port p).state = .idle) && !x.deferred.has p && o.reaches p (s.port p).group

/-- The first of the issuing port and the ports in letter order that meets a test (R67, R103). -/
def issuerFirst (issuer : Port) (ok : Port → Bool) : Option Port := if ok issuer then some issuer else allPorts.find? ok

/-- A grantable ACTIVE request as the arbiter compares it; `port` is none for an INTERNAL one. -/
structure Contender where
  drive : Drive
  urgent : Bool
  slack : Nat
  miss : Nat
  port : Option Port
  deriving DecidableEq, Repr

/-- The drive's request, when it is ACTIVE, at a slack of at least M, and grantable (R60, R63). An operation that holds a path
is granted no other (R64, log 56). -/
def State.contender (s : State) (d : Drive) : Option Contender :=
  match s.op d with
  | some o =>
    match o.orient with
    | some x =>
      match s.slack d x.sector with
      | some k =>
        let t := s.typeOf d
        let c : Contender := { drive := d, urgent := decide (t.missLimit ≤ o.miss), slack := k, miss := o.miss, port := none }
        if x.req ≠ .active ∨ k < t.setup ∨ s.usesPath d 0 = true ∨ s.usesPath d 1 = true then none
        else if x.external then (issuerFirst o.issuer (s.eligible o x)).map fun p => { c with port := some p }
        else some c
      | none => none
    | none => none
  | none => none

/-- The grant order of R66. -/
def Contender.before (a b : Contender) : Bool :=
  if a.urgent ≠ b.urgent then a.urgent
  else if a.slack ≠ b.slack then decide (a.slack < b.slack)
  else if a.miss ≠ b.miss then decide (b.miss < a.miss)
  else decide (a.drive < b.drive)

/-- The first in the grant order. -/
def firstContender : List Contender → Option Contender
  | [] => none
  | c :: rest =>
    match firstContender rest with
    | some b => if b.before c then some b else some c
    | none => some c

/-- The lowest path that is FREE (R67). -/
def State.freePath (s : State) : Option PathNo :=
  if s.path 0 = none then some 0 else if s.path 1 = none then some 1 else none

/-- The arbiter's decision: the FREE path and the request it goes to (R65, R66). -/
def State.decision (s : State) : Option (PathNo × Contender) :=
  match s.freePath, firstContender (allDrives.filterMap s.contender) with
  | some n, some c => some (n, c)
  | _, _ => none

/-! ## Grants and offers (R68, R69, R103, R150, R180) -/

/-- An INTERNAL grant: the path is held, the orientation ends, the miss count is 0 and the read or write is armed; a write
under write protect is not made and has a write check's outcome (R68, R124). -/
def State.grantInternal (s : State) (n : PathNo) (d : Drive) : State :=
  let s := (s.setPath n (some { drive := d, port := none })).modOp d fun o => { o.arm with orient := none, miss := 0 }
  match (s.op d).map Operation.work with
  | some (.writeHome _) => if (s.pos d).writeProtect then (s.freeInternalPath d).altWritten d false else s
  | some .positioning | some .recalibrating | some .readHome | some .reconnect | some .connected | some .ended | none => s

/-- A claim taken at an IDLE port: it becomes OFFERING, phase QUEUED, and an OFFER frame is produced (R150). -/
def State.makeOffer (s : State) (p : Port) (address : Nat) (o : Offer) : State :=
  s.modPort p fun r => { r with state := .offering, offer := some (o, false), link := r.link ++ [.offer address o] }

/-- An EXTERNAL grant taken by its port: the path is held for it, the request is GRANTED, and the reconnection is offered
(R69). -/
def State.grantExternal (s : State) (n : PathNo) (d : Drive) (p : Port) : State :=
  let s := (s.setPath n (some { drive := d, port := some p })).modOp d fun o =>
    { o with orient := o.orient.map fun x => { x with req := .granted } }
  s.makeOffer p ((s.port p).addressOf (.drive d)) (.reconnect d)

/-- The port may take the operation's pending status by its group or as the issuing port; an issuing port whose claim is
LOST only by its group (R103, R130). -/
def Operation.statusReaches (o : Operation) (p : Port) (group : Nat) : Bool :=
  match o.alt with
  | some a => if a.issuerHeld then o.reaches p group else decide (group ≠ 0) && decide (group = o.group)
  | none => o.reaches p group

/-- Some port is OFFERING d's pending status. -/
def State.statusOffered (s : State) (d : Drive) : Bool :=
  allPorts.any fun p => match (s.port p).offer with
    | some (.status e, _) => decide (e = d)
    | some (.reconnect _, _) | some (.notice _, _) | none => false

/-- The port that d's pending status claims now (R103). -/
def State.statusPort (s : State) (d : Drive) : Option Port :=
  match s.op d with
  | some o =>
    if o.pending.isSome = true ∧ s.statusOffered d = false then
      issuerFirst o.issuer fun p =>
        decide ((s.port p).state = .idle) && !o.statusDeferred.has p && o.statusReaches p (s.port p).group
    else none
  | none => none

/-- The notice the port's queue claims to present (R180). -/
def State.noticeClaim (s : State) (p : Port) : Option Notice :=
  if (s.port p).state = .idle ∧ (s.queue p).held = false then (s.queue p).notices.head? else none

/-- A claim that waits for a port. -/
inductive Claim where
  | reconnect (n : PathNo) (d : Drive)
  | status (d : Drive)
  | notice (n : Notice)
  deriving DecidableEq, Repr

/-- The arbiter's claim on the port, if its decision goes to it. -/
def State.grantClaim (s : State) (p : Port) : List Claim :=
  match s.decision with
  | some (n, c) => if c.port = some p then [.reconnect n c.drive] else []
  | none => []

/-- The claims that reach the port (R150). -/
def State.claims (s : State) (p : Port) : List Claim :=
  s.grantClaim p ++
  (allDrives.filter fun d => decide (s.statusPort d = some p)).map Claim.status ++
  (s.noticeClaim p).toList.map Claim.notice

/-- The drive a notice's OFFER is addressed to, or the unit (R175). -/
def Notice.conn : Notice → Conn
  | .deviceFree d | .stateChange d | .reserveBroken d | .spareAdvised d _ => .drive d
  | .rescan => .unit

/-- The address of an OFFER(STATUS): the drive's, or the unit's for an alternate operation (R156). -/
def State.statusConn (s : State) (d : Drive) : Conn := if ((s.op d).bind Operation.alt).isSome then .unit else .drive d

/-- A claim is taken by an IDLE port (R150). -/
def State.takeClaim (s : State) (p : Port) (c : Claim) : State :=
  match c with
  | .reconnect n d => s.grantExternal n d p
  | .status d => s.makeOffer p ((s.port p).addressOf (s.statusConn d)) (.status d)
  | .notice n => s.makeOffer p ((s.port p).addressOf n.conn) (.notice n)

/-- One claim on a port is taken: the only one, or, of several, one that a free value chooses (R150, log 5). -/
def State.serveOne (s : State) (p : Port) : State :=
  match s.claims p with
  | [] => s
  | [c] => s.takeClaim p c
  | c :: rest =>
    let cs := c :: rest
    let s' := s.takeClaim p (cs.getD (Config.claimChoice s.choices % cs.length) c)
    { s' with choices := s.choices + 1 }

/-- The arbiter's decision goes to an INTERNAL request. -/
def State.internalDecision (s : State) : Option (PathNo × Drive) :=
  match s.decision with
  | some (n, c) => if c.port = none then some (n, c.drive) else none
  | none => none

/-- Decisions and claims until none is left: each round uses up a drive's ACTIVE request or an IDLE port, so twelve
rounds are enough (R65, R67, R150). -/
def State.serveRounds (s : State) : Nat → State
  | 0 => s
  | fuel + 1 =>
    match s.internalDecision with
    | some (n, d) => (s.grantInternal n d).serveRounds fuel
    | none =>
      match allPorts.find? fun p => !(s.claims p).isEmpty with
      | some p => (s.serveOne p).serveRounds fuel
      | none => s

/-- Every claim that can be taken is taken (R65, R150). -/
def State.serveClaims (s : State) : State := s.serveRounds 12

/-! ## An offer deferred or withdrawn (R71, R72, R103, R151, R182) -/

/-- The operation's orientation after a DEFER from this port (R71). -/
def Operation.deferredBy (o : Operation) (p : Port) : Operation :=
  match o.orient with
  | some x =>
    if x.windowOpen then { o with orient := some { x with req := .active, deferred := x.deferred.add p } } else o.lapse x
  | none => o

/-- A DEFER from the port, or a withdrawal that counts as one (R71, R72, R103, R151, R182). -/
def State.deferOffer (s : State) (p : Port) : State :=
  match (s.port p).offer with
  | some (.reconnect d, _) => ((s.dropOffer p).freePathOfPort p).modOp d fun o => o.deferredBy p
  | some (.status d, _) => (s.dropOffer p).modOp d fun o => { o with statusDeferred := o.statusDeferred.add p }
  | some (.notice _, _) =>
    let s := s.dropOffer p
    s.setQueue p { s.queue p with held := true }
  | none => s

/-! ## Around every command (log 4, log 5) -/

/-- What the drive's last mark brings about (R59, R60, R168, R80, R82, R87). -/
def State.consequences (s : State) (d : Drive) : State :=
  (((((s.requestLapse d).requestRaise d).holdExpire d).idleExpire d).searchBound d).searchLimit d

/-- The consequences of the last mark, not yet taken, are taken before anything else happens (log 4). -/
def State.settle (s : State) : State :=
  match s.due with
  | some d => (({ s with due := none } : State).consequences d).serveClaims
  | none => s

/-- A mark passes at the operation: it counts since the arming (R2), and an orientation handed before it may now be raised
(R59). -/
def Operation.markPasses (o : Operation) : Operation :=
  { o with marksSince := o.marksSince + 1, orient := o.orient.map fun x => { x with tested := true } }

/-- A mark of the drive reaches the fields that start in its sector (R2, R10), and what it brings about is due (log 4). -/
def State.marked (s : State) (d : Drive) : State := { s.modOp d Operation.markPasses with due := some d }

/-- A command of the outside: the last mark's consequences first, then its own effect, then the claims it leaves possible.
Before POWER_ON nothing is answered (R189). -/
def State.perform (s : State) (f : State → State) : Host.Outcome State Fault Refusal :=
  .next (if s.powered then (f s.settle).serveClaims else s)

/-- An inner event of drive d, which is itself one of the consequences of d's last mark: those stay due (log 4). -/
def State.performInner (s : State) (d : Drive) (f : State → State) : Host.Outcome State Fault Refusal :=
  .next (if s.powered then (f (if s.due = some d then s else s.settle)).serveClaims else s)

/-! ## The timebase (log 3) -/

/-- The time of an armed timer has come. -/
def isOver (now : Nat) (timer : Option Nat) : Bool :=
  match timer with
  | some e => decide (e ≤ now)
  | none => false

/-- The unit idle timer of a port, when its time has come, expires: its connection with the unit address ends (R148). -/
def State.unitIdleExpire (s : State) (p : Port) : State :=
  if isOver s.now (s.port p).idleTimer then s.endConnection p else s

/-- The seek deadline of a drive, when the timebase has reached its expiry time, expires (R38). -/
def State.deadlineExpire (s : State) (d : Drive) : State :=
  if isOver s.now (s.pos d).deadline then
    (s.modPos d fun q => { q with deadline := none, unanswered := min 2 (q.unanswered + 1) }).motionFailure d
  else s

/-- One millisecond passes on the unit's timebase: deadlines and timers whose time has come expire (R38, R148). -/
def State.tick (s : State) : State :=
  let s := s.settle
  let s : State := { s with now := s.now + 1 }
  ((s.forDrives State.deadlineExpire).forPorts State.unitIdleExpire).serveClaims

/-- So many milliseconds pass, one after the other, so that everything due on the way expires in its order. -/
def State.passTime (s : State) (n : Nat) : State := Nat.iterate State.tick n s

/-- The timebase reaches the expiry time of an armed timer, if it has not yet (log 3). -/
def State.reachTime (s : State) (timer : Option Nat) : State :=
  match timer with
  | some e => s.passTime (e - s.now)
  | none => s

end Sys2Proof.Machine
end

