-- ==== Sys2Proof/Machine/Selection.lean ====
section
/-! DEFINITION. How a SELECT or a COMMAND reaches the drive or the unit it names, and the refusals on its way (R78, R141, R143,
R146, R147, R151, R160, R185). -/

namespace Sys2Proof.Machine

open Sys2Proof

/-! ## Where a command is taken -/

/-- Where a command or order is taken. -/
inductive Place where
  /-- nowhere: the port has discarded or refused the frame -/
  | nowhere
  /-- as the first command of a SELECT that opened a connection with this -/
  | first (c : Conn)
  /-- as a COMMAND in a standing connection with this -/
  | within (c : Conn)
  deriving DecidableEq, Repr

/-- A connection opened by a SELECT at an IDLE port (R146). -/
def State.openConnection (s : State) (p : Port) (c : Conn) : State :=
  s.modPort p fun r => { r with state := .connected, conn := some c }

/-- HELD PORT-BUSY, with DISCONNECT where the port is not connected once it has left (R143, R149). -/
def State.portBusy (s : State) (p : Port) (c : Conn) (disconnected : Bool) : State :=
  let st := Status.heldFor .portBusy
  s.sendStatus p c (if disconnected then st.disc else st) false

/-- The operation of drive d that is connected on port p. -/
def State.opOn (s : State) (d : Drive) (p : Port) : Option Operation :=
  match s.op d with
  | some o => if o.conn = some p then some o else none
  | none => none

/-- HELD PORT-BUSY at a CONNECTED port is a STATUS that may leave the connection standing. With the unit address it then rearms
the idle timer, unless an order is unanswered (R143, R147, R148); in a connection that holds an operation the idle count is
set to 0 (R80). -/
def State.busyConnected (s : State) (p : Port) (c : Conn) : State :=
  let ends := (s.port p).ending || (s.port p).draining
  let t := s.portBusy p c ends
  if ends then t
  else match (s.port p).conn with
    | some .unit => if (s.port p).answer = none then t.armIdle p else t
    | some (.drive d) => if (s.opOn d p).isSome then t.modOp d fun o => { o with idle := 0 } else t
    | none => t

/-- FAULT COMMAND REJECT, detail NO-CONNECTION, DISCONNECT, at a port that is not connected (R143). -/
def State.noConnection (s : State) (p : Port) (c : Conn) : State :=
  s.sendStatus p c (Status.faultOf .commandReject .noConnection 0).disc false

/-- FAULT COMMAND REJECT in a unit-address connection; an order not yet answered runs on to its own STATUS (R147, R186). -/
def State.unitRefuse (s : State) (p : Port) : State :=
  if (s.port p).answer.isSome then s.sendStatus p .unit (.faultOf .commandReject .none 0) false else s.unitReject p 0

/-- FAULT COMMAND REJECT in a drive connection that holds no operation: a command still in progress is stopped, the STATUS
carries DISCONNECT, no hold follows (R78, R79, R166). A DATA frame of it that has not left is discarded (logs 28 and 73). -/
def State.bareReject (s : State) (p : Port) (d : Drive) : State :=
  (s.modPort p fun r => { r.emptied with awaiting := false }).reply p d (.faultOf .commandReject .none 0)

/-- FAULT COMMAND REJECT in a drive connection: a command in progress is stopped, and the connection and its operation end
(R78, R79, R147). -/
def State.refuseWithin (s : State) (d : Drive) (p : Port) (e : StopEnd) : State :=
  if (s.opOn d p).isSome then s.stopCommand d p e else s.bareReject p d

/-- The same with the residual of the stopped command, and a hold or none (R78, R166). -/
def State.rejectWithin (s : State) (d : Drive) (p : Port) (hold : Bool) : State := s.refuseWithin d p (.rejected hold)

/-- A COMMAND in a connection that is being set aside, or whose ending STATUS has not left: refused, with nothing else
changed (log 18, log 34). -/
def State.refuseEnding (s : State) (p : Port) (c : Conn) : State :=
  s.sendStatus p c (Status.faultOf .commandReject .none 0).disc false

/-- A COMMAND at a CONNECTED port (R147). One whose answered address is not the connection's is refused as R147 gives, whatever
command it carries: in a connection with a drive the residual is that of the command stopped, for READ DRIVE TABLES too (model's
choice, log 51). -/
def State.commandAt (s : State) (p : Port) (c : Conn) : State × Place :=
  match (s.port p).conn with
  | some c' =>
    if (s.port p).draining = true ∨ (s.port p).ending = true then (s.refuseEnding p c', .nowhere)
    else if c = c' then (s, .within c)
    else match c' with
      | .drive d => (s.rejectWithin d p true, .nowhere)
      | .unit => (s.unitRefuse p, .nowhere)
  | none => (s, .nowhere)

/-- The phase of the port's offer is SENT (R150). -/
def PortRec.sent (r : PortRec) : Bool :=
  match r.offer with
  | some (_, b) => b
  | none => false

/-- A SELECT by port state (R143, R146, R151). -/
def State.selectAt (s : State) (p : Port) (c : Conn) : State × Place :=
  match (s.port p).state with
  | .disabled => (s, .nowhere)
  | .idle => (s.openConnection p c, .first c)
  | .connected => (s.busyConnected p c, .nowhere)
  | .offering =>
    if (s.port p).sent then (s.portBusy p c true, .nowhere) else ((s.deferOffer p).openConnection p c, .first c)
  | .resetting => (s.portBusy p c true, .nowhere)

/-- A SELECT or COMMAND as far as the command it carries: the window (R141), the port state (R143) and the connection
(R146, R147, R151). -/
def State.receive (s : State) (h : Hdr) : State × Place :=
  if (s.port h.port).state = .disabled then (s, .nowhere)
  else match (s.port h.port).named h.address with
    | none => (s, .nowhere)
    | some c =>
      match h.via with
      | .select => s.selectAt h.port c
      | .command =>
        match (s.port h.port).state with
        | .idle | .offering => (s.noConnection h.port c, .nowhere)
        | .connected => s.commandAt h.port c
        | .disabled | .resetting => (s, .nowhere)

/-! ## Drive commands (R78, R160) -/

/-- Admission; a HELD adds the port to the owed set, and either refusal ends the connection (R160, R161). -/
def State.passAdmission (s : State) (d : Drive) (p : Port) (st : Steps) (k : State → State) : State :=
  match s.admission d p st with
  | .admitted => k s
  | .fault f => s.reply p d (.faultOf f .none 0)
  | .held r => (s.oweCommand d p).reply p d (.heldFor r)

/-- Admission of a command that ends the port's own hold once admitted (R160, R168, log 32). -/
def State.admitEnding (s : State) (d : Drive) (p : Port) (k : State → State) : State :=
  s.passAdmission d p .all fun s => k (s.endOwnHold d p)

/-- The fault record of a drive command that opened no operation: drive and record number only (R167, log 11). -/
def FaultRecord.refused (d : Drive) (record : Nat) : FaultRecord :=
  { FaultRecord.empty with kind := some .commandReject, drive := d, record := record }

/-- A drive command refused by its own checks after admission: COMMAND REJECT, DISCONNECT, and a hold (R78, R166). -/
def State.rejectHolding (s : State) (d : Drive) (p : Port) (record : Nat) : State :=
  (s.reply p d (.faultOf .commandReject .none 0)).beginHold d p (FaultRecord.refused d record)

/-- A command as the first of a SELECT that R78 refuses there, after admission (log 10). -/
def State.neverFirst (s : State) (d : Drive) (p : Port) : State := s.admitEnding d p fun s => s.rejectHolding d p 0

/-- The three places of R78 for a drive command: as the first of a SELECT, in a connection whose operation has no command in
progress, and in a connection without an operation. A drive command at the unit address is refused, and the connection stands,
with its idle timer armed, also where a SELECT has just opened it (R185, log 47). `hold`: a FAULT COMMAND REJECT of this
command gives a hold (R166, log 30). -/
def State.driveCommand (s : State) (h : Hdr) (hold : Bool) (first : State → Drive → State)
    (within : State → Drive → Operation → State) (bare : State → Drive → State) : State :=
  match s.receive h with
  | (s, .nowhere) => s
  | (s, .first .unit) | (s, .within .unit) => s.unitRefuse h.port
  | (s, .first (.drive d)) => first s d
  | (s, .within (.drive d)) =>
    match s.opOn d h.port with
    | some o => if o.cmd.isSome then s.rejectWithin d h.port hold else within s d o
    | none =>
      if (s.port h.port).answer.isSome = true ∨ (s.port h.port).awaiting = true then s.bareReject h.port d else bare s d

/-- A drive command that R78 refuses in every standing connection. -/
def State.selectOnly (s : State) (h : Hdr) (first : State → Drive → State) : State :=
  s.driveCommand h true first (fun s d _ => s.rejectWithin d h.port true) (fun s d => s.bareReject h.port d)

/-- A drive command that belongs to an operation's connection (R78). -/
def State.operationOnly (s : State) (h : Hdr) (within : State → Drive → Operation → State) : State :=
  s.driveCommand h true (fun s d => s.neverFirst d h.port) within (fun s d => s.bareReject h.port d)

/-- A drive command of chapter 9, taken without an operation in its connection; `hold` as R166 says (R78, log 30). -/
def State.sharingCommand (s : State) (h : Hdr) (hold : Bool) (take : State → Drive → State) : State :=
  s.driveCommand h hold take (fun s d _ => s.rejectWithin d h.port hold) take

/-! ## Unit orders (R147, R185) -/

/-- A unit order in its connection; the idle timer stops while it is unanswered (R148). It counts as answered when its STATUS
is produced (R147, model's choice, log 66). `e` is how it is refused in a connection with a drive. -/
def State.unitOrderAs (s : State) (h : Hdr) (e : StopEnd) (take : State → State) : State :=
  match s.receive h with
  | (s, .nowhere) => s
  | (s, .first (.drive d)) => s.neverFirst d h.port
  | (s, .within (.drive d)) => s.refuseWithin d h.port e
  | (s, .first .unit) => take (s.modPort h.port fun r => { r with idleTimer := none })
  | (s, .within .unit) =>
    if (s.port h.port).answer.isSome then s.unitRefuse h.port
    else take (s.modPort h.port fun r => { r with idleTimer := none })

/-- A unit order that R78 refuses in a connection with a drive, with the residual of a command in progress there. -/
def State.unitOrder (s : State) (h : Hdr) (take : State → State) : State := s.unitOrderAs h (.rejected true) take

/-- A unit order tested for the control strap first (R185). -/
def State.controlOrder (s : State) (h : Hdr) (take : State → State) : State :=
  s.unitOrder h fun s => if (s.port h.port).straps.control then take s else s.unitReject h.port 0

/-- A unit order held off: the port joins the owed sets of the drives that refused it, marked ORDER (R161, R186). -/
def State.unitHeld (s : State) (p : Port) (r : Reason) (ds : List Drive) : State :=
  (ds.foldl (fun s d => s.oweOrder d p) s).unitStatus p (.heldFor r)

/-- STATUS DONE of a unit order (R146). -/
def State.unitDone (s : State) (p : Port) : State := s.unitStatus p (.doneWith 0)

/-! ## New operations (R77, R124) -/

/-- An operation record as it is created (R77). -/
def Operation.fresh (kind : OpKind) (issuer : Port) (group : Nat) (logical : Option Track) : Operation :=
  { kind := kind, issuer := issuer, group := group, logical := logical, record := 0, sector := 0, target := none,
    expected := none, entry := none, recovery := false, miss := 0, orient := none, work := .positioning,
    reconnected := false, conn := none, cmd := none, current := none,
    leaving := PortSet.none, marksSince := 0, lost := false, keyCheck := false,
    byteCount := 0, accounted := 0, retries := 0, rereads := 0, rereadDue := false, reported := [], searchIndex := 0, idle := 0, pending := none,
    statusDeferred := PortSet.none, alt := none }

/-- The further items of an alternate operation as it is created (R124); `entry` is the spare-map entry of the home track. -/
def AltOp.begun (step : AltStep) (entry : Option SpareEntry) : AltOp :=
  { step := step, writePassed := false, candidate := none, tried := 0, hasEntry := entry.isSome, fresh := false,
    old := entry.bind SpareEntry.current, issuerHeld := true, marked := none, retired := none, firstFault := none }

end Sys2Proof.Machine
end

