-- ==== Sys2Proof/Machine/DriveCommands.lean ====
section
/-! DEFINITION. The drive commands, codes 0x10 to 0x1A, and unknown codes (chapters 5 and 9). -/

namespace Sys2Proof.Machine

open Sys2Proof

/-! ## LOCATE and RECALIBRATE -/

/-- LOCATE's operation record, translated (R81, R56, R109). -/
def State.locateRecord (s : State) (d : Drive) (p : Port) (t : Track) (record sector : Nat) : Operation :=
  let x := s.translate d t
  { Operation.fresh .locate p (s.port p).group (some t) with
    record := record, sector := if record = 0 then 0 else sector % (s.typeOf d).sectors,
    target := some x.target, expected := some x.expected, entry := x.entry }

/-- LOCATE after admission (R81). -/
def State.takeLocate (s : State) (d : Drive) (p : Port) (t : Track) (record sector : Nat) : State :=
  if (s.typeOf d).isHome t = false then s.rejectHolding d p record
  else
    ((s.setOp d (some (s.locateRecord d p t record sector))).sendStatus p (.drive d) Status.accepted true).position d

/-- LOCATE (R81). -/
def execLocate (h : Hdr) (t : Track) (record sector : Nat) (s : State) : Host.Outcome State Fault Refusal :=
  s.perform fun s => s.selectOnly h fun s d => s.admitEnding d h.port fun s => s.takeLocate d h.port t record sector

/-- RECALIBRATE after admission (R100). -/
def State.takeRecalibrate (s : State) (d : Drive) (p : Port) : State :=
  let o := { Operation.fresh .recalibrate p (s.port p).group none with work := .recalibrating }
  ((s.setOp d (some o)).sendStatus p (.drive d) Status.accepted true).beginRecalibrate d

/-- RECALIBRATE (R100, R49). -/
def execRecalibrate (h : Hdr) (s : State) : Host.Outcome State Fault Refusal :=
  s.perform fun s => s.selectOnly h fun s d => s.admitEnding d h.port fun s => s.takeRecalibrate d h.port

/-! ## The commands of an operation's connection -/

/-- The ID field that a SEARCH taken now waits for (R83, R84): the one that passes next after the current record's, after the
last record of the track the first one after the INDEX MARK; with no current record on the track, the first one after the
next INDEX MARK (log 50). -/
def Operation.nextRecord (o : Operation) : Awaited :=
  match o.currentHere with
  | some r => .after r.start
  | none => .afterIndex

/-- SEARCH in its connection: the next record's ID field and key are armed (R85, R87, R84). -/
def State.takeSearch (s : State) (d : Drive) (p : Port) (o : Operation) (condition : Nat) (argument : List Byte) : State :=
  match searchCondOf condition with
  | some c =>
    if argument.length < 1 ∨ 32 < argument.length then s.faultInConnection d p o .commandReject .none 0 none
    else if 2 ≤ o.searchIndex then s.faultInConnection d p o .notFound .none 0 none
    else (s.modOp d fun o => o.newField.arm).setCmd d (.search c argument (.id o.nextRecord))
  | none => s.faultInConnection d p o .commandReject .none 0 none

/-- SEARCH (R85). -/
def execSearch (h : Hdr) (condition : Nat) (argument : List Byte) (s : State) : Host.Outcome State Fault Refusal :=
  s.perform fun s => s.operationOnly h fun s d o => s.takeSearch d h.port o condition argument

/-- READ in its connection (R89). It is taken where a current record exists (R78), also where that lies on another track than the
operation's logical one, a spanning READ having crossed to a last track without records and ended with END-CYL: it then waits
for a data field at the old record's place (model's choice, log 74). -/
def State.takeRead (s : State) (d : Drive) (p : Port) (o : Operation) (count span : Nat) : State :=
  if o.current = none ∨ count = 0 then s.faultInConnection d p o .commandReject .none 0 none
  else
    let r : ReadCmd := { span := spanOf span, phase := .data, got := 0, formed := 0, forming := [], sentTo := 0 }
    s.modOp d fun o => { o.newField.arm with byteCount := count, accounted := 0, leaving := PortSet.none, cmd := some (.read r) }

/-- READ (R89). -/
def execRead (h : Hdr) (count span : Nat) (s : State) : Host.Outcome State Fault Refusal :=
  s.perform fun s => s.operationOnly h fun s d o => s.takeRead d h.port o count span

/-- Host writes are refused by the drive record or by the write-protect setting (R28, R92 steps 2 and 3). -/
def State.notWritable (s : State) (d : Drive) : Bool := !(s.record d).writePermitted || (s.pos d).writeProtect

/-- WRITE in its connection (R92, R93). Where the current record lies on another track than the operation's logical one it is
taken as a READ is: the old record gives its data length and the place of the field awaited (model's choice, log 74). -/
def State.takeWrite (s : State) (d : Drive) (p : Port) (o : Operation) (count : Nat) : State :=
  match o.current with
  | none => s.faultInConnection d p o .commandReject .none 0 none
  | some f =>
    if count = 0 then s.faultInConnection d p o .commandReject .none 0 none
    else if s.notWritable d then s.faultInConnection d p o .notWritable .none count none
    else
      let n := min count f.id.dataLength
      let w : WriteCmd := { need := n, bytes := [], toAsk := [(0, n)], seek := none, begun := false, zeroFill := false, stop := none }
      (s.modOp d fun o => { o.newField.arm with byteCount := count, accounted := 0, cmd := some (.write w) }).requestBytes d p 2

/-- WRITE (R92). -/
def execWrite (h : Hdr) (count : Nat) (s : State) : Host.Outcome State Fault Refusal :=
  s.perform fun s => s.operationOnly h fun s d o => s.takeWrite d h.port o count

/-- The home field FORMAT TRACK writes: the selected track and the condition its status holds (R4, R94). With the track status
UNKNOWN, as the write left over from another operation may make it, there is none to write (model's choice, log 64). -/
def Positioner.homeField (q : Positioner) : Option HomeField :=
  match q.selected, q.status with
  | some t, some c => some { address := t, condition := c }
  | _, _ => none

/-- The fields of a record that starts at byte q: its ID field, then zero key bytes and zero data bytes under one check (R94,
R7, log 9). -/
def Descriptor.fields (t : Track) (q : Nat) (x : Descriptor) : List FormatField :=
  [.id { start := q, id := { address := t, number := x.number, keyLength := x.keyLength, dataLength := x.dataLength } },
   .keyData (List.replicate x.keyLength 0) (List.replicate x.dataLength 0)]

/-- The fields of the records in list order, each record starting where the one before it ends (R1, R94). -/
def formatFields (t : Track) : Nat → List Descriptor → List FormatField
  | _, [] => []
  | q, x :: rest => Descriptor.fields t q x ++ formatFields t (q + recordLength x.keyLength x.dataLength) rest

/-- The list of descriptors passes R94's second check. -/
def State.formatFits (s : State) (d : Drive) (ds : List Descriptor) : Bool :=
  ds.all (fun x => decide (1 ≤ x.number ∧ x.number ≤ 255)) && (s.typeOf d).fits ds

/-- FORMAT TRACK in its connection (R94). -/
def State.takeFormat (s : State) (d : Drive) (p : Port) (o : Operation) (ds : List Descriptor) : State :=
  if o.record ≠ 0 ∨ o.current ≠ none then s.faultInConnection d p o .commandReject .none 0 none
  else if s.formatFits d ds = false then s.faultInConnection d p o .commandReject .none 0 none
  else if s.notWritable d then s.faultInConnection d p o .notWritable .none 0 none
  else
    let fields := (s.pos d).homeField.toList.map FormatField.home ++ formatFields o.home firstStart ds
    (s.modOp d fun o => o.newField.arm).setCmd d (.format { fields := fields, last := none, begun := false, stop := none })

/-- FORMAT TRACK (R94). -/
def execFormatTrack (h : Hdr) (ds : List Descriptor) (s : State) : Host.Outcome State Fault Refusal :=
  s.perform fun s => s.operationOnly h fun s d o => s.takeFormat d h.port o ds

/-! ## READ DRIVE STATE -/

/-- READ DRIVE STATE without an operation in its connection: not admitted, answered at once (R101). -/
def State.driveStateAnswer (s : State) (d : Drive) (p : Port) : State := s.answerData p (.drive d) (s.driveStateBytes d)

/-- READ DRIVE STATE (R101). -/
def execReadDriveState (h : Hdr) (s : State) : Host.Outcome State Fault Refusal :=
  s.perform fun s => s.driveCommand h false (fun s d => s.driveStateAnswer d h.port)
    (fun s d _ => (s.setCmd d .driveState).driveStateAnswer d h.port) (fun s d => s.driveStateAnswer d h.port)

/-! ## The commands of chapter 9 -/

/-- READ FAULT RECORD after admission: the record is copied, then the port's own hold ends (R169, R168). -/
def State.takeFaultRecord (s : State) (d : Drive) (p : Port) : State :=
  let bytes := match (s.share d).hold with
    | some x => if x.port = p then x.record.bytes else FaultRecord.empty.bytes
    | none => FaultRecord.empty.bytes
  (s.endOwnHold d p).answerData p (.drive d) bytes

/-- READ FAULT RECORD (R169). -/
def execReadFaultRecord (h : Hdr) (s : State) : Host.Outcome State Fault Refusal :=
  s.perform fun s => s.sharingCommand h false fun s d =>
    s.passAdmission d h.port (s.faultRecordSteps d h.port) fun s => s.takeFaultRecord d h.port

def State.setOwner (s : State) (d : Drive) (g : Option Nat) : State := s.modShare d fun x => { x with owner := g }

/-- RESERVE after admission (R162). -/
def State.takeReserve (s : State) (d : Drive) (p : Port) : State :=
  let g := (s.port p).group
  if g = 0 then s.rejectHolding d p 0 else (s.setOwner d (some g)).reply p d (.doneWith 0)

/-- RESERVE (R162). -/
def execReserve (h : Hdr) (s : State) : Host.Outcome State Fault Refusal :=
  s.perform fun s => s.sharingCommand h true fun s d => s.admitEnding d h.port fun s => s.takeReserve d h.port

/-- RELEASE after admission: the owner is cleared when it is the port's group, then the port's own hold ends, and the test
of R170 is made once when either happened (R163). -/
def State.takeRelease (s : State) (d : Drive) (p : Port) : State :=
  let clears : Bool := decide ((s.share d).owner = some (s.port p).group)
  let held := s.heldBy d p
  let s := if clears then s.setOwner d none else s
  let s := if held then s.dropHold d else s
  let s := if clears || held then s.owedTest d else s
  s.reply p d (.doneWith 0)

/-- RELEASE (R163). -/
def execRelease (h : Hdr) (s : State) : Host.Outcome State Fault Refusal :=
  s.perform fun s => s.sharingCommand h false fun s d => s.passAdmission d h.port .release fun s => s.takeRelease d h.port

/-- Step 1 of R165: the operation in flight is aborted, or, connected, stopped as HALT stops it. A write that is already being
stopped keeps the end it was given (model's choice, log 71). -/
def State.breakOperation (s : State) (d : Drive) : State :=
  match s.op d with
  | some o =>
    match o.conn with
    | some q => s.stopCommand d q .halted
    | none => (s.abortQuietly d).answerWaiting d
  | none => s

/-- Step 2 of R165: a hold by a port of another group is dropped; the port's own ends, this being its next command. -/
def State.breakHold (s : State) (d : Drive) (p : Port) : State :=
  match (s.share d).hold with
  | some x => if x.port = p ∨ (s.port x.port).group ≠ (s.port p).group then s.dropHold d else s
  | none => s

/-- Step 4 of R165: RESERVE-BROKEN to the ports of the previous owner. -/
def State.postBroken (s : State) (d : Drive) (previous : Option Nat) (group : Nat) : State :=
  match previous with
  | some g =>
    if g = group then s
    else s.forPorts fun s q =>
      let r := s.port q
      if r.group = g ∧ r.state ≠ .disabled ∧ r.state ≠ .resetting then s.post q (.reserveBroken d) else s
  | none => s

/-- The five effects of R165 in their order, then DONE, or the wait for the operation's end. The owed set is kept aside
through step 1, for no test of R170 is made for its ports. -/
def State.breakReservation (s : State) (d : Drive) (p : Port) : State :=
  let g := (s.port p).group
  let owed := (s.share d).owed
  let previous := (s.share d).owner
  let s := s.modShare d fun x => { x with owed := Vector.replicate 4 none }
  let s := ((s.breakOperation d).breakHold d p).setOwner d (some g)
  let s := s.postBroken d previous g
  let s := (s.modShare d fun x => { x with owed := owed }).freeAllOwed d (some p)
  if (s.op d).isSome then s.modPort p fun r => { r with awaiting := true } else s.reply p d (.doneWith 0)

/-- The operation in flight is one that RESERVE UNCONDITIONAL from the port aborts, or there is none (R164). -/
def State.breakable (s : State) (d : Drive) (p : Port) : Bool :=
  match s.op d with
  | some o => decide (o.group ≠ (s.port p).group) && o.abortable
  | none => true

/-- RESERVE UNCONDITIONAL after admission at steps 1 and 2 (R164, R165). The HELD BUSY of its own check marks the port COMMAND,
as an answer of admission does (log 44). -/
def State.takeReserveUnconditional (s : State) (d : Drive) (p : Port) : State :=
  if (s.port p).straps.control = false ∨ (s.port p).group = 0 then s.reply p d (.faultOf .commandReject .none 0)
  else if s.breakable d p then s.breakReservation d p
  else (s.oweCommand d p).reply p d (.heldFor .busy)

/-- RESERVE UNCONDITIONAL (R164, R165). -/
def execReserveUnconditional (h : Hdr) (s : State) : Host.Outcome State Fault Refusal :=
  s.perform fun s => s.sharingCommand h false fun s d =>
    s.passAdmission d h.port .ready fun s => s.takeReserveUnconditional d h.port

/-! ## Unknown codes (R144, R160, R166) -/

/-- A code whose FAULT COMMAND REJECT gives no hold: READ DRIVE STATE, READ FAULT RECORD, RESERVE UNCONDITIONAL, RELEASE
with parameters they do not take (R166). -/
def exemptCode (code : Nat) : Bool := code == 0x16 || code == 0x17 || code == 0x19 || code == 0x1A

/-- A code the drive does not know, or one whose parameter field does not fit, as the first of a SELECT: admission as the
code's command has it, then COMMAND REJECT (R144, R160). -/
def State.unknownFirst (s : State) (d : Drive) (p : Port) (code : Nat) : State :=
  let reject : State → State := fun s => s.reply p d (.faultOf .commandReject .none 0)
  match code with
  | 0x16 => reject s
  | 0x17 => s.passAdmission d p (s.faultRecordSteps d p) fun s => reject (s.endOwnHold d p)
  | 0x19 => s.passAdmission d p .ready reject
  | 0x1A => s.passAdmission d p .release fun s => reject (s.endOwnHold d p)
  | _ => s.neverFirst d p

/-- An unknown code, or a code with parameters whose length does not fit it (R144). -/
def execUnknownCommandCode (h : Hdr) (code : Nat) (_params : List Byte) (s : State) : Host.Outcome State Fault Refusal :=
  s.perform fun s => s.driveCommand h (!exemptCode code) (fun s d => s.unknownFirst d h.port code)
    (fun s d _ => s.rejectWithin d h.port (!exemptCode code)) (fun s d => s.bareReject h.port d)

end Sys2Proof.Machine
end

