-- ==== Sys2Proof/Machine/DriveEvents.lean ====
section
/-! DEFINITION. The drive-side events (R10): marks, motion answers, ready and write-protect changes, fields read and written. -/

namespace Sys2Proof.Machine

open Sys2Proof

/-- While a drive is NOT READY every event from it but READY GAINED is discarded (R10). -/
def State.fromReady (s : State) (d : Drive) (f : State → State) : State :=
  if (s.pos d).actuator = .notReady then s else f s

/-! ## Marks (R11, R55) -/

/-- SECTOR MARK: the counter, and the fields that start in its sector (R11, R55, R2, R10). -/
def execSectorMark (d : Drive) (s : State) : Host.Outcome State Fault Refusal :=
  s.perform fun s => s.fromReady d fun s => (s.sectorPasses d).marked d

/-- INDEX MARK: the counter, the hold timer, the fields that start in sector 0, and the counts and waits of a connection; what
these arm is armed after the mark (R11, R55, R168, R2, R117, R80, R87). -/
def execIndexMark (d : Drive) (s : State) : Host.Outcome State Fault Refusal :=
  s.perform fun s => s.fromReady d fun s => (((s.indexPasses d).holdTick d).marked d).indexAtConnection d

/-! ## Answers to motion orders (R35) -/

/-- An answer to a motion order, attributed as R35 says: to an order that has expired, to the outstanding one, or to none. -/
def State.motionAnswer (s : State) (d : Drive) (f : State → State) : State :=
  if 0 < (s.pos d).unanswered then s.modPos d fun q => { q with unanswered := q.unanswered - 1 }
  else if (s.pos d).inMotion then f s
  else s

/-- ON-CYLINDER (R41). -/
def execOnCylinder (d : Drive) (s : State) : Host.Outcome State Fault Refusal :=
  s.perform fun s => s.fromReady d fun s => s.motionAnswer d fun s => s.motionSuccess d

/-- SEEK-INCOMPLETE (R42, R43). -/
def execSeekIncomplete (d : Drive) (s : State) : Host.Outcome State Fault Refusal :=
  s.perform fun s => s.fromReady d fun s => s.motionAnswer d fun s => s.motionFailure d

/-! ## Ready changes (R50, R51, R171, R172) -/

/-- READY GAINED reaches the positioner only in NOT READY (R51, R108, R138, R172). -/
def State.gainReady (s : State) (d : Drive) : State :=
  if (s.pos d).actuator = .notReady then
    (((s.modPos d Positioner.readyGained).staleEntries d).removeSuspectsOf d).postStateChange s d
  else s

/-- READY GAINED (R51, R172). -/
def execReadyGained (d : Drive) (s : State) : Host.Outcome State Fault Refusal := s.perform fun s => s.gainReady d

/-- A write left to be finished ends where the drive stopped, and with it the reset that waited (R104, R155). -/
def State.dropFinishing (s : State) (d : Drive) : State :=
  match s.finish d with
  | some f =>
    let s := s.setFinish d none
    match f.port with
    | some p => s.endReset p
    | none => s
  | none => s

/-- The command in progress is being stopped by a CLOSE, which sends no STATUS (R80). -/
def Operation.isClosing (o : Operation) : Bool :=
  match o.cmd with
  | some (.write w) => decide (w.stop = some .closed)
  | some (.format f) => decide (f.stop = some .closed)
  | some (.locate _) | some (.search _ _ _) | some (.read _) | some .driveState | none => false

/-- READY LOST at a connection with the drive that holds no operation: its buffer is emptied, and FAULT NOT READY ends it, a
RESERVE UNCONDITIONAL that waits among its commands (R10, R104, R105, log 49). One that is being set aside holds nothing of
the drive any more, and its last frames leave (R118, log 39); one whose ending STATUS is produced ends by it. -/
def State.losePort (s : State) (d : Drive) (p : Port) : State :=
  let r := s.port p
  if r.conn = some (.drive d) ∧ s.opOn d p = none ∧ r.draining = false ∧ r.ending = false then
    (s.modPort p fun r => { r.emptied with awaiting := false }).reply p d (.faultOf .notReady .none 0)
  else s

/-- READY LOST at the operation in flight: FAULT NOT READY to the connected port, or kept as a pending status in place of any
other; an alternate operation is aborted as R134 gives, one that has ended and keeps its status among them (R104, R171, log
20, log 22, log 29). A write stopped by HALT or a refused COMMAND that waits for FIELD WRITTEN ends with FAULT NOT READY in
place of its own answer (model's choice, log 67). The residual counts the bytes of a field in progress that were sent, also for an
operation set aside (R90, R171, log 72). A connection set aside whose frames are still leaving is let run dry (log
39). -/
def State.loseOperation (s : State) (d : Drive) : State :=
  match s.op d with
  | some o =>
    match o.conn, o.alt with
    | some p, _ =>
      if o.isClosing then s.finishStopped d p .closed 0
      else (s.modPort p PortRec.emptied).faultInConnection d p o .notReady .none o.stopResidual none
    | none, some _ => ((s.withdrawOffersOf d).undoAlternate d).endAlternate d (.fault .notReady .none)
    | none, none =>
      (s.withdrawOffersOf d).keepPending d (Status.faultOf .notReady .none o.stopResidual).disc none
  | none => s

/-- READY LOST in the blocks that own the state (R50, R76, R104, R105, R171). A port owed DEVICE-FREE and due STATE-CHANGE gets
DEVICE-FREE first (log 46). -/
def State.loseReady (s : State) (d : Drive) : State :=
  let before := s
  let s := ((s.setPos d Positioner.notReady).dropFinishing d).forPorts fun s p => s.losePort d p
  let s := (s.loseOperation d).freePaths fun h => decide (h.drive = d)
  let s := s.modShare d fun x => { x with owner := none, hold := none }
  (s.freeAllOwed d none).postStateChange before d

/-- READY LOST (R50, R104, R171). -/
def execReadyLost (d : Drive) (s : State) : Host.Outcome State Fault Refusal :=
  s.perform fun s => s.fromReady d fun s => s.loseReady d

/-- WRITE-PROTECT CHANGE (R14). -/
def execWriteProtectChange (d : Drive) (on : Bool) (s : State) : Host.Outcome State Fault Refusal :=
  s.perform fun s => s.fromReady d fun s => s.modPos d fun q => { q with writeProtect := on }

/-! ## Fields read (R8, R13) -/

/-- A home field read good at an address other than the selected track's (R15). -/
def Positioner.mispositioned (q : Positioner) (content : Option HomeField) : Bool :=
  match content with
  | some f => decide (q.selected ≠ some f.address)
  | none => false

/-- The read of a home field that an INTERNAL grant armed (R68). -/
def Operation.readsHome (o : Operation) : Bool := decide (o.work = .readHome) && decide (o.orient = none)

/-- HOME FIELD READ under an INTERNAL grant: misposition, a field check with its rereads, or a finding that verification or
the alternate operation judges (R45, R95, R110, R114, R124). -/
def State.homeReadInternal (s : State) (d : Drive) (o : Operation) (content : Option HomeField) : State :=
  let wrong := (s.pos d).mispositioned content
  let s := s.modPos d fun q => q.homeRead content
  if wrong then (s.freeInternalPath d).misposition d
  else match content, o.alt with
    | some f, some _ => (s.freeInternalPath d).altHomeRead d (some f.condition)
    | some f, none => (s.freeInternalPath d).judgeHome d f.condition
    | none, some _ => (s.freeInternalPath d).altHomeRead d none
    | none, none =>
      let s := s.reportCheck d .homeCheck
      if s.canReread d o then s.reread d else (s.freeInternalPath d).pendingFault d .homeCheck .none none

/-- HOME FIELD READ in-line in a span continuation (R117, R45). -/
def State.homeReadInline (s : State) (d : Drive) (p : Port) (o : Operation) (r : ReadCmd) (content : Option HomeField) :
    State :=
  let wrong := (s.pos d).mispositioned content
  let s := s.modPos d fun q => q.homeRead content
  if wrong then s.mispositionConnected d p
  else match content with
    | some f => s.judgeInline d p o r f.condition
    | none =>
      let s := s.reportCheck d .homeCheck
      if s.canReread d o then s.reread d
      else
        (s.setCmd d (.read { r with phase := .done })).commandFault p .homeCheck .none (o.byteCount - o.accounted) none

/-- HOME FIELD READ, where a read of it was armed at or before the INDEX MARK at which the home field is reached, it starting
at byte 0 (R2, R13, R15). -/
def State.homeFieldArrives (s : State) (d : Drive) (content : Option HomeField) : State :=
  match s.op d with
  | some o =>
    if s.inTime d o 0 = false then s
    else if o.readsHome then s.homeReadInternal d o content
    else match o.conn, o.cmd with
      | some p, some (.read r) => if r.phase = .home then s.homeReadInline d p o r content else s
      | _, _ => s
  | none => s

/-- HOME FIELD READ (R15, R110, R117, R124). -/
def execHomeFieldRead (d : Drive) (content : Option HomeField) (s : State) : Host.Outcome State Fault Refusal :=
  s.perform fun s => s.fromReady d fun s => s.homeFieldArrives d content

/-- An event for the sequencer of the connection with the drive. -/
def State.connected (s : State) (d : Drive) (f : Port → Operation → State) : State :=
  match s.op d with
  | some o =>
    match o.conn with
    | some p => f p o
    | none => s
  | none => s

/-- ID FIELD READ (R82, R85, R91). -/
def execIdFieldRead (d : Drive) (x : IdRead) (s : State) : Host.Outcome State Fault Refusal :=
  s.perform fun s => s.fromReady d fun s => s.connected d fun p o => s.idArrives d p o x

/-- The key of the record a SEARCH has made current, whose read was armed with that of its ID field (R2, R85). -/
def State.keyRead (s : State) (d : Drive) (p : Port) (o : Operation) (key : List Byte) : State :=
  match o.cmd with
  | some (.search c a .key) => if s.keyInTime d o then s.compareKey d p c a key else s
  | some (.search _ _ (.find _ _)) | some (.search _ _ (.id _)) | some (.search _ _ .over) | some (.locate _) | some (.read _)
  | some (.write _) | some (.format _) | some .driveState | none => s

/-- KEY FIELD READ (R85, R86). -/
def execKeyFieldRead (d : Drive) (key : List Byte) (s : State) : Host.Outcome State Fault Refusal :=
  s.perform fun s => s.fromReady d fun s => s.connected d fun p o => s.keyRead d p o key

/-- DATA FIELD READ (R88, R89, R91). -/
def execDataFieldRead (d : Drive) (bytes : List Byte) (ends good : Bool) (s : State) : Host.Outcome State Fault Refusal :=
  s.perform fun s => s.fromReady d fun s => s.connected d fun p o =>
    s.dataRead d p o bytes (if ends then some good else none)

/-! ## Fields written (R14) -/

/-- The write of a home field under an INTERNAL grant (R15, R68, R124). -/
def State.homeWrittenInternal (s : State) (d : Drive) (f : HomeField) (good : Bool) : State :=
  ((s.modPos d fun q => q.homeWritten f good).freeInternalPath d).altWritten d good

/-- FIELD WRITTEN goes to the block that ordered the write: one left to be finished, an alternate operation, or the command
of the connection (R10, R14). A write acts on its field from the first mark of it after the arming (R2). -/
def State.fieldWritten (s : State) (d : Drive) (good : Bool) : State :=
  match s.finish d, s.op d with
  | some f, _ => s.finishWritten d f good
  | none, some o =>
    match o.work, o.orient, o.conn, o.cmd with
    | .writeHome f, none, _, _ => if s.inTime d o 0 then s.homeWrittenInternal d f good else s
    | _, _, some p, some (.write w) => if s.writesNow d o w then s.writeDone d p o w good else s
    | _, _, some p, some (.format f) => if f.begun then s.formatDone d p f good else s
    | _, _, _, _ => s
  | none, none => s

/-- FIELD WRITTEN (R14). -/
def execFieldWritten (d : Drive) (good : Bool) (s : State) : Host.Outcome State Fault Refusal :=
  s.perform fun s => s.fromReady d fun s => s.fieldWritten d good

end Sys2Proof.Machine
end

