-- ==== Sys2Proof/Machine/InnerEvents.lean ====
section
/-! DEFINITION. The inner events of the unit: requests raised and lapsed, expiries of timers and counts, bytes drawn for a
WRITE. Each is taken only when its condition holds. -/

namespace Sys2Proof.Machine

open Sys2Proof

/-- REQUEST RAISED (R59). -/
def execRequestRaised (d : Drive) (s : State) : Host.Outcome State Fault Refusal :=
  s.performInner d fun s => s.requestRaise d

/-- REQUEST LAPSE (R60). -/
def execRequestLapse (d : Drive) (s : State) : Host.Outcome State Fault Refusal :=
  s.performInner d fun s => s.requestLapse d

/-- IDLE EXPIRY of a drive connection (R80). -/
def execIdleExpiry (d : Drive) (s : State) : Host.Outcome State Fault Refusal := s.performInner d fun s => s.idleExpire d

/-- HOLD TIMER EXPIRY (R168). -/
def execHoldTimerExpiry (d : Drive) (s : State) : Host.Outcome State Fault Refusal :=
  s.performInner d fun s => s.holdExpire d

/-- LOCATE SEARCH BOUND (R82). -/
def execLocateSearchBound (d : Drive) (s : State) : Host.Outcome State Fault Refusal :=
  s.performInner d fun s => s.searchBound d

/-- SEARCH INDEX COUNT LIMIT (R87). -/
def execSearchIndexCountLimit (d : Drive) (s : State) : Host.Outcome State Fault Refusal :=
  s.performInner d fun s => s.searchLimit d

/-- SEEK DEADLINE EXPIRY (R38): the timebase has reached the expiry time, and what fell due before it has expired (log 3). -/
def execSeekDeadlineExpiry (d : Drive) (s : State) : Host.Outcome State Fault Refusal :=
  s.perform fun s => (s.reachTime (s.pos d).deadline).deadlineExpire d

/-- UNIT IDLE TIMER EXPIRY (R148): the timebase has reached the expiry time, and what fell due before it has expired (log 3). -/
def execUnitIdleTimerExpiry (p : Port) (s : State) : Host.Outcome State Fault Refusal :=
  s.perform fun s => (s.reachTime (s.port p).idleTimer).unitIdleExpire p

/-- Bytes of the data field of the WRITE in progress are drawn onto the path (R93, R153), once the field at which it begins
is reached after its arming (R2, R84). -/
def State.bytesDrawn (s : State) (d : Drive) : State :=
  match s.op d with
  | some o =>
    match o.conn, o.cmd with
    | some p, some (.write w) => if s.writesNow d o w then s.drawBytes d p w else s
    | _, _ => s
  | none => s

/-- BYTES DRAWN FOR WRITING (R153, R97). -/
def execBytesDrawnForWriting (d : Drive) (s : State) : Host.Outcome State Fault Refusal := s.perform fun s => s.bytesDrawn d

end Sys2Proof.Machine
end

