-- ==== Sys2Proof/Machine/PortFrames.lean ====
section
/-! DEFINITION. The other inbound frames of a port, the acknowledgement of an outbound one, and power-on (chapter 8, R98, R99,
R189). -/

namespace Sys2Proof.Machine

open Sys2Proof

/-! ## Power-on (R189) -/

/-- The unit as power-on leaves it: straps and levels read, every block at its power-on value (R189, R12). The commands that
wait, and the count of free values used, are not the unit's and stay (log 25). -/
def State.powerUp (s : State) (straps : Vector Straps 4) (levels : Vector Level 8) : State :=
  { State.reset with
    powered := true
    ports := straps.map PortRec.powerOn
    positioners := levels.map Positioner.powerOn
    choices := s.choices
    pending := s.pending }

/-- POWER ON (R189). -/
def execPowerOn (straps : Vector Straps 4) (levels : Vector Level 8) (s : State) : Host.Outcome State Fault Refusal :=
  .next (s.powerUp straps levels)

/-- What a port's window says a frame's address names; a DISABLED port answers nothing (R141). -/
def State.addressed (s : State) (p : Port) (address : Nat) : Option Conn :=
  if (s.port p).state = .disabled then none else (s.port p).named address

/-! ## DATA and CLOSE (R143, R144, R148, R153) -/

/-- Inbound DATA whose count is that of its bytes, 1 to 256, at a port whose connection has a WRITE in progress (R143, R144,
R153). -/
def State.dataIn (s : State) (p : Port) (address offset count : Nat) (bytes : List Byte) : State :=
  if s.addressed p address = none ∨ count ≠ bytes.length ∨ count < 1 ∨ 256 < count then s
  else match (s.port p).state, (s.port p).conn with
    | .connected, some (.drive d) =>
      match s.opOn d p with
      | some o =>
        match o.cmd with
        | some (.write w) => s.hostBytes d p w offset bytes
        | some (.locate _) | some (.search _ _ _) | some (.read _) | some (.format _) | some .driveState | none => s
      | none => s
    | _, _ => s

/-- DATA (R153). -/
def execData (p : Port) (address offset count : Nat) (bytes : List Byte) (s : State) : Host.Outcome State Fault Refusal :=
  s.perform fun s => s.dataIn p address offset count bytes

/-- CLOSE at a port (R143, R148, R80, log 17). In a connection that is being set aside it ends the port's connection at once,
with the frames still in its buffer, and the operation runs on (model's choice, log 55). -/
def State.closePort (s : State) (p : Port) (address : Nat) : State :=
  if s.addressed p address = none then s
  else match (s.port p).state, (s.port p).conn with
    | .connected, some .unit =>
      if (s.port p).answer.isSome then s.modPort p fun r => { r with closing := true } else s.endConnection p
    | .connected, some (.drive d) => if (s.opOn d p).isSome then s.stopCommand d p .closed else s.endConnection p
    | _, _ => s

/-- CLOSE (R80, R148). -/
def execClose (p : Port) (address : Nat) (s : State) : Host.Outcome State Fault Refusal :=
  s.perform fun s => s.closePort p address

/-! ## HALT (R98, R99, R133) -/

/-- HALT for the unit address: the port's alternate operations whose write point is NOT PASSED are aborted (R133). They end in
drive-number order, so of several results the last drive's stands in the slot (R130, model's choice, log 58). -/
def State.haltUnit (s : State) (p : Port) : State :=
  s.forDrives fun s d =>
    match s.op d with
    | some o => if o.alt.isSome = true ∧ o.issuer = p ∧ o.abortable = true then s.abort d else s
    | none => s

/-- HALT for a drive the port is not connected with (R99); never an alternate operation (R133). -/
def State.haltElsewhere (s : State) (d : Drive) (p : Port) : State :=
  match s.op d with
  | some o =>
    if o.conn = none ∧ o.alt = none ∧ o.reaches p (s.port p).group = true then s.abort d else s
  | none => s

/-- HALT for the drive the port is connected with (R98). A connection that is being set aside holds no operation (R99,
log 18), one whose ending STATUS is produced finds nothing to stop (log 28). In a connection without an operation the frames
of the command stopped are discarded, the residual 0 (log 28; for READ DRIVE STATE log 73). -/
def State.haltConnected (s : State) (d : Drive) (p : Port) : State :=
  if (s.opOn d p).isSome then s.stopCommand d p .halted
  else if (s.port p).draining then s.haltElsewhere d p
  else if (s.port p).ending then s
  else (s.modPort p fun r => { r.emptied with awaiting := false }).reply p d (Status.haltedWith 0)

/-- HALT at a port (R143). -/
def State.haltPort (s : State) (p : Port) (address : Nat) : State :=
  if (s.port p).state = .resetting then s
  else match s.addressed p address with
    | some .unit => s.haltUnit p
    | some (.drive d) =>
      if (s.port p).state = .connected ∧ (s.port p).conn = some (.drive d) then s.haltConnected d p
      else s.haltElsewhere d p
    | none => s

/-- HALT (R98, R99, R133). -/
def execHalt (p : Port) (address : Nat) (s : State) : Host.Outcome State Fault Refusal :=
  s.perform fun s => s.haltPort p address

/-! ## PORT RESET (R154, R155, R173) -/

/-- The port record after the reset is taken (R154, R140); STATUS frames already produced still leave (log 21), with DISCONNECT
(R149, log 59), and data requests that have not left go (model's choice, log 75). -/
def PortRec.reset (r : PortRec) : PortRec :=
  { r.withoutOffer.disconnected .resetting with
    group := 0, maskStateChange := true, maskSpareAdvised := true, overflow := false }

/-- d's operation is one that a reset of p ends: issued by p or connected on p (R76, R105). -/
def Operation.ofPort (o : Operation) (p : Port) : Bool := decide (o.issuer = p) || decide (o.conn = some p)

/-- The write in progress on p's connection with d is left to be finished (R105, R155). -/
def State.leavePortWrite (s : State) (d : Drive) (p : Port) : State :=
  if (s.opOn d p).isSome then s.leaveWrite d (some p) else s

/-- An operation that p issued and that is connected on another port loses its connection without status; a write in
progress there is left to be finished (R75, R105, log 31). -/
def State.endOtherConnection (s : State) (d : Drive) (o : Operation) (p : Port) : State :=
  match o.conn with
  | some q => if q = p ∨ (s.port q).state ≠ .connected then s else (s.leaveWrite d none).endConnection q
  | none => s

/-- What the reset does to d's operation: aborted, or, past its write point, its issuer claim LOST (R105, R133). The answer
says whether the operation ended. -/
def State.resetOperation (s : State) (d : Drive) (p : Port) : State × Bool :=
  match s.op d with
  | some o =>
    if o.ofPort p = false then (s, false)
    else if o.abortable then ((s.endOtherConnection d o p).abortQuietly d, true)
    else (s.modAlt d fun a => { a with issuerHeld := false }, false)
  | none => (s, false)

/-- Some other port carries group g and is neither DISABLED nor RESETTING (R173). -/
def State.groupStands (s : State) (p : Port) (g : Nat) : Bool :=
  allPorts.any fun q =>
    decide (q ≠ p) && decide ((s.port q).group = g) && decide ((s.port q).state ≠ .disabled) &&
    decide ((s.port q).state ≠ .resetting)

/-- d's sharing record and operation at a reset of p, which carried group g, with the test of R170 where it is due (R173). A
RESERVE UNCONDITIONAL that waits is answered only where the reset has ended the operation (R165). -/
def State.resetSharing (s : State) (d : Drive) (p : Port) (g : Nat) : State :=
  let held := s.heldBy d p
  let s := if held then s.dropHold d else s
  let s := s.removeOwed d p
  let clears : Bool := decide (g ≠ 0) && decide ((s.share d).owner = some g) && !s.groupStands p g
  let s := if clears then s.modShare d fun x => { x with owner := none } else s
  let r := s.resetOperation d p
  let s := if held || clears || r.2 then r.1.owedTest d else r.1
  (if r.2 then s.answerWaiting d else s).dropUnclaimed d

/-- Some write is left for this port to wait for (R155). -/
def State.waitsForWrite (s : State) (p : Port) : Option Drive :=
  allDrives.find? fun d => match s.finish d with
    | some f => decide (f.port = some p)
    | none => false

/-- PORT RESET at a port in IDLE, CONNECTED or OFFERING (R154). Drives are taken in number order (log 45), so of several alternate
operations that it aborts the highest drive's result stands in the slot (R130, model's choice, log 58). -/
def State.resetPort (s : State) (p : Port) : State :=
  let g := (s.port p).group
  let s := s.deferOffer p
  let s := s.forDrives fun s d => s.leavePortWrite d p
  let s := ((s.modPort p PortRec.reset).freePathOfPort p).forgetDeferral p
  let s := s.setQueue p { notices := [], held := false }
  let s := s.forDrives fun s d => s.resetSharing d p g
  match s.waitsForWrite p with
  | some d => s.modPort p fun r => { r with resetDrive := some d }
  | none => s.endReset p

/-- PORT RESET (R154); discarded at a DISABLED or RESETTING port. -/
def execPortReset (p : Port) (s : State) : Host.Outcome State Fault Refusal :=
  s.perform fun s =>
    if (s.port p).state = .disabled ∨ (s.port p).state = .resetting then s else s.resetPort p

/-! ## TAKE and DEFER (R150) -/

/-- The address an offer was made with (R156, R175). -/
def State.offerConn (s : State) (o : Offer) : Conn :=
  match o with
  | .reconnect d => .drive d
  | .status d => s.statusConn d
  | .notice n => n.conn

/-- The offer that a TAKE or DEFER answers: the port is OFFERING it, it has left, and the addresses agree (R150). -/
def State.answered (s : State) (p : Port) (address : Nat) : Option Offer :=
  match (s.port p).state, (s.port p).offer with
  | .offering, some (o, true) => if s.addressed p address = some (s.offerConn o) then some o else none
  | _, _ => none

/-- TAKE of a reconnection: the connection is formed over the path granted, the orientation ends, the miss count is 0, and
the sequencer goes on (R70). -/
def State.takeReconnect (s : State) (d : Drive) (p : Port) : State :=
  let s := s.modPort p fun r => { r.withoutOffer with state := .connected, conn := some (.drive d) }
  (s.modOp d fun o =>
    { o with orient := none, miss := 0, conn := some p, work := .connected, reconnected := true, idle := 0 }).proceed d p

/-- TAKE of a pending status: the STATUS is sent, the operation ends, and a FAULT of a drive command other than NOT READY
gives a hold to the port that took it (R103, R166). -/
def State.takeStatus (s : State) (d : Drive) (p : Port) : State :=
  match (s.op d).bind Operation.pending with
  | some x =>
    let s := (s.dropOffer p).sendStatus p (s.statusConn d) x.status false
    match x.record with
    | some r => s.endOperationWithHold d p r
    | none => s.endOperation d
  | none => s.dropOffer p

/-- TAKE of an offer (R150, R70, R103, R181). -/
def State.takeOffer (s : State) (p : Port) (address : Nat) : State :=
  match s.answered p address with
  | some (.reconnect d) => s.takeReconnect d p
  | some (.status d) => s.takeStatus d p
  | some (.notice _) => (s.removeHeadNotice p).dropOffer p
  | none => s

/-- TAKE (R150). -/
def execTake (p : Port) (address : Nat) (s : State) : Host.Outcome State Fault Refusal :=
  s.perform fun s => s.takeOffer p address

/-- DEFER (R150, R71, R103, R182). -/
def execDefer (p : Port) (address : Nat) (s : State) : Host.Outcome State Fault Refusal :=
  s.perform fun s => if (s.answered p address).isSome then s.deferOffer p else s

/-! ## Outbound frames (R145) -/

/-- Bytes of a READ sent to the host, by offset (R90). -/
def Operation.noteSent (o : Operation) (upTo : Nat) : Operation :=
  match o.cmd with
  | some (.read r) => { o with cmd := some (.read { r with sentTo := max r.sentTo upTo }) }
  | some (.locate _) | some (.search _ _ _) | some (.write _) | some (.format _) | some .driveState | none => o

/-- The drive of the port's connection. -/
def PortRec.drive (r : PortRec) : Option Drive :=
  match r.conn with
  | some (.drive d) => some d
  | some .unit | none => none

/-- The frames that leave on the port are of the operation's own: it is connected there, or its connection there was set aside
and runs dry (R90, R118). -/
def State.countsSent (s : State) (d : Drive) (p : Port) : Bool :=
  (s.opOn d p).isSome || ((s.port p).draining && ((s.op d).any fun o => o.leaving.has p))

/-- A DATA frame has left: a READ counts its bytes as sent, also where its connection has been set aside meanwhile (R90, R46);
with the buffer empty a STATUS that waited is produced (R145), or a connection being set aside ends (R118, R46). -/
def State.dataLeft (s : State) (p : Port) (upTo : Nat) : State :=
  let s := match (s.port p).drive with
    | some d => if s.countsSent d p then s.modOp d fun o => o.noteSent upTo else s
    | none => s
  let r := s.port p
  if r.slots ≠ 0 then s
  else if r.draining then s.endConnection p
  else match r.answer with
    | some a => s.produce p a
    | none => s

/-- The oldest frame of the link has left (R145): an ending STATUS ends the connection (R148), an OFFER enters phase SENT
(R150). -/
def State.frameLeft (s : State) (p : Port) : State :=
  match (s.port p).link with
  | [] => s
  | f :: rest =>
    let s := s.modPort p fun r => { r with link := rest }
    match f with
    | .status _ _ ends => if ends then s.endConnection p else s
    | .data _ off bs => s.dataLeft p (off + bs.length)
    | .request _ _ _ => s
    | .offer _ _ => s.modPort p fun r => { r with offer := r.offer.map fun x => (x.1, true) }

/-- An outbound frame has left (R145). -/
def execOutboundFrameLeft (p : Port) (s : State) : Host.Outcome State Fault Refusal := s.perform fun s => s.frameLeft p

end Sys2Proof.Machine
end

