-- ==== Sys2Proof/Machine/UnitOrders.lean ====
section
/-! DEFINITION. The unit orders, codes 0x40 to 0x4C (chapters 2, 6, 7, 9, 10 and 11). -/

namespace Sys2Proof

open Machine

/-- Two entries of one order clash (R121 step 5). -/
def SpareItem.clashes (a b : SpareItem) : Bool :=
  decide (a.drive = b.drive) &&
  (decide (a.home = b.home) || decide (a.home = b.alternate) || decide (a.alternate = b.home) ||
   decide (a.alternate = b.alternate))

/-- The entry as it joins the map (R121). -/
def SpareItem.entry (e : SpareItem) (d : Drive) : SpareEntry :=
  { drive := d, home := e.home, current := some e.alternate, pending := none, origin := .loaded, active := true }

end Sys2Proof

namespace Sys2Proof.Machine

open Sys2Proof

/-! ## The table store -/

/-- d's record is configured and names the type. -/
def State.names (s : State) (d : Drive) (ty : TypeNo) : Bool := (s.record d).configured && decide ((s.record d).typeNo = ty)

/-- The drives of the type that have an operation in flight (R22 step 5, R30). -/
def State.busyOfType (s : State) (ty : TypeNo) : List Drive := allDrives.filter fun d => s.names d ty && (s.op d).isSome

/-- The first shape field that differs, when a configured record names the type and it is loaded (R22 step 4). -/
def State.shapeDiffers (s : State) (ty : TypeNo) (t : DriveType) : Option Nat :=
  match s.types[ty] with
  | some old => if allDrives.any (s.names · ty) then firstFailing (t.shapeChecks old) else none
  | none => none

def State.setType (s : State) (ty : TypeNo) (t : DriveType) : State := { s with types := s.types.set ty (some t) }

/-- LOAD DRIVE TYPE after the control strap: steps 2 to 5 of R22, with the residuals of R29. -/
def State.takeDriveType (s : State) (p : Port) (typeNo : Nat) (t : DriveType) : State :=
  match typeNoOf typeNo with
  | none => s.unitReject p 1
  | some ty =>
    match firstFailing t.checks, s.shapeDiffers ty t with
    | some i, _ => s.unitReject p i
    | none, some i => s.unitReject p i
    | none, none =>
      if s.busyOfType ty = [] then (s.setType ty t).unitDone p else s.unitHeld p .busy (s.busyOfType ty)

/-- LOAD DRIVE TYPE (R22). -/
def execLoadDriveType (h : Hdr) (typeNo : Nat) (t : DriveType) (s : State) : Host.Outcome State Fault Refusal :=
  s.perform fun s => s.controlOrder h fun s => s.takeDriveType h.port typeNo t

/-- The record that items 2 to 5 give, or the number of the first failing item (R24 steps 3 and 4, R19, R29). -/
def State.newRecord (s : State) (configured typeNo writePermitted cursor : Nat) : DriveRecord ⊕ Nat :=
  match flagOf configured with
  | none => .inr 2
  | some false => .inl DriveRecord.unconfigured
  | some true =>
    match typeNoOf typeNo with
    | none => .inr 3
    | some ty =>
      match s.types[ty], flagOf writePermitted with
      | none, _ => .inr 3
      | some _, none => .inr 4
      | some t, some w =>
        if cursor ≤ t.alternates then .inl { configured := true, typeNo := ty, writePermitted := w, cursor := cursor }
        else .inr 5

/-- A load changes the drive's type (R27). -/
def DriveRecord.changesType (old new : DriveRecord) : Bool :=
  decide (old.configured ≠ new.configured) || (old.configured && new.configured && decide (old.typeNo ≠ new.typeNo))

/-- The effects of a LOAD DRIVE RECORD that is taken (R26, R27). -/
def State.loadRecord (s : State) (d : Drive) (r : DriveRecord) : State :=
  let changes := (s.record d).changesType r
  (((s.setRecord d r).deleteEntriesOf d).removeSuspectsOf d).modPos d fun q =>
    let q := { q with status := none }
    if changes then q.retype else q

/-- LOAD DRIVE RECORD after the control strap: steps 2 to 6 of R24. -/
def State.takeDriveRecord (s : State) (p : Port) (drive configured typeNo writePermitted cursor : Nat) : State :=
  match driveOf drive with
  | none => s.unitReject p 1
  | some d =>
    match s.newRecord configured typeNo writePermitted cursor with
    | .inr i => s.unitReject p i
    | .inl r =>
      if (s.op d).isSome then s.unitHeld p .busy [d]
      else if (s.share d).hold.isSome then s.unitHeld p .hold [d]
      else (s.loadRecord d r).unitDone p

/-- LOAD DRIVE RECORD (R24). -/
def execLoadDriveRecord (h : Hdr) (drive configured typeNo writePermitted cursor : Nat) (s : State) :
    Host.Outcome State Fault Refusal :=
  s.perform fun s => s.controlOrder h fun s => s.takeDriveRecord h.port drive configured typeNo writePermitted cursor

/-- READ DRIVE TABLES. In a connection with a drive it is refused with residual 0, also where it stops a command (R31; R78 has
the stopped command's residual; log 51). -/
def execReadDriveTables (h : Hdr) (s : State) : Host.Outcome State Fault Refusal :=
  s.perform fun s => s.unitOrderAs h .tables fun s => s.answerData h.port .unit s.driveTablesBytes

/-! ## The spare map -/

/-- The number, from 1, of the first entry that a check fails. -/
def firstBad {α : Type} (ok : α → Bool) (l : List α) : Option Nat := (l.findIdx? fun x => !ok x).map (· + 1)

/-- The entry's drive is 0 to 7 and configured (R121 step 3). -/
def State.itemDrive (s : State) (e : SpareItem) : Bool :=
  match driveOf e.drive with
  | some d => (s.record d).configured
  | none => false

/-- The entry's tracks lie where R121 step 4 says. -/
def State.itemTracks (s : State) (e : SpareItem) : Bool :=
  match driveOf e.drive with
  | some d => (s.typeOf d).isHome e.home && (s.typeOf d).isAlternate e.alternate
  | none => false

/-- The track is the home track, current alternate or pending alternate of the entry. -/
def SpareEntry.mentions (e : SpareEntry) (x : Track) : Bool := decide (e.home = x) || e.holds x

/-- The entry clashes with an entry of its drive in the map (R121 step 5). -/
def State.clashes (s : State) (e : SpareItem) : Bool :=
  s.spareMap.any fun x => decide (x.drive.val = e.drive) && (x.mentions e.home || x.mentions e.alternate)

/-- The number of the first entry that R121 step 5 refuses; `earlier` are those of the order before it, `n` its number. -/
def State.firstClash (s : State) (earlier : List SpareItem) (n : Nat) : List SpareItem → Option Nat
  | [] => none
  | e :: rest =>
    if s.clashes e || earlier.any e.clashes then some n else s.firstClash (e :: earlier) (n + 1) rest

/-- The drives named by the order that have an operation in flight (R121 step 7). -/
def State.busyNamed (s : State) (es : List SpareItem) : List Drive :=
  allDrives.filter fun d => es.any (fun e => decide (e.drive = d.val)) && (s.op d).isSome

/-- LOAD SPARE ENTRIES after the control strap (R121). -/
def State.takeSpareEntries (s : State) (p : Port) (es : List SpareItem) : State :=
  if es.length < 1 ∨ 16 < es.length then s.unitReject p 0
  else
    match firstBad s.itemDrive es, firstBad s.itemTracks es, s.firstClash [] 1 es with
    | some i, _, _ => s.unitReject p i
    | none, some i, _ => s.unitReject p i
    | none, none, some i => s.unitReject p i
    | none, none, none =>
      if 96 < s.spareMap.length + es.length then s.unitReject p 0
      else if s.busyNamed es = [] then
        ({ s with spareMap := s.spareMap ++ es.filterMap fun e => (driveOf e.drive).map e.entry } : State).unitDone p
      else s.unitHeld p .busy (s.busyNamed es)

/-- LOAD SPARE ENTRIES (R121). -/
def execLoadSpareEntries (h : Hdr) (es : List SpareItem) (s : State) : Host.Outcome State Fault Refusal :=
  s.perform fun s => s.controlOrder h fun s => s.takeSpareEntries h.port es

/-- DELETE SPARE ENTRY after the control strap (R122). -/
def State.takeDelete (s : State) (p : Port) (drive : Nat) (home : Track) : State :=
  match driveOf drive with
  | none => s.unitReject p 0
  | some d =>
    if (s.record d).configured = true ∧ (s.typeOf d).dataCyls ≤ home.cyl then s.unitReject p 0
    else if (s.op d).isSome then s.unitHeld p .busy [d]
    else if (s.entryFor d home).isSome then (s.deleteEntry d home).unitDone p
    else s.unitReject p 0

/-- DELETE SPARE ENTRY (R122). -/
def execDeleteSpareEntry (h : Hdr) (drive : Nat) (home : Track) (s : State) : Host.Outcome State Fault Refusal :=
  s.perform fun s => s.controlOrder h fun s => s.takeDelete h.port drive home

/-- READ SPARE MAP in its connection (R123). -/
def State.takeReadMap (s : State) (p : Port) (start : Nat) : State :=
  if start < 1 ∨ 96 < start then s.unitReject p 0 else s.answerData p .unit (s.spareMapBytes start)

/-- READ SPARE MAP (R123). -/
def execReadSpareMap (h : Hdr) (start : Nat) (s : State) : Host.Outcome State Fault Refusal :=
  s.perform fun s => s.unitOrder h fun s => s.takeReadMap h.port start

/-! ## The alternate operations -/

/-- Steps 2 to 8 of R125: the drive, or the answer that refuses the order. -/
inductive AltCheck where
  | passed (d : Drive)
  | fault (k : FaultKind)
  | held (d : Drive) (r : Reason)
  deriving DecidableEq, Repr

/-- Steps 2 to 8 of R125, which RESTORE TRACK shares (R131). -/
def State.altCheck (s : State) (p : Port) (drive : Nat) (home : Track) : AltCheck :=
  match driveOf drive with
  | none => .fault .commandReject
  | some d =>
    if (s.record d).configured = false then .fault .notConfigured
    else if (s.pos d).actuator = .notReady then .fault .notReady
    else if (s.typeOf d).isHome home = false then .fault .commandReject
    else if (s.share d).hold.isSome then .held d .hold
    else if s.reservedByOther d p then .held d .reserved
    else if (s.op d).isSome then .held d .busy
    else .passed d

/-- FAULT of a unit order with residual 0 (R125, R186). -/
def State.unitFault (s : State) (p : Port) (k : FaultKind) : State := s.unitStatus p (.faultOf k .none 0)

/-- Either alternate operation after the control strap: the checks they share, then steps 9 and 10, then the operation's
own beginning (R125, R131). -/
def State.takeAlternate (s : State) (p : Port) (drive : Nat) (home : Track) (step9 : Drive → Option FaultKind)
    (start : Drive → State) : State :=
  match s.altCheck p drive home with
  | .fault k => s.unitFault p k
  | .held d r => s.unitHeld p r [d]
  | .passed d =>
    match step9 d with
    | some k => s.unitFault p k
    | none => if (s.pos d).writeProtect then s.unitFault p .notWritable else start d

/-- The record of an alternate operation as it is created, translated (R124, R109). -/
def State.altRecord (s : State) (d : Drive) (p : Port) (kind : OpKind) (step : AltStep) (home : Track) : Operation :=
  let x := s.translate d home
  { Operation.fresh kind p (s.port p).group (some home) with
    target := some x.target, expected := some x.expected, entry := x.entry,
    alt := some (AltOp.begun step (s.entryFor d home)) }

/-- ACCEPT and DISCONNECT of an alternate operation, which ends the connection (R125, R146). -/
def State.unitAccept (s : State) (p : Port) : State := s.sendStatus p .unit Status.accepted true

/-- The beginning of ASSIGN ALTERNATE (R125). -/
def State.startAssign (s : State) (d : Drive) (p : Port) (home : Track) : State :=
  ((s.setOp d (some (s.altRecord d p .assignAlternate .pick home))).unitAccept p).beginPick d

/-- Step 9 of R125. -/
def State.assignStep9 (s : State) (home : Track) (d : Drive) : Option FaultKind :=
  if (s.entryFor d home).isSome = true ∨ s.spareMap.length < 96 then none else some .mapFull

/-- ASSIGN ALTERNATE (R125). -/
def execAssignAlternate (h : Hdr) (drive : Nat) (home : Track) (s : State) : Host.Outcome State Fault Refusal :=
  s.perform fun s => s.controlOrder h fun s =>
    s.takeAlternate h.port drive home (s.assignStep9 home) fun d => s.startAssign d h.port home

/-- The beginning of RESTORE TRACK: APPROACH goes to the home track (R131). -/
def State.startRestore (s : State) (d : Drive) (p : Port) (home : Track) : State :=
  let o := { s.altRecord d p .restoreTrack .approach home with target := some home }
  ((s.setOp d (some o)).unitAccept p).position d

/-- What replaces step 9 for RESTORE TRACK (R131). -/
def State.restoreStep9 (s : State) (home : Track) (d : Drive) : Option FaultKind :=
  if ((s.entryFor d home).bind SpareEntry.current).isSome then none else some .commandReject

/-- RESTORE TRACK (R131). -/
def execRestoreTrack (h : Hdr) (drive : Nat) (home : Track) (s : State) : Host.Outcome State Fault Refusal :=
  s.perform fun s => s.controlOrder h fun s =>
    s.takeAlternate h.port drive home (s.restoreStep9 home) fun d => s.startRestore d h.port home

/-- READ SUSPECT LIST (R139). -/
def execReadSuspectList (h : Hdr) (s : State) : Host.Outcome State Fault Refusal :=
  s.perform fun s => s.unitOrder h fun s => s.answerData h.port .unit s.suspectBytes

/-! ## Groups, masks and the unit's state -/

/-- The port holds some drive (R158 step 2). -/
def State.holdsAny (s : State) (p : Port) : Bool := allDrives.any (s.heldBy · p)

/-- The new group and what it acts on (R158): the test of R170 for each drive that owes the port, and the end of an
alternate operation whose status no port can take any more. Drives are taken in number order (log 45). A group equal to the
one held changes nothing. -/
def State.setGroup (s : State) (p : Port) (g : Nat) : State :=
  if (s.port p).group = g then s
  else
    (s.modPort p fun r => { r with group := g }).forDrives fun s d =>
      (if ((s.share d).owes p).isSome then s.owedTest d else s).dropUnclaimed d

/-- SET PATH GROUP in its connection (R158). -/
def State.takeGroup (s : State) (p : Port) (g : Nat) : State :=
  if 15 < g then s.unitReject p 0
  else if s.holdsAny p then s.unitStatus p (.heldFor .hold)
  else (s.setGroup p g).unitDone p

/-- SET PATH GROUP (R158). -/
def execSetPathGroup (h : Hdr) (group : Nat) (s : State) : Host.Outcome State Fault Refusal :=
  s.perform fun s => s.unitOrder h fun s => s.takeGroup h.port group

/-- SET NOTICE MASK in its connection (R179). -/
def State.takeMask (s : State) (p : Port) (stateChange spareAdvised : Nat) : State :=
  match flagOf stateChange, flagOf spareAdvised with
  | some a, some b => (s.modPort p fun r => { r with maskStateChange := a, maskSpareAdvised := b }).unitDone p
  | _, _ => s.unitReject p 0

/-- SET NOTICE MASK (R179). -/
def execSetNoticeMask (h : Hdr) (stateChange spareAdvised : Nat) (s : State) : Host.Outcome State Fault Refusal :=
  s.perform fun s => s.unitOrder h fun s => s.takeMask h.port stateChange spareAdvised

/-- READ UNIT STATE (R187). -/
def execReadUnitState (h : Hdr) (s : State) : Host.Outcome State Fault Refusal :=
  s.perform fun s => s.unitOrder h fun s => s.answerData h.port .unit s.unitStateBytes

/-! ## UNIT CLEAR (R188) -/

/-- A port at UNIT CLEAR: its connection ends without status, or for the sender stays until the STATUS leaves; its offer is
withdrawn; the overflow flag is CLEAR (R188, R140). What stays on the link of a connection that ends here is afterConnection's:
STATUS frames with DISCONNECT (R149, log 59), no data request (model's choice, log 75). -/
def PortRec.cleared (r : PortRec) (sender : Bool) : PortRec :=
  let r := { r with overflow := false }
  match r.state with
  | .connected => if sender then { r.emptied with closing := false } else r.disconnected .idle
  | .offering => r.withoutOffer
  | .disabled | .idle | .resetting => r

/-- The effects of UNIT CLEAR in the blocks that own the state (R188, R53, R108, R134, R174, R176). A FIELD WRITTEN of an
alternate operation's home-field write that is under way here sets no track status (model's choice, log 57). -/
def State.clearUnit (s : State) (p : Port) : State :=
  let s := s.forDrives fun s d => (s.leaveWrite d none).undoAlternate d
  { s with
    ops := Vector.replicate 8 none
    paths := Vector.replicate 2 none
    positioners := s.positioners.map Positioner.clear
    suspects := []
    sharing := Vector.replicate 8 Sharing.empty
    queues := Vector.replicate 4 { notices := [], held := false }
    ports := Vector.ofFn fun q => (s.port q).cleared (decide (q = p)) }

/-- UNIT CLEAR (R188). -/
def execUnitClear (h : Hdr) (s : State) : Host.Outcome State Fault Refusal :=
  s.perform fun s => s.controlOrder h fun s =>
    (s.clearUnit h.port).sendStatus h.port .unit (Status.doneWith 0).disc true

end Sys2Proof.Machine
end

