-- ==== Sys2Proof/Machine/Dispatch.lean ====
section
/-! DEFINITION. The meaning of every command: one arm per constructor. -/

namespace Sys2Proof.Machine

open Sys2Proof

/-- The command's effect on everything but the queue. -/
def exec (i : Instr) (s : State) : Host.Outcome State Fault Refusal :=
  match i with
  | .powerOn straps levels => Sys2Proof.Machine.execPowerOn straps levels s
  | .locate h track record sector => Sys2Proof.Machine.execLocate h track record sector s
  | .search h c a => Sys2Proof.Machine.execSearch h c a s
  | .read h count span => Sys2Proof.Machine.execRead h count span s
  | .write h count => Sys2Proof.Machine.execWrite h count s
  | .formatTrack h ds => Sys2Proof.Machine.execFormatTrack h ds s
  | .recalibrate h => Sys2Proof.Machine.execRecalibrate h s
  | .readDriveState h => Sys2Proof.Machine.execReadDriveState h s
  | .readFaultRecord h => Sys2Proof.Machine.execReadFaultRecord h s
  | .reserve h => Sys2Proof.Machine.execReserve h s
  | .reserveUnconditional h => Sys2Proof.Machine.execReserveUnconditional h s
  | .release h => Sys2Proof.Machine.execRelease h s
  | .unknownCommandCode h code params => Sys2Proof.Machine.execUnknownCommandCode h code params s
  | .loadDriveType h ty t => Sys2Proof.Machine.execLoadDriveType h ty t s
  | .loadDriveRecord h drive conf ty w cur => Sys2Proof.Machine.execLoadDriveRecord h drive conf ty w cur s
  | .readDriveTables h => Sys2Proof.Machine.execReadDriveTables h s
  | .loadSpareEntries h entries => Sys2Proof.Machine.execLoadSpareEntries h entries s
  | .deleteSpareEntry h drive home => Sys2Proof.Machine.execDeleteSpareEntry h drive home s
  | .readSpareMap h start => Sys2Proof.Machine.execReadSpareMap h start s
  | .assignAlternate h drive home => Sys2Proof.Machine.execAssignAlternate h drive home s
  | .restoreTrack h drive home => Sys2Proof.Machine.execRestoreTrack h drive home s
  | .readSuspectList h => Sys2Proof.Machine.execReadSuspectList h s
  | .setPathGroup h group => Sys2Proof.Machine.execSetPathGroup h group s
  | .setNoticeMask h stateChange spareAdvised => Sys2Proof.Machine.execSetNoticeMask h stateChange spareAdvised s
  | .readUnitState h => Sys2Proof.Machine.execReadUnitState h s
  | .unitClear h => Sys2Proof.Machine.execUnitClear h s
  | .data p adr off count bs => Sys2Proof.Machine.execData p adr off count bs s
  | .close p adr => Sys2Proof.Machine.execClose p adr s
  | .halt p adr => Sys2Proof.Machine.execHalt p adr s
  | .portReset p => Sys2Proof.Machine.execPortReset p s
  | .take p adr => Sys2Proof.Machine.execTake p adr s
  | .defer p adr => Sys2Proof.Machine.execDefer p adr s
  | .outboundFrameLeft p => Sys2Proof.Machine.execOutboundFrameLeft p s
  | .sectorMark d => Sys2Proof.Machine.execSectorMark d s
  | .indexMark d => Sys2Proof.Machine.execIndexMark d s
  | .onCylinder d => Sys2Proof.Machine.execOnCylinder d s
  | .seekIncomplete d => Sys2Proof.Machine.execSeekIncomplete d s
  | .seekDeadlineExpiry d => Sys2Proof.Machine.execSeekDeadlineExpiry d s
  | .readyGained d => Sys2Proof.Machine.execReadyGained d s
  | .readyLost d => Sys2Proof.Machine.execReadyLost d s
  | .writeProtectChange d on => Sys2Proof.Machine.execWriteProtectChange d on s
  | .homeFieldRead d x => Sys2Proof.Machine.execHomeFieldRead d x s
  | .idFieldRead d x => Sys2Proof.Machine.execIdFieldRead d x s
  | .keyFieldRead d key => Sys2Proof.Machine.execKeyFieldRead d key s
  | .dataFieldRead d bs ends good => Sys2Proof.Machine.execDataFieldRead d bs ends good s
  | .fieldWritten d good => Sys2Proof.Machine.execFieldWritten d good s
  | .requestRaised d => Sys2Proof.Machine.execRequestRaised d s
  | .requestLapse d => Sys2Proof.Machine.execRequestLapse d s
  | .idleExpiry d => Sys2Proof.Machine.execIdleExpiry d s
  | .unitIdleTimerExpiry p => Sys2Proof.Machine.execUnitIdleTimerExpiry p s
  | .holdTimerExpiry d => Sys2Proof.Machine.execHoldTimerExpiry d s
  | .locateSearchBound d => Sys2Proof.Machine.execLocateSearchBound d s
  | .searchIndexCountLimit d => Sys2Proof.Machine.execSearchIndexCountLimit d s
  | .bytesDrawnForWriting d => Sys2Proof.Machine.execBytesDrawnForWriting d s

end Sys2Proof.Machine
end

