-- ==== Sys2Proof/Machine/Step.lean ====
section
/-! DEFINITION. One step: the command at the front of the queue, or, with none waiting, one tick of the timebase. -/

namespace Sys2Proof.Machine

open Sys2Proof

/-- One step (log 3). On an empty queue a millisecond of the unit's timebase passes; before POWER ON nothing does. -/
def step (s : State) : Host.Outcome State Fault Refusal :=
  match s.pending with
  | c :: rest => exec c { s with pending := rest }
  | [] => .next (if s.powered then s.tick else s)

/-- The state with a command put at the front of its queue. -/
def State.inFront (s : State) (c : Instr) : State := { s with pending := c :: s.pending }

/-- The command that a table word spells, put at the front of the queue; the table gives no row any bits. -/
def State.withFetchWord (s : State) (nbits w : Nat) : State :=
  match decodeTableWord nbits w with
  | some c => s.inFront c
  | none => s

end Sys2Proof.Machine
end

