-- ==== Sys2Proof/Safety.lean ====
section
/-! DEFINITION. The terms that statements use for where a command finds the unit, and what a sound state of the unit is: the
laws that the spec states of every moment, as checks that can be run. -/

namespace Sys2Proof.Machine

open Sys2Proof

/-! ## Where a command finds the unit -/

/-- u is what a command of the outside finds in s: the unit is powered, and the consequences of the last mark have been
taken (log 4). -/
def State.Finds (s u : State) : Prop := s.powered = true ∧ s.settle = u

/-- u is what an inner event of drive d finds in s: d's own last mark has its consequences still due (log 4). -/
def State.FindsInner (s : State) (d : Drive) (u : State) : Prop :=
  s.powered = true ∧ (if s.due = some d then s else s.settle) = u

/-- The command or order that h carries is the first of a SELECT that opens a connection with c; t is the unit with that
connection (R146, R151). -/
def State.Opens (u : State) (h : Hdr) (c : Conn) (t : State) : Prop := u.receive h = (t, .first c)

/-- The command or order that h carries is a COMMAND in a standing connection with c, at c's address (R147). -/
def State.Stands (u : State) (h : Hdr) (c : Conn) : Prop := u.receive h = (u, .within c)

/-- A unit order that h carries is taken in t: in a connection with the unit whose last order is answered, its STATUS
produced, with the idle timer stopped (R147, R148, log 66). -/
def State.TakesOrder (u : State) (h : Hdr) (t : State) : Prop :=
  ∃ r : State, (u.Opens h .unit r ∨ (u.Stands h .unit ∧ (u.port h.port).answer = none ∧ r = u)) ∧
    t = r.modPort h.port fun x => { x with idleTimer := none }

/-- The same from a port that is control permitted (R185). -/
def State.TakesControl (u : State) (h : Hdr) (t : State) : Prop :=
  u.TakesOrder h t ∧ (t.port h.port).straps.control = true

/-- A drive command that h carries reaches drive d in r without an operation in its connection: as the first of a SELECT, or
in a standing connection that holds none and has nothing unanswered (R78). -/
def State.Reaches (u : State) (h : Hdr) (d : Drive) (r : State) : Prop :=
  u.Opens h (.drive d) r ∨
  (u.Stands h (.drive d) ∧ u.opOn d h.port = none ∧ (u.port h.port).answer = none ∧
   (u.port h.port).awaiting = false ∧ r = u)

/-- A drive command that h carries is the first of a SELECT for drive d and passes every step of admission; in t the port's
own hold has ended (R160, R168). -/
def State.Admits (u : State) (h : Hdr) (d : Drive) (t : State) : Prop :=
  ∃ r : State, u.Opens h (.drive d) r ∧ r.admission d h.port .all = .admitted ∧ t = r.endOwnHold d h.port

/-- h carries a COMMAND in the connection that holds the operation o of drive d, with no command in progress (R78). -/
def State.Chains (u : State) (h : Hdr) (d : Drive) (o : Operation) : Prop :=
  u.Stands h (.drive d) ∧ u.opOn d h.port = some o ∧ o.cmd = none

/-- No claim can be taken: the arbiter has no decision to make, and no status or notice claims an IDLE port (R65, R150). -/
def State.Quiet (u : State) : Prop := u.decision = none ∧ ∀ p, u.claims p = []

/-- The address of a drive, or of the unit, in port p's window (R141). -/
def State.addressAt (u : State) (p : Port) (c : Conn) : Nat := (u.port p).addressOf c

/-! ## Laws of one block -/

/-- At most 12 notices, no two of the same kind for the same drive and track (R177). -/
def NoticeQueue.sound (q : NoticeQueue) : Prop := q.notices.length ≤ 12 ∧ q.notices.Nodup

/-- What makes two suspect entries the same: drive and physical track (R135). -/
def Suspect.key (e : Suspect) : Drive × Track := (e.drive, e.physical)

/-- At most 32 entries, no two for the same drive and physical track, each count within 1 to 15 (R135). -/
def suspectsSound (l : List Suspect) : Prop :=
  l.length ≤ 32 ∧ (l.map Suspect.key).Nodup ∧ ∀ e ∈ l, 1 ≤ e.count ∧ e.count ≤ 15

/-- The miss count lies within 0 to 15 (R60). -/
def missSound (o : Option Operation) : Prop := ∀ x, o = some x → x.miss ≤ 15

/-- A hold does not stand beside an operation in flight (R160). -/
def State.holdAlone (s : State) (d : Drive) : Prop := (s.share d).hold.isSome = true → s.op d = none

/-- The alternates an entry holds, current and pending (R106). -/
def SpareEntry.alternates (e : SpareEntry) : List Track := e.current.toList ++ e.pending.toList

/-- Two entries of one drive share neither their home track nor an alternate, current or pending (R107). -/
def SpareEntry.apart (x y : SpareEntry) : Prop :=
  x.drive = y.drive → x.home ≠ y.home ∧ ∀ q ∈ x.alternates, q ∉ y.alternates

/-- The entry's drive is configured, its home track lies on a data cylinder and its alternates on alternate cylinders (R26,
R107). -/
def State.inPlace (s : State) (e : SpareEntry) : Prop :=
  (s.record e.drive).configured = true ∧ (s.typeOf e.drive).isHome e.home = true ∧
    ∀ q ∈ e.alternates, (s.typeOf e.drive).isAlternate q = true

/-- A known angular counter of a configured drive lies within 0 to S − 1 of its type (R55). -/
def State.counterSound (s : State) (d : Drive) : Prop :=
  (s.record d).configured = true → ∀ a, (s.pos d).angle = some a → a < (s.typeOf d).sectors

/-- The port buffer holds at most two frames, and requests outstanding and frames held are at most two (R152, R153). -/
def PortRec.bufferSound (r : PortRec) : Prop := r.bufferCount ≤ 2 ∧ r.requests.length + r.held.length ≤ 2

/-- The laws of each block that hold at every moment, whatever is commanded: notice queues (R177), suspect list (R135), spare
map within its 96 places, without doubles and with its tracks in their places (R107), miss counts (R60), unanswered counts
(R33), no hold beside an operation (R160), an overflow flag SET only beside a queue that is not empty (R178), port buffers
(R152), sectors of a loaded type and the type of a configured record (R17, R25), and angular counters (R55). -/
structure State.Sound (s : State) : Prop where
  queues : ∀ p, (s.queue p).sound
  suspects : suspectsSound s.suspects
  map : s.spareMap.length ≤ 96
  apart : s.spareMap.Pairwise SpareEntry.apart
  miss : ∀ d, missSound (s.op d)
  unanswered : ∀ d, (s.pos d).unanswered ≤ 2
  holds : ∀ d, s.holdAlone d
  overflow : ∀ p, (s.port p).overflow = true → (s.queue p).notices ≠ []
  buffers : ∀ p, (s.port p).bufferSound
  inPlace : ∀ e ∈ s.spareMap, s.inPlace e
  sectors : ∀ (n : TypeNo) t, s.types[n] = some t → 0 < t.sectors
  loaded : ∀ d, (s.record d).configured = true → (s.loadedType d).isSome = true
  counters : ∀ d, s.counterSound d

/-! ## Laws that join blocks -/

/-- The port state, the connection and the offer agree (R142). -/
def PortRec.agrees (r : PortRec) : Bool :=
  decide (r.conn.isSome = decide (r.state = .connected)) && decide (r.offer.isSome = decide (r.state = .offering))

/-- The laws of ports and transfer paths that hold at every moment: every port's state, connection and offer agree (R142); a
path held for a port is that of the port's connection with the path's drive, or of the reconnection offered there (R64, R69,
R74); and no operation holds more than one path (R64). -/
structure State.Joined (s : State) : Prop where
  agree : ∀ p, (s.port p).agrees = true
  linked : ∀ n h p, s.path n = some h → h.port = some p →
    (s.port p).conn = some (.drive h.drive) ∨ (s.port p).offer.map Prod.fst = some (.reconnect h.drive)
  onePath : ∀ d n m, s.usesPath d n = true → s.usesPath d m = true → n = m

/-! ## Further laws that join blocks, as checks -/

/-- Every STATUS on the link of a port that is not connected carries DISCONNECT, and so does every STATUS that ends a connection
(R149, log 59). -/
def PortRec.statusesAgree (r : PortRec) : Bool :=
  r.link.all fun f => match f with
    | .status _ st ends => st.disconnect || (decide (r.state = .connected) && !ends)
    | .data _ _ _ | .request _ _ _ | .offer _ _ => true

/-- A DISABLED port has nothing, its queue among it (R142, R175). -/
def State.disabledEmpty (s : State) (p : Port) : Bool :=
  decide ((s.port p).state ≠ .disabled) || (decide ((s.port p).link = []) && decide ((s.queue p).notices = []))

/-- The holder of a path is the operation in flight on its drive: for an INTERNAL grant, for the port the operation is
connected on, or for the port that is offered its reconnection. -/
def State.heldByOperation (s : State) (h : PathHold) : Bool :=
  match s.op h.drive, h.port with
  | some _, none => true
  | some o, some p => decide (o.conn = some p) || decide ((s.port p).offer.map Prod.fst = some (.reconnect h.drive))
  | none, _ => false

/-- The paths that the operation in flight on drive d holds. -/
def State.pathsOf (s : State) (d : Drive) : List PathNo :=
  ([0, 1] : List PathNo).filter fun n => match s.path n with
    | some h => decide (h.drive = d) && s.heldByOperation h
    | none => false

/-- No operation holds more than one path. A path is held by an operation, or by a connection whose operation has ended and
whose last STATUS has not left (R64, R74, log 1). -/
def State.pathsSound (s : State) : Bool :=
  (allDrives.all fun d => decide ((s.pathsOf d).length ≤ 1)) &&
  ([0, 1] : List PathNo).all fun n => match s.path n with
    | none => true
    | some h => s.heldByOperation h || match h.port with
      | none => false
      | some p => decide ((s.port p).conn = some (.drive h.drive)) && (s.port p).ending

/-- An operation's connection is a port connected with its drive (R77). -/
def State.connSound (s : State) (d : Drive) : Bool :=
  match (s.op d).bind Operation.conn with
  | some p => decide ((s.port p).conn = some (.drive d)) && !(s.port p).draining
  | none => true

/-- No two entries of a drive share a home track, and no physical track is the alternate of two (R107). -/
def mapUnique : List SpareEntry → Bool
  | [] => true
  | e :: rest =>
    (rest.all fun x => decide (x.drive ≠ e.drive) ||
      (decide (x.home ≠ e.home) &&
       (e.current.toList ++ e.pending.toList).all fun q => !x.holds q)) && mapUnique rest

/-- An entry as R106 describes it: a STALE one has a current alternate and no pending one; LOADED and LEARNED ones have a
current alternate. -/
def SpareEntry.sound (e : SpareEntry) : Bool :=
  (e.active || (e.current.isSome && e.pending.isNone)) && (decide (e.origin = .assigned) || e.current.isSome) &&
  (e.current.isSome || e.pending.isSome) && decide (e.current = none ∨ e.current ≠ e.pending)

/-- Every law of this file that can be run. -/
def State.checks (s : State) : Bool :=
  (allPorts.all fun p => decide ((s.queue p).notices.length ≤ 12) && decide ((s.queue p).notices.Nodup)) &&
  decide (s.suspects.length ≤ 32) && decide ((s.suspects.map Suspect.key).Nodup) &&
  decide (s.spareMap.length ≤ 96) && mapUnique s.spareMap && s.spareMap.all SpareEntry.sound &&
  (allDrives.all fun d => match s.op d with | some o => decide (o.miss ≤ 15) | none => true) &&
  (allDrives.all fun d => decide ((s.pos d).unanswered ≤ 2)) &&
  (allDrives.all fun d => (s.share d).hold.isNone || (s.op d).isNone) &&
  (allPorts.all fun p => (s.port p).agrees && (s.port p).statusesAgree && s.disabledEmpty p && decide ((s.port p).bufferCount ≤ 2) &&
    decide ((s.port p).requests.length + (s.port p).held.length ≤ 2) && (!(s.port p).overflow || !(s.queue p).notices.isEmpty)) &&
  (allDrives.all fun d => s.connSound d) && s.pathsSound

end Sys2Proof.Machine
end

