-- ==== Sys2Proof/Certificates/Slice0/Obligations.lean ====
section
/-! DEFINITION. The statements for the provers, each formalising what the manual says of a command, of a shared operation or
of the whole unit. In the statements about a command, u is the unit as the command finds it (State.Finds: powered, the last
mark's consequences taken), and serveClaims takes the claims that can then be taken (State.Quiet says when that is none). -/

open Sys2Proof Sys2Proof.Machine

/-! ## The machine -/

/-- Model's choice, log 2: the commands that wait are a queue, taken one a step from its front. -/
def Obligations.StepTakesTheFrontCommand : Prop :=
  (∀ (s : State) (c : Instr) (rest : List Instr), s.pending = c :: rest → step s = exec c { s with pending := rest }) ∧
  ∀ (s : State) (c : Instr), step (s.inFront c) = exec c s

/-- Model's choice, log 3: with no command waiting one millisecond of the timebase passes; where no deadline and no idle
timer comes due, nothing else happens but the claims that can be taken; where one seek deadline comes due it expires, raising
the unanswered count and failing the motion, and where one unit idle timer does its connection ends (3.3, 8.4); before POWER ON
not even time passes. -/
def Obligations.EmptyQueuePassesOneMillisecond : Prop :=
  (∀ s : State, s.pending = [] → s.powered = false → step s = .next s) ∧
  ∀ s u : State, s.pending = [] → s.Finds u →
    let later : State := { u with now := u.now + 1 }
    ((∀ d e, (u.pos d).deadline = some e → u.now + 1 < e) → (∀ p e, (u.port p).idleTimer = some e → u.now + 1 < e) →
      step s = .next later.serveClaims) ∧
    (∀ d x, (u.pos d).deadline = some x → x ≤ u.now + 1 → (∀ o, u.op d = some o → o.alt = none) →
      (∀ d' e, d' ≠ d → (u.pos d').deadline = some e → u.now + 1 < e) →
      (∀ p e, (u.port p).idleTimer = some e → u.now + 1 < e) →
      step s = .next ((later.modPos d fun q =>
        { q with deadline := none, unanswered := min 2 (q.unanswered + 1) }).motionFailure d).serveClaims) ∧
    ∀ p x, (u.port p).idleTimer = some x → x ≤ u.now + 1 → (∀ d e, (u.pos d).deadline = some e → u.now + 1 < e) →
      (∀ p' e, p' ≠ p → (u.port p').idleTimer = some e → u.now + 1 < e) →
      step s = .next (later.endConnection p).serveClaims

/-- Every command is answered with a next state, from every state; it leaves the queue of commands alone, the timebase
never goes back but at POWER ON, and before POWER ON nothing but POWER ON changes anything (11.4, log 2). -/
def Obligations.EveryCommandAnswers : Prop :=
  ∀ (c : Instr) (s : State), ∃ t : State, exec c s = .next t ∧ t.pending = s.pending ∧
    ((∀ straps levels, c ≠ .powerOn straps levels) → s.now ≤ t.now ∧ (s.powered = false → t = s))

/-- After reset the laws of one block hold, and those of ports and transfer paths; no configured drive record names a type that
is not loaded. -/
def Obligations.ResetMeetsTheLaws : Prop :=
  State.reset.Sound ∧ State.reset.Joined ∧ ∀ d, (State.reset.record d).configured = true → (State.reset.loadedType d).isSome = true

/-- Every step keeps the laws that the spec states of every moment. Of one block: at most 12 notices a port and no two alike,
at most 32 suspect entries, one a drive and track, with counts 1 to 15, at most 96 spare entries, no two of one drive with one
home track and no track an alternate, current or pending, of two, miss counts at most 15, unanswered counts at most 2, and no
hold beside an operation in flight; each entry's home track on a data cylinder of its configured drive and its alternates on
alternate cylinders, a known counter within 0 to S − 1, a buffer's frames, and its requests with the frames held, at most two,
and an overflow flag SET only beside a queue that is not empty. Of ports and paths: each port's state, connection and offer
agree; a path held for a port is that of its connection with the path's drive or of the reconnection offered there; and no
operation holds more than one path (3.1, 4.1, 4.3, 4.5, 6.1, 7.7, 8.2, 8.7, 9.3, 10.2). In states that no run reaches the
model tests some of them again (model's choice, log 56). On a drive without an operation one begins by LOCATE, RECALIBRATE,
ASSIGN ALTERNATE or RESTORE TRACK alone, from a port of the group that has the drive reserved, where one has, and past no
other port's hold (9.3). -/
def Obligations.StepKeepsTheLaws : Prop :=
  (∀ s t : State, step s = .next t → (s.Sound → t.Sound) ∧ (s.Joined → t.Joined)) ∧
  (∀ (s t : State) (d : Drive), s.pending = [] → step s = .next t → s.op d = none → t.op d = none) ∧
  ∀ (c : Instr) (s u t : State) (d : Drive), s.Finds u → exec c s = .next t → s.op d = none → (t.op d).isSome = true →
    ∃ h : Hdr, ((∃ x rec sec, c = .locate h x rec sec) ∨ c = .recalibrate h ∨ (∃ x, c = .assignAlternate h d.val x) ∨
        ∃ x, c = .restoreTrack h d.val x) ∧
      (∀ x, (u.share d).hold = some x → x.port = h.port) ∧ ∀ g, (u.share d).owner = some g → g = (u.port h.port).group

/-- Straps change at power-on alone; a port's group by SET PATH GROUP and PORT RESET of that port, and a port's masks by SET
NOTICE MASK and PORT RESET of that port, and all by power-on; a step without a command changes none. -/
def Obligations.PortSettingsHaveOneSource : Prop :=
  (∀ (s t : State) (p : Port), s.pending = [] → step s = .next t →
    (t.port p).straps = (s.port p).straps ∧ (t.port p).group = (s.port p).group ∧
    (t.port p).maskStateChange = (s.port p).maskStateChange ∧ (t.port p).maskSpareAdvised = (s.port p).maskSpareAdvised) ∧
  ∀ (c : Instr) (s t : State) (p : Port), exec c s = .next t → (∀ straps levels, c ≠ .powerOn straps levels) →
    (t.port p).straps = (s.port p).straps ∧
    ((t.port p).group ≠ (s.port p).group → c = .portReset p ∨ ∃ h g, c = .setPathGroup h g ∧ h.port = p) ∧
    (((t.port p).maskStateChange ≠ (s.port p).maskStateChange ∨ (t.port p).maskSpareAdvised ≠ (s.port p).maskSpareAdvised) →
      c = .portReset p ∨ ∃ h a b, c = .setNoticeMask h a b ∧ h.port = p)

/-- The table store has one source each: types by LOAD DRIVE TYPE, the configured flag, type number and write-permitted flag
of a record by LOAD DRIVE RECORD of that drive; the alternate cursor never falls but by that order; power-on sets all; in a
step without a command no type and no such flag or number changes and no cursor falls. -/
def Obligations.TableStoreHasOneSource : Prop :=
  (∀ (s t : State) (d : Drive), s.pending = [] → step s = .next t →
    t.types = s.types ∧ (t.record d).configured = (s.record d).configured ∧ (t.record d).typeNo = (s.record d).typeNo ∧
    (t.record d).writePermitted = (s.record d).writePermitted ∧ (s.record d).cursor ≤ (t.record d).cursor) ∧
  ∀ (c : Instr) (s t : State) (d : Drive), exec c s = .next t → (∀ straps levels, c ≠ .powerOn straps levels) →
    (t.types ≠ s.types → ∃ h ty x, c = .loadDriveType h ty x) ∧
    ((t.record d).configured ≠ (s.record d).configured ∨ (t.record d).typeNo ≠ (s.record d).typeNo ∨
      (t.record d).writePermitted ≠ (s.record d).writePermitted ∨ (t.record d).cursor < (s.record d).cursor →
      ∃ h conf ty w cur, c = .loadDriveRecord h d.val conf ty w cur)

/-- In every state a step reaches from one that has the property, a configured drive record names a loaded type. -/
def Obligations.ConfiguredRecordsNameLoadedTypes : Prop :=
  ∀ s t : State, (∀ d, (s.record d).configured = true → (s.loadedType d).isSome = true) → step s = .next t →
    ∀ d, (t.record d).configured = true → (t.loadedType d).isSome = true

/-- Only the drive's own marks and ready changes, a LOAD DRIVE RECORD of it and power-on move a drive's angular counter, and
only WRITE-PROTECT CHANGE, READY LOST and power-on its write-protect setting; a step without a command changes neither. -/
def Obligations.SpindleHasItsOwnEvents : Prop :=
  (∀ (s t : State) (d : Drive), s.pending = [] → step s = .next t →
    (t.pos d).angle = (s.pos d).angle ∧ (t.pos d).writeProtect = (s.pos d).writeProtect) ∧
  ∀ (c : Instr) (s t : State) (d : Drive), exec c s = .next t → (∀ straps levels, c ≠ .powerOn straps levels) →
    ((t.pos d).angle ≠ (s.pos d).angle →
      c = .sectorMark d ∨ c = .indexMark d ∨ c = .readyGained d ∨ c = .readyLost d ∨
      ∃ h conf ty w cur, c = .loadDriveRecord h d.val conf ty w cur) ∧
    ((t.pos d).writeProtect ≠ (s.pos d).writeProtect → c = .readyLost d ∨ ∃ on, c = .writeProtectChange d on)

/-- Every well-formed command that is a frame is read back from the bytes that spell it, with every operand. -/
def Obligations.FramesRoundTrip : Prop :=
  ∀ (c : Instr) (p : Port) (bytes : List Byte), c.wellFormed = true → encodeFrame c = some (p, bytes) →
    decodeFrame p bytes = some c

/-- Some frames written out byte by byte: LOCATE in a SELECT, RESERVE in a COMMAND, DATA, SET PATH GROUP, TAKE; a RECALIBRATE
with a parameter too many is an unknown code, and an unknown kind is no frame. The outbound frames: STATUS, DATA, a data request
and OFFER, with their envelope and body, and the codes of reasons, details, conditions, actuator and port states, origins and
notices (8.10). -/
def Obligations.WrittenFramesDecode : Prop :=
  let two (n : Nat) : List Byte := [byteOf (n / 256), byteOf n]
  let track (x : Option Track) : List Byte := match x with
    | some t => two t.cyl ++ [byteOf t.head]
    | none => [0xFF, 0xFF, 0xFF]
  let bit (b : Bool) (n : Nat) : Nat := if b then n else 0
  decodeFrame 1 [0x01, 0x13, 0x00, 0x06, 0x10, 0x01, 0xA4, 0x07, 0x05, 0x14] =
    some (.locate { port := 1, via := .select, address := 0x13 } { cyl := 420, head := 7 } 5 20) ∧
  decodeFrame 0 [0x02, 0x03, 0x00, 0x01, 0x18] = some (.reserve { port := 0, via := .command, address := 3 }) ∧
  decodeFrame 2 [0x03, 0x20, 0x00, 0x06, 0x01, 0x00, 0x00, 0x02, 0xAB, 0xCD] = some (.data 2 0x20 256 2 [0xAB, 0xCD]) ∧
  decodeFrame 3 [0x01, 0x08, 0x00, 0x02, 0x49, 0x0F] =
    some (.setPathGroup { port := 3, via := .select, address := 8 } 15) ∧
  decodeFrame 0 [0x07, 0x05, 0x00, 0x00] = some (.take 0 5) ∧
  decodeFrame 0 [0x01, 0x05, 0x00, 0x02, 0x15, 0x00] =
    some (.unknownCommandCode { port := 0, via := .select, address := 5 } 0x15 [0x00]) ∧
  decodeFrame 0 [0x09, 0x05, 0x00, 0x00] = none ∧
  (∀ (a : Nat) (st : Status) (e : Bool),
    let body : List Byte :=
      [byteOf (bit st.accept 0x80 + bit st.disconnect 0x40 + bit st.done 0x20 + bit st.matched 0x10 + bit st.endCyl 0x08 +
          bit st.halted 0x04 + bit st.held 0x02 + bit st.fault 0x01), byteOf st.reason.code, byteOf st.detail.code] ++
        two st.residual
    (st.alt = none → (OutFrame.status a st e).bytes = [0x81, byteOf a, 0, 5] ++ body) ∧
    ∀ x, st.alt = some x → (OutFrame.status a st e).bytes = [0x81, byteOf a, 0, 16] ++ body ++
      [byteOf (if x.order = .assign then 1 else 2), byteOf x.drive.val] ++ track (some x.home) ++ track x.alternate ++
      [byteOf (bit (decide (x.marked = some true)) 2 + bit (decide (x.retired = some true)) 1)] ++ two x.cursor) ∧
  (∀ (a off : Nat) (bs : List Byte),
    (OutFrame.data a off bs).bytes = [0x83, byteOf a] ++ two (4 + bs.length) ++ two off ++ two bs.length ++ bs) ∧
  (∀ a off n : Nat, (OutFrame.request a off n).bytes = [0x83, byteOf a, 0, 4] ++ two off ++ two n) ∧
  (∀ (a : Nat) (d : Drive) (t : Track),
    (OutFrame.offer a (.reconnect d)).bytes = [0x85, byteOf a, 0, 1, 1] ∧
    (OutFrame.offer a (.status d)).bytes = [0x85, byteOf a, 0, 1, 2] ∧
    (OutFrame.offer a (.notice (.deviceFree d))).bytes = [0x85, byteOf a, 0, 6, 3, 1, byteOf d.val, 0xFF, 0xFF, 0xFF] ∧
    (OutFrame.offer a (.notice (.stateChange d))).bytes = [0x85, byteOf a, 0, 6, 3, 2, byteOf d.val, 0xFF, 0xFF, 0xFF] ∧
    (OutFrame.offer a (.notice (.reserveBroken d))).bytes = [0x85, byteOf a, 0, 6, 3, 3, byteOf d.val, 0xFF, 0xFF, 0xFF] ∧
    (OutFrame.offer a (.notice (.spareAdvised d t))).bytes =
      [0x85, byteOf a, 0, 6, 3, 4, byteOf d.val] ++ two t.cyl ++ [byteOf t.head] ∧
    (OutFrame.offer a (.notice .rescan)).bytes = [0x85, byteOf a, 0, 6, 3, 5, 0xFF, 0xFF, 0xFF, 0xFF]) ∧
  [Reason.none, .busy, .reserved, .hold, .portBusy].map Reason.code = [0, 1, 2, 3, 4] ∧
  [FaultKind.commandReject, .notConfigured, .notReady, .notWritable, .equipmentCheck, .notFound, .idCheck, .dataCheck,
    .homeCheck, .overrun, .spareConflict, .noAlternate, .mapFull].map (fun k => (Reason.fault k).code) =
    [0x10, 0x11, 0x12, 0x13, 0x14, 0x15, 0x16, 0x17, 0x18, 0x19, 0x1A, 0x1B, 0x1C] ∧
  [Detail.none, .seek, .recalibrate, .misposition, .noResponse, .read, .write, .homeUnmarked, .altUnmarked, .homeCondition,
    .alternateCondition, .pointerRange, .pointerHeld, .exhausted, .skipLimit, .noConnection].map Detail.code =
    [0, 1, 2, 3, 4, 5, 6, 7, 8, 9, 10, 11, 12, 13, 14, 15] ∧
  (∀ t, [none, some .good, some (.defective t), some .freeAlternate, some (.alternate t), some .retired].map conditionCode =
    [0, 1, 2, 3, 4, 5]) ∧
  [Actuator.notReady, .uncalibrated, .onCylinder, .seeking, .recalibrating].map Actuator.code = [0, 1, 2, 3, 4] ∧
  [PortState.disabled, .idle, .connected, .offering, .resetting].map PortState.code = [0, 1, 2, 3, 4] ∧
  [Origin.loaded, .learned, .assigned].map Origin.code = [1, 2, 3]

/-! ## Shared operations -/

/-- A SELECT or COMMAND, by the state of its port, and where the command it carries is taken: HELD PORT-BUSY in a connection
with the unit that stands rearms its idle timer (log 41: from its production), unless an order is unanswered, and in one that
holds an operation it sets the idle count to 0 (5.1); a COMMAND with another address than the connection's is refused with
COMMAND REJECT and the connection's address, a command in progress stopped with its residual, at once or, in a write inside
its field, at its FIELD WRITTEN, a READ whose outcome only waits for the buffer at once (model's choice, log 38), a READ DRIVE
STATE likewise, its DATA frame discarded (model's choice, log 73), and a connection with a drive ended, its operation as the
STATUS is produced, with no hold to begin too (deduced, log 1). A COMMAND to a connection that is being set aside, or whose
ending STATUS is produced, is refused with DISCONNECT, nothing else changed (model's choice, logs 18 and 34). The refusals of
drive commands as a COMMAND in a connection with a drive: where it holds an operation, any of them while a command is in
progress, which is stopped likewise, and LOCATE, RECALIBRATE, RESERVE, READ FAULT RECORD, RELEASE, RESERVE UNCONDITIONAL and
unknown codes always; where it holds none, LOCATE, RECALIBRATE, SEARCH, READ, WRITE, FORMAT TRACK and unknown codes, and any
of them while an answer is due. READ DRIVE STATE and the last three of chapter 9, and their codes with parameters that do not
fit, give no hold (log 30). A write being stopped already goes on to the end it was given (log 22) (8.1, 8.2, 8.4, 8.6). -/
def Obligations.FramesByPortState : Prop :=
  ∀ (u : State) (h : Hdr),
    let reject (residual : Nat) : Status := { fault := true, reason := .fault .commandReject, residual := residual }
    let emptied := u.modPort h.port fun r => { r with link := dropData r.link, held := [], requests := [], answer := none }
    let bare (d : Drive) : State := (emptied.modPort h.port fun r => { r with awaiting := false }).sendStatus h.port (.drive d)
      { reject 0 with disconnect := true } true
    -- the operation o of drive d, connected on the port, refused a COMMAND, with a hold or without
    let ended (d : Drive) (o : Operation) (hold : Bool) (v : State) (residual : Nat) : State :=
      if hold then v.faultInConnection d h.port o .commandReject .none residual none
      else ((v.modPort h.port fun r => { r with answer := none, held := [], requests := [] }).sendStatus h.port (.drive d)
        { reject residual with disconnect := true } true).endOperation d
    let stopped (d : Drive) (o : Operation) (hold : Bool) (v : State) : Prop :=
      (o.cmd = none ∨ (∃ f, o.cmd = some (.locate f)) ∨ (∃ k g ph, o.cmd = some (.search k g ph)) ∨
          (∃ f, o.cmd = some (.format f) ∧ f.begun = false) → v = ended d o hold u 0) ∧
      (o.cmd = some .driveState → v = ended d o hold emptied 0) ∧
      (∀ r, o.cmd = some (.read r) → v = ended d o hold emptied (o.byteCount - max o.accounted r.sentTo)) ∧
      (∀ w, o.cmd = some (.write w) →
        (w.begun = false → v = ended d o hold emptied (o.byteCount - w.bytes.length)) ∧
        (w.begun = true → w.stop = none → v = emptied.setOp d (some { o with
          cmd := some (.write { w with stop := some (.rejected hold), toAsk := [] }) })) ∧
        (w.begun = true → w.stop.isSome = true → v = u)) ∧
      ∀ f, o.cmd = some (.format f) → f.begun = true →
        (f.stop = none → v = u.setOp d (some { o with cmd := some (.format { f with stop := some (.rejected hold) }) })) ∧
        (f.stop.isSome = true → v = u)
    let chapter9 (i : Instr) : Prop := i = .readFaultRecord h ∨ i = .release h ∨ i = .reserveUnconditional h
    let opens (i : Instr) : Prop := i = .recalibrate h ∨ ∃ x rec sec, i = .locate h x rec sec
    let chains (i : Instr) : Prop :=
      (∃ c a, i = .search h c a) ∨ (∃ n sp, i = .read h n sp) ∨ (∃ n, i = .write h n) ∨ ∃ ds, i = .formatTrack h ds
    let unknown (i : Instr) (exempt : Bool) : Prop := ∃ code ps, i = .unknownCommandCode h code ps ∧
      (code ∈ [0x16, 0x17, 0x19, 0x1A] ↔ exempt = true)
    ((u.port h.port).state = .disabled ∨ (u.port h.port).named h.address = none → u.receive h = (u, .nowhere)) ∧
    (∀ c : Conn, (u.port h.port).named h.address = some c →
      (h.via = .select → (u.port h.port).state = .idle →
        u.receive h = (u.modPort h.port fun r => { r with state := .connected, conn := some c }, .first c)) ∧
      (h.via = .select → (u.port h.port).state = .offering → (u.port h.port).sent = false →
        u.receive h = ((u.deferOffer h.port).modPort h.port fun r => { r with state := .connected, conn := some c }, .first c)) ∧
      (h.via = .select → ((u.port h.port).state = .offering ∧ (u.port h.port).sent = true ∨ (u.port h.port).state = .resetting) →
        u.receive h = (u.sendStatus h.port c { held := true, disconnect := true, reason := .portBusy } false, .nowhere)) ∧
      (h.via = .select → (u.port h.port).state = .connected → (u.port h.port).ending = true ∨ (u.port h.port).draining = true →
        u.receive h = (u.sendStatus h.port c { held := true, disconnect := true, reason := .portBusy } false, .nowhere)) ∧
      (h.via = .select → (u.port h.port).state = .connected → (u.port h.port).ending = false → (u.port h.port).draining = false →
        let busy := u.sendStatus h.port c { held := true, reason := .portBusy } false
        ((u.port h.port).conn = some .unit → (u.port h.port).answer = none →
          u.receive h = (busy.modPort h.port fun r => { r with idleTimer := some (u.now + 250) }, .nowhere)) ∧
        ((u.port h.port).conn = some .unit → (u.port h.port).answer.isSome = true → u.receive h = (busy, .nowhere)) ∧
        ((u.port h.port).conn = none → u.receive h = (busy, .nowhere)) ∧
        ∀ d, (u.port h.port).conn = some (.drive d) →
          (∀ o, u.op d = some o → o.conn = some h.port →
            u.receive h = (busy.setOp d (some { o with idle := 0 }), .nowhere)) ∧
          ((∀ o, u.op d = some o → o.conn ≠ some h.port) → u.receive h = (busy, .nowhere))) ∧
      (h.via = .command → ((u.port h.port).state = .idle ∨ (u.port h.port).state = .offering) →
        u.receive h = (u.sendStatus h.port c
          { fault := true, disconnect := true, reason := .fault .commandReject, detail := .noConnection } false, .nowhere)) ∧
      (h.via = .command → (u.port h.port).state = .resetting → u.receive h = (u, .nowhere)) ∧
      (h.via = .command → (u.port h.port).state = .connected → (u.port h.port).conn = some c →
        (u.port h.port).ending = false → (u.port h.port).draining = false → u.receive h = (u, .within c)) ∧
      (∀ c' : Conn, h.via = .command → (u.port h.port).state = .connected → (u.port h.port).conn = some c' →
        (u.port h.port).ending = true ∨ (u.port h.port).draining = true →
        u.receive h = (u.sendStatus h.port c' { reject 0 with disconnect := true } false, .nowhere)) ∧
      ∀ c' : Conn, h.via = .command → (u.port h.port).state = .connected → (u.port h.port).conn = some c' → c' ≠ c →
        (u.port h.port).ending = false → (u.port h.port).draining = false →
        (c' = .unit →
          ((u.port h.port).answer = none → (u.port h.port).closing = false → u.receive h =
            ((u.sendStatus h.port .unit (reject 0) false).modPort h.port fun r => { r with idleTimer := some (u.now + 250) },
              .nowhere)) ∧
          ((u.port h.port).answer.isSome = true → u.receive h = (u.sendStatus h.port .unit (reject 0) false, .nowhere))) ∧
        ∀ d, c' = .drive d →
          ((∀ o, u.op d = some o → o.conn ≠ some h.port) → u.receive h = (bare d, .nowhere)) ∧
          ∀ o v, u.op d = some o → o.conn = some h.port → stopped d o true v → u.receive h = (v, .nowhere)) ∧
    ∀ (s : State) (d : Drive), s.Finds u → u.Stands h (.drive d) →
      (∀ o v hold i, u.op d = some o → o.conn = some h.port → stopped d o hold v →
        (hold = true ∧ (opens i ∨ i = .reserve h ∨ unknown i false) ∨ hold = false ∧ (chapter9 i ∨ unknown i true) ∨
          o.cmd ≠ none ∧ (hold = true ∧ chains i ∨ hold = false ∧ i = .readDriveState h)) →
        exec i s = .next v.serveClaims) ∧
      ((∀ o, u.op d = some o → o.conn ≠ some h.port) →
        ∀ i, (opens i ∨ chains i ∨ (∃ e, unknown i e) ∨
            ((u.port h.port).answer.isSome = true ∨ (u.port h.port).awaiting = true) ∧
              (chapter9 i ∨ i = .reserve h ∨ i = .readDriveState h)) →
          exec i s = .next (bare d).serveClaims)

/-- Admission tests its conditions in the order of the table; RELEASE passes over steps 3 and 4 (9.3). A drive command that
admission refuses as the first of a SELECT is answered with DISCONNECT and residual 0 and goes no further; a HELD answer puts the
port in the owed set, marked COMMAND (9.3). LOCATE, RECALIBRATE, RESERVE and an unknown code are tested at steps 1 to 5; READ
FAULT RECORD at 1 and 2 from the holding port, else at all; RELEASE at 1, 2 and 5; RESERVE UNCONDITIONAL at 1 and 2. SEARCH,
READ, WRITE and FORMAT TRACK have no row in that table: that they are tested at steps 1 to 5 is the model's choice, deduced from
5.1 (log 10), and so is that a code of chapter 9 with parameters that do not fit is tested as its command (log 30). -/
def Obligations.AdmissionTakesTheFirstConditionMet : Prop :=
  (∀ (u : State) (d : Drive) (p : Port),
    ((u.record d).configured = false → ∀ st, u.admission d p st = .fault .notConfigured) ∧
    ((u.record d).configured = true → (u.pos d).actuator = .notReady → ∀ st, u.admission d p st = .fault .notReady) ∧
    ((u.record d).configured = true → (u.pos d).actuator ≠ .notReady →
      ((∃ x, (u.share d).hold = some x ∧ x.port ≠ p) → u.admission d p .all = .held .hold) ∧
      ((∀ x, (u.share d).hold = some x → x.port = p) →
        ((∃ g, (u.share d).owner = some g ∧ g ≠ (u.port p).group) → u.admission d p .all = .held .reserved) ∧
        ((∀ g, (u.share d).owner = some g → g = (u.port p).group) →
          u.admission d p .all = if (u.op d).isSome then .held .busy else .admitted)) ∧
      u.admission d p .release = (if (u.op d).isSome then .held .busy else .admitted) ∧
      u.admission d p .ready = .admitted)) ∧
  ∀ (s u r : State) (h : Hdr) (d : Drive) (i : Instr) (st : Steps), s.Finds u → u.Opens h (.drive d) r →
    let own : Prop := ∃ x, (r.share d).hold = some x ∧ x.port = h.port
    let code (n : Nat) : Prop := ∃ ps, i = .unknownCommandCode h n ps
    (st = .all ∧ (i = .recalibrate h ∨ i = .reserve h ∨ (∃ t rec sec, i = .locate h t rec sec) ∨ (∃ n, i = .write h n) ∨
        (∃ n sp, i = .read h n sp) ∨ (∃ c a, i = .search h c a) ∨ (∃ ds, i = .formatTrack h ds) ∨
        ∃ n, code n ∧ n ∉ [0x16, 0x17, 0x19, 0x1A]) ∨
      (i = .readFaultRecord h ∨ code 0x17) ∧ (own → st = .ready) ∧ (¬ own → st = .all) ∨
      st = .release ∧ (i = .release h ∨ code 0x1A) ∨ st = .ready ∧ (i = .reserveUnconditional h ∨ code 0x19)) →
    (∀ k, r.admission d h.port st = .fault k →
      exec i s = .next (r.reply h.port d { fault := true, reason := .fault k }).serveClaims) ∧
    ∀ x, r.admission d h.port st = .held x →
      exec i s = .next ((r.setShare d { r.share d with owed := (r.share d).owed.set h.port (some .command) }).reply
        h.port d { held := true, reason := x }).serveClaims

/-- The end of a connection: the port is IDLE, its buffer, requests and timer are gone, and so is an offer, which no port has
beside a connection (8.2); STATUS and OFFER frames produced still leave but end nothing (log 21), each STATUS with DISCONNECT,
also one produced to let the connection stand (8.5; log 59), a data request that has not left does not (model's choice, log
75), a path held for it is FREE, its presentation hold CLEAR, and it may be offered statuses it had deferred; nothing else
changes (8.4, 4.7, 10.2, 5.12). A STATUS is sent with the address of the drive or the unit in the port's window, after the
frames before it; one that ends a drive connection carries DISCONNECT, and ends it unless an ending one is produced already.
An offer dropped leaves its port IDLE, its OFFER frame, where it has not left, discarded; the path of a port, or that of a
drive's INTERNAL grant, becomes FREE; the offers of a drive's operation withdrawn are the RECONNECT and the STATUS of that
drive, each with its path (8.6, 4.6, 4.7). An offer deferred, or withdrawn by a SELECT, goes likewise: a reconnection's
request stays ACTIVE in an OPEN window, without that port, or lapses with a miss in a CLOSED one, a status is not offered to
that port again, and a notice sets the presentation hold (4.6, 5.12, 8.6, 10.4). -/
def Obligations.ConnectionEnds : Prop :=
  (∀ (s : State) (p : Port) (d : Drive) (st : Status),
    (s.port p).addressOf (.drive d) = 16 * (s.port p).straps.window.val + d.val ∧
    (s.port p).addressOf .unit = 16 * (s.port p).straps.window.val + 8 ∧
    (∀ c e, s.sendStatus p c st e = s.modPort p fun r => { r with link := r.link ++ [.status (r.addressOf c) st e] }) ∧
    s.reply p d st = s.modPort p fun r => { r with
      link := r.link ++ [.status (r.addressOf (.drive d)) { st with disconnect := true } (r.link.all fun f => !f.isEnding)] }) ∧
  (∀ (s : State) (p : Port),
    ((s.port p).offer = none → s.deferOffer p = s) ∧
    (∀ d o x b, (s.port p).offer = some (.reconnect d, b) → s.op d = some o → o.orient = some x →
      (x.windowOpen = true → s.deferOffer p = ((s.dropOffer p).freePathOfPort p).setOp d
        (some { o with orient := some { x with req := .active, deferred := x.deferred.set p true } })) ∧
      (x.windowOpen = false → s.deferOffer p = ((s.dropOffer p).freePathOfPort p).setOp d (some { o with
        miss := min 15 (o.miss + 1),
        orient := some { x with req := .dormant, windowOpen := false, deferred := PortSet.none, tested := false } }))) ∧
    (∀ d o b, (s.port p).offer = some (.status d, b) → s.op d = some o → s.deferOffer p =
      (s.dropOffer p).setOp d (some { o with statusDeferred := o.statusDeferred.set p true })) ∧
    ∀ n b, (s.port p).offer = some (.notice n, b) → s.deferOffer p =
      (s.dropOffer p).setQueue p { s.queue p with held := true }) ∧
  (∀ (s : State) (p : Port),
    let t := s.endConnection p
    t.port p = { s.port p with
      state := .idle, conn := none, offer := none, held := [], requests := [], idleTimer := none, answer := none,
      closing := false, draining := false, awaiting := false,
      link := (s.port p).link.filterMap fun f => match f with
        | .status a st _ => some (.status a { st with disconnect := true } false)
        | .offer a o => some (.offer a o)
        | .data _ _ _ | .request _ _ _ => none } ∧
    (t.port p).state = .idle ∧ (t.port p).conn = none ∧ (t.port p).held = [] ∧ (t.port p).requests = [] ∧
    (t.port p).idleTimer = none ∧ (t.port p).answer = none ∧ (t.port p).slots = 0 ∧ (t.port p).ending = false ∧
    (t.port p).group = (s.port p).group ∧ (t.queue p).held = false ∧ (t.queue p).notices = (s.queue p).notices ∧
    (∀ q, q ≠ p → t.port q = s.port q ∧ t.queue q = s.queue q) ∧
    (∀ n, t.path n = match s.path n with
      | some x => if x.port = some p then none else some x
      | none => none) ∧
    (∀ d, t.op d = (s.op d).map fun o => { o with statusDeferred := o.statusDeferred.set p false }) ∧
    t.sharing = s.sharing ∧ t.positioners = s.positioners ∧ t.records = s.records ∧ t.types = s.types ∧
    t.spareMap = s.spareMap ∧ t.suspects = s.suspects ∧ t.lastAlt = s.lastAlt ∧ t.finishing = s.finishing ∧ t.now = s.now ∧
    t.powered = s.powered ∧ t.due = s.due ∧ t.choices = s.choices ∧ t.pending = s.pending) ∧
  ∀ (s : State) (p : Port) (d : Drive),
    s.dropOffer p = s.modPort p (fun r => { r with
      state := .idle, offer := none, link := r.link.filter fun f => !f.isOffer }) ∧
    s.freePathOfPort p = { s with paths := s.paths.map fun h => h.bind fun x => if x.port = some p then none else some x } ∧
    s.freeInternalPath d = { s with
      paths := s.paths.map fun h => h.bind fun x => if x.drive = d ∧ x.port = none then none else some x } ∧
    let offers (q : Port) : Prop :=
      (s.port q).offer.map Prod.fst = some (.reconnect d) ∨ (s.port q).offer.map Prod.fst = some (.status d)
    ((∀ q, ¬ offers q) → s.withdrawOffersOf d = s) ∧
    (offers p → (∀ q, q ≠ p → ¬ offers q) → s.withdrawOffersOf d = (s.dropOffer p).freePathOfPort p)

/-- The test of a drive's owed set: each port admitted now leaves the set with a DEVICE-FREE, the others keep their mark. A
port marked COMMAND is admitted now when the drive has no hold by another port, is not reserved by a group other than the
port's, and has no operation in flight, one marked ORDER when it has no operation in flight. Holds and reservation stay, and
no other drive's set is touched (9.6). A hold begins with the port, the fault record and the timer at the hold limit of the type;
the holding port's command that has passed admission ends it, with that test; another port's hold stays (9.5). -/
def Obligations.OwedSetTested : Prop :=
  (∀ (s : State) (d : Drive) (p : Port) (r : FaultRecord),
    s.beginHold d p r = s.setShare d { s.share d with
      hold := some { port := p, timer := (s.typeOf d).holdLimit, record := r } } ∧
    (∀ x, (s.share d).hold = some x → x.port = p →
      s.endOwnHold d p = (s.setShare d { s.share d with hold := none }).owedTest d) ∧
    ((∀ x, (s.share d).hold = some x → x.port ≠ p) → s.endOwnHold d p = s)) ∧
  ∀ (s : State) (d : Drive),
    let now (p : Port) (m : OwedMark) : Prop :=
      s.op d = none ∧ (m = .command →
        (∀ x, (s.share d).hold = some x → x.port = p) ∧ ∀ g, (s.share d).owner = some g → g = (s.port p).group)
    (∀ p, (s.share d).owes p = none → ((s.owedTest d).share d).owes p = none) ∧
    (∀ p m, (s.share d).owes p = some m → now p m →
      ((s.owedTest d).share d).owes p = none ∧
      (s.owedTest d).queue p = { s.queue p with notices :=
        if (s.port p).state = .disabled then (s.queue p).notices
        else (enterQueue (s.queue p).notices (s.port p).offersNotice (.deviceFree d)).1 }) ∧
    (∀ p m, (s.share d).owes p = some m → ¬ now p m → ((s.owedTest d).share d).owes p = some m) ∧
    (∀ p, ((s.share d).owes p = none ∨ ∃ m, (s.share d).owes p = some m ∧ ¬ now p m) →
      (s.owedTest d).queue p = s.queue p ∧ (s.owedTest d).port p = s.port p) ∧
    ((s.owedTest d).share d).hold = (s.share d).hold ∧ ((s.owedTest d).share d).owner = (s.share d).owner ∧
    (∀ e, e ≠ d → (s.owedTest d).share e = s.share e) ∧ (s.owedTest d).ops = s.ops

/-- A notice posted to a queue, by the five cases in their order (10.2). `underOffer` is that the port is OFFERING a
notice, the head; entry is the queue after, and whether the overflow flag becomes SET. Posted to a port, it enters that port's
queue, the overflow flag becomes SET where the fourth case says so and stays SET where it was, and nothing else changes; a
DISABLED port is given nothing (10.1, 10.2). -/
def Obligations.NoticeEntersItsQueue : Prop :=
  (∀ (s : State) (p : Port) (n : Notice),
    ((s.port p).state = .disabled → s.post p n = s) ∧
    ((s.port p).state ≠ .disabled →
      let e := enterQueue (s.queue p).notices (s.port p).offersNotice n
      s.post p n = { s with
        queues := s.queues.set p { s.queue p with notices := e.1 },
        ports := s.ports.set p { s.port p with overflow := if e.2 = true then true else (s.port p).overflow } } ∧
      ((s.port p).offersNotice = true ↔ ∃ x b, (s.port p).offer = some (.notice x, b)))) ∧
  ∀ (q : List Notice) (underOffer : Bool) (n : Notice),
    (n ∈ q → enterQueue q underOffer n = (q, false)) ∧
    (n ∉ q → q.length < 12 → enterQueue q underOffer n = (q ++ [n], false)) ∧
    (n ∉ q → 12 ≤ q.length → n.isSpareAdvised = false → ∀ a x b, q = a ++ x :: b → x.isSpareAdvised = true →
      (underOffer = true → a ≠ []) → (∀ y ∈ (if underOffer then a.tail else a), y.isSpareAdvised = false) →
      enterQueue q underOffer n = (a ++ b ++ [n], false)) ∧
    (n ∉ q → 12 ≤ q.length → n.isSpareAdvised = false → (∀ y ∈ (if underOffer then q.tail else q), y.isSpareAdvised = false) →
      enterQueue q underOffer n = (q, true)) ∧
    (n ∉ q → 12 ≤ q.length → n.isSpareAdvised = true → enterQueue q underOffer n = (q, false))

/-- An update of the suspect list: a known entry's count rises, to at most 15, and it moves to the front keeping its advised
flag; an unknown one joins the front with count 1, a full list losing its last. Below the sparing threshold, or with the advice
given before, nothing else happens; at it the entry is advised and SPARE-ADVISED posted (7.7). SPARE-ADVISED goes to the ports
of the reservation owner's group that are neither DISABLED nor RESETTING, or, without an owner, to those IDLE or CONNECTED, in
each case where the mask enables it; other ports keep their queue (7.7, 10.3). -/
def Obligations.SuspectListUpdated : Prop :=
  (∀ (s : State) (d : Drive) (phys logical : Track) (k : FaultKind),
    (∀ a e b, s.suspects = a ++ e :: b → e.drive = d → e.physical = phys → (∀ x ∈ a ++ b, ¬ (x.drive = d ∧ x.physical = phys)) →
      let e' : Suspect := { e with count := min 15 (e.count + 1), logical := logical, lastKind := k }
      (e'.count < (s.typeOf d).threshold ∨ e.advised = true →
        s.suspectUpdate d phys logical k = { s with suspects := e' :: (a ++ b) }) ∧
      ((s.typeOf d).threshold ≤ e'.count → e.advised = false →
        s.suspectUpdate d phys logical k =
          ({ s with suspects := { e' with advised := true } :: (a ++ b) } : State).postSpareAdvised d logical)) ∧
    ((∀ x ∈ s.suspects, ¬ (x.drive = d ∧ x.physical = phys)) →
      let e' : Suspect := { drive := d, physical := phys, logical := logical, count := 1, lastKind := k, advised := false }
      (1 < (s.typeOf d).threshold →
        s.suspectUpdate d phys logical k = { s with suspects := e' :: s.suspects.take 31 }) ∧
      ((s.typeOf d).threshold ≤ 1 →
        s.suspectUpdate d phys logical k =
          ({ s with suspects := { e' with advised := true } :: s.suspects.take 31 } : State).postSpareAdvised d logical))) ∧
  ∀ (s : State) (d : Drive) (t : Track) (p : Port),
    let named : Prop := (s.port p).maskSpareAdvised = true ∧
      ((∃ g, (s.share d).owner = some g ∧ (s.port p).group = g ∧ (s.port p).state ≠ .disabled ∧ (s.port p).state ≠ .resetting) ∨
       ((s.share d).owner = none ∧ ((s.port p).state = .idle ∨ (s.port p).state = .connected)))
    (named → (s.postSpareAdvised d t).queue p =
      { s.queue p with notices := (enterQueue (s.queue p).notices (s.port p).offersNotice (.spareAdvised d t)).1 }) ∧
    (¬ named → (s.postSpareAdvised d t).queue p = s.queue p)

/-- Translation: an ACTIVE entry with a current alternate gives it, expecting ALTERNATE with the home track as pointer; every
other case gives the track itself, expecting GOOD; the entry used is named (6.2). What home verification makes of a condition
found at the track's own address: the table for each expected condition and the first two steps of learning. Learning itself:
the entry becomes ACTIVE with the pointer as its current alternate, origin LEARNED, in its place; without an entry a new one
joins the end of a map with room; a full map stays (6.3). -/
def Obligations.TranslationAndVerification : Prop :=
  (∀ (s : State) (d : Drive) (t : Track),
    (∀ e q, s.entryFor d t = some e → e.active = true → e.current = some q →
      s.translate d t = { target := q, expected := .alternate t, entry := some t }) ∧
    (∀ e, s.entryFor d t = some e → e.active = false ∨ e.current = none →
      s.translate d t = { target := t, expected := .good, entry := some t }) ∧
    (s.entryFor d t = none → s.translate d t = { target := t, expected := .good, entry := none }) ∧
    (∀ e, s.entryFor d t = some e → e ∈ s.spareMap ∧ e.drive = d ∧ e.home = t) ∧
    (s.entryFor d t = none → ∀ e ∈ s.spareMap, e.drive = d → e.home ≠ t)) ∧
  (∀ (s : State) (d : Drive) (t p : Track),
    (∀ e, s.entryFor d t = some e → s.learn d t p = { s with
      spareMap := s.spareMap.map fun x =>
        if x.drive = d ∧ x.home = t then { x with active := true, current := some p, origin := .learned } else x }) ∧
    (s.entryFor d t = none → s.spareMap.length < 96 → s.learn d t p = { s with
      spareMap := s.spareMap ++
        [{ drive := d, home := t, current := some p, pending := none, origin := .learned, active := true }] }) ∧
    (s.entryFor d t = none → 96 ≤ s.spareMap.length → s.learn d t p = s)) ∧
  ∀ (s : State) (d : Drive) (t : Track),
    (∀ x, s.verdict d t (.alternate t) x = if x = .alternate t then .verified else .conflict .alternateCondition) ∧
    s.verdict d t .good .good = .verified ∧
    (∀ x, s.verdict d t .good (.alternate x) = .conflict .homeCondition) ∧
    s.verdict d t .good .freeAlternate = .conflict .homeCondition ∧ s.verdict d t .good .retired = .conflict .homeCondition ∧
    ∀ p, (¬ ((s.typeOf d).dataCyls ≤ p.cyl ∧ p.cyl < (s.typeOf d).dataCyls + (s.typeOf d).altCyls ∧ p.head < (s.typeOf d).heads) →
        s.verdict d t .good (.defective p) = .conflict .pointerRange) ∧
      ((s.typeOf d).dataCyls ≤ p.cyl → p.cyl < (s.typeOf d).dataCyls + (s.typeOf d).altCyls → p.head < (s.typeOf d).heads →
        ((∃ e ∈ s.spareMap, e.drive = d ∧ e.home ≠ t ∧ (e.current = some p ∨ e.pending = some p)) →
          s.verdict d t .good (.defective p) = .conflict .pointerHeld) ∧
        ((∀ e ∈ s.spareMap, e.drive = d → e.home ≠ t → e.current ≠ some p ∧ e.pending ≠ some p) →
          s.verdict d t .good (.defective p) = .learn p))

/-- A positioning, by the actuator state it begins in: a seek with its deadline, a recalibrate with its own, a wait for a
motion left over, or arrival at once; with two expired orders unanswered no order is sent (3.3, 3.4). After learning the
operation positions likewise to the track learned, and on arrival its home field is read, whatever the track status (6.3). -/
def Obligations.PositioningByActuatorState : Prop :=
  (∀ (s : State) (d : Drive) (o : Operation) (t : Track), s.op d = some o →
    let s' := s.setOp d (some { o with work := .positioning })
    let ty := s.typeOf d
    let moving (kind : Actuator) (cyl dist : Nat) : State := s'.modPos d fun q =>
      { q with actuator := kind, cyl := none, motionTarget := some cyl, owned := true, status := none,
               deadline := some (s.now + (ty.settleTime + (dist * ty.stepTime + 999) / 1000 + 10)) }
    let reading (v : State) : State := v.setOp d (some { o with
      work := .readHome, rereads := 0, rereadDue := false,
      orient := some { external := false, sector := 0, req := .dormant, windowOpen := false, later := false,
                       deferred := PortSet.none, tested := false } })
    (∀ c, (s.pos d).actuator = .onCylinder → (s.pos d).cyl = some c → c ≠ t.cyl → (s.pos d).unanswered < 2 →
      s.reposition d t = moving .seeking t.cyl (distance t.cyl c)) ∧
    ((s.pos d).actuator = .uncalibrated → (s.pos d).unanswered < 2 →
      s.reposition d t = moving .recalibrating 0 (ty.dataCyls + ty.altCyls)) ∧
    ((s.pos d).actuator = .seeking ∨ (s.pos d).actuator = .recalibrating → s.reposition d t = s') ∧
    ((s.pos d).actuator = .uncalibrated ∨ (s.pos d).actuator = .onCylinder ∧ (s.pos d).cyl ≠ some t.cyl →
      2 ≤ (s.pos d).unanswered → s.reposition d t = s'.equipmentCheck d .noResponse) ∧
    ((s.pos d).actuator = .onCylinder → (s.pos d).cyl = some t.cyl →
      ((s.pos d).head = some t.head → s.reposition d t = reading s) ∧
      ((s.pos d).head ≠ some t.head →
        s.reposition d t = reading (s.modPos d fun q => { q with head := some t.head, status := none })))) ∧
  ∀ (s : State) (d : Drive) (o : Operation) (t : Track), s.op d = some o → o.target = some t →
    let s' := s.setOp d (some { o with work := .positioning, orient := none })
    let ty := s.typeOf d
    (∀ c, (s.pos d).actuator = .onCylinder → (s.pos d).cyl = some c → c ≠ t.cyl → (s.pos d).unanswered < 2 →
      s.position d = s'.modPos d fun q =>
        { q with actuator := .seeking, cyl := none, motionTarget := some t.cyl, owned := true, status := none,
                 deadline := some (s.now + (ty.settleTime + (distance t.cyl c * ty.stepTime + 999) / 1000 + 10)) }) ∧
    ((s.pos d).actuator = .uncalibrated → (s.pos d).unanswered < 2 →
      s.position d = s'.modPos d fun q =>
        { q with actuator := .recalibrating, cyl := none, motionTarget := some 0, owned := true, status := none,
                 deadline := some (s.now + (ty.settleTime + ((ty.dataCyls + ty.altCyls) * ty.stepTime + 999) / 1000 + 10)) }) ∧
    ((s.pos d).actuator = .seeking ∨ (s.pos d).actuator = .recalibrating → s.position d = s') ∧
    ((s.pos d).actuator = .uncalibrated ∨ (s.pos d).actuator = .onCylinder ∧ (s.pos d).cyl ≠ some t.cyl →
      2 ≤ (s.pos d).unanswered → s.position d = s'.equipmentCheck d .noResponse) ∧
    ((s.pos d).actuator = .onCylinder → (s.pos d).cyl = some t.cyl → (s.pos d).head ≠ some t.head →
      s.position d = (s'.modPos d fun q => { q with head := some t.head, status := none }).setOp d
        (some { o with work := .readHome, rereads := 0, rereadDue := false,
                       orient := some { external := false, sector := 0, req := .dormant, windowOpen := false, later := false,
                                        deferred := PortSet.none, tested := false } })) ∧
    ((s.pos d).actuator = .onCylinder → (s.pos d).cyl = some t.cyl → (s.pos d).head = some t.head →
      (s.pos d).status = none → s.position d = s.setOp d
        (some { o with work := .readHome, rereads := 0, rereadDue := false,
                       orient := some { external := false, sector := 0, req := .dormant, windowOpen := false, later := false,
                                        deferred := PortSet.none, tested := false } })) ∧
    (∀ c, (s.pos d).actuator = .onCylinder → (s.pos d).cyl = some t.cyl → (s.pos d).head = some t.head →
      (s.pos d).status = some c → o.alt = none → s.position d = s'.judgeHome d c)

/-- The request sector and the slack of an orientation sector o, at a counter a, and how the slack runs: within 0 to S − 1,
falling by 1 at each mark, 0 at the target sector and then S − 1; without a counter there is none (4.2). -/
def Obligations.RequestSectorAndSlack : Prop :=
  (∀ (t : DriveType) (o a : Nat), requestSector t o = (o + t.sectors - t.lead) % t.sectors ∧
    slackAt t o a = (o + t.sectors - a) % t.sectors) ∧
  (∀ (t : DriveType) (o a : Nat), 0 < t.sectors → t.lead ≤ t.sectors → o < t.sectors → a < t.sectors →
    requestSector t o < t.sectors ∧ slackAt t o a < t.sectors ∧ (slackAt t o a = 0 ↔ a = o) ∧
    (slackAt t o (requestSector t o) = t.lead % t.sectors) ∧ nextAngle (some t) a < t.sectors ∧
    slackAt t o (nextAngle (some t) a) = if a = o then t.sectors - 1 else slackAt t o a - 1) ∧
  (∀ (s : State) (d : Drive) (o : Nat), (s.pos d).angle = none → s.slack d o = none) ∧
  ∀ (s : State) (d : Drive) (o a : Nat), (s.pos d).angle = some a → s.slack d o = some (slackAt (s.typeOf d) o a)

/-- Among grantable ACTIVE requests the arbiter's decision goes to the first by urgency, slack, miss count and drive number,
and to the lowest FREE path; an EXTERNAL request goes to its issuing port when that is eligible, else to the first eligible
port in letter order. The requests compared are ACTIVE ones at a slack of M or more that are INTERNAL or have an eligible port,
urgent from the miss limit on, and every such request of an operation that holds no path is compared; a port is eligible when
it is IDLE, has not deferred the orientation, and is the issuing port or of the operation's group, not 0 (4.3 to 4.5). -/
def Obligations.ArbiterGrantOrder : Prop :=
  ∀ s : State,
    let elig (o : Operation) (x : Orientation) (p : Port) : Prop :=
      (s.port p).state = .idle ∧ x.deferred[p] = false ∧
      (o.issuer = p ∨ ((s.port p).group ≠ 0 ∧ (s.port p).group = o.group))
    let holds (d : Drive) (n : PathNo) : Prop := ∃ y, s.path n = some y ∧ y.drive = d ∧ ∀ p, y.port = some p →
      (s.port p).offer.map Prod.fst = some (.reconnect d) ∨ ∃ o, s.op d = some o ∧ o.conn = some p
    (∀ (n : PathNo) (c : Contender), s.decision = some (n, c) →
      s.path n = none ∧ (n = 1 → s.path 0 ≠ none) ∧ s.contender c.drive = some c ∧
      ∀ (e : Drive) (x : Contender), s.contender e = some x → e ≠ c.drive →
        (c.urgent = true ∧ x.urgent = false) ∨
        (c.urgent = x.urgent ∧ (c.slack < x.slack ∨ (c.slack = x.slack ∧
          (x.miss < c.miss ∨ (x.miss = c.miss ∧ c.drive < e)))))) ∧
    ((∃ n, s.path n = none) → (∃ d, (s.contender d).isSome = true) → s.decision.isSome = true) ∧
    (∀ (d : Drive) (o : Operation) (x : Orientation) (k : Nat), s.op d = some o → o.orient = some x → x.req = .active →
      s.slack d x.sector = some k → (s.typeOf d).setup ≤ k → (∀ n, ¬ holds d n) → (x.external = false ∨ ∃ p, elig o x p) →
      (s.contender d).isSome = true) ∧
    ∀ (d : Drive) (c : Contender), s.contender d = some c → ∃ (o : Operation) (x : Orientation), s.op d = some o ∧
      o.orient = some x ∧ c.drive = d ∧ x.req = .active ∧ c.miss = o.miss ∧
      (c.urgent = true ↔ (s.typeOf d).missLimit ≤ o.miss) ∧ s.slack d x.sector = some c.slack ∧
      (s.typeOf d).setup ≤ c.slack ∧
      (c.port = none ↔ x.external = false) ∧
      ∀ p, c.port = some p → elig o x p ∧ (p ≠ o.issuer → ¬ elig o x o.issuer ∧ ∀ q, q < p → ¬ elig o x q)

/-- The comparison of a record's key with a SEARCH argument of n bytes: the key's first n bytes, zeros after a shorter key,
as unsigned numbers high byte first (5.4). Two byte strings of one length are one number exactly when they are the same, and
the first byte that differs decides which is the smaller: high byte first. -/
def Obligations.SearchKeyComparison : Prop :=
  (∀ (key argument : List Byte),
    let n := argument.length
    let k := if n ≤ key.length then numOfBytes (key.take n) else numOfBytes (key ++ List.replicate (n - key.length) 0)
    (keyMeets .eq key argument = true ↔ k = numOfBytes argument) ∧
    (keyMeets .highOrEq key argument = true ↔ numOfBytes argument ≤ k) ∧
    (keyMeets .high key argument = true ↔ numOfBytes argument < k)) ∧
  (∀ a b : List Byte, a.length = b.length → (numOfBytes a = numOfBytes b ↔ a = b)) ∧
  ∀ (p a b : List Byte) (x y : Byte), a.length = b.length → x.toNat < y.toNat →
    numOfBytes (p ++ x :: a) < numOfBytes (p ++ y :: b)

/-- Alternate tracks by index: index and track are inverse over the alternate cylinders and heads of the type, 0 to
A × H − 1 (2.2). -/
def Obligations.AlternatesAreEnumerated : Prop :=
  ∀ t : DriveType,
    (∀ i, i < t.altCyls * t.heads → t.isAlternate (t.alternateAt i) = true ∧ t.alternateIndex (t.alternateAt i) = i) ∧
    ∀ x, t.isAlternate x = true → t.alternateIndex x < t.altCyls * t.heads ∧ t.alternateAt (t.alternateIndex x) = x ∧
      t.alternateIndex x = (x.cyl - t.dataCyls) * t.heads + x.head

/-- A list of descriptors fits a track: 1 to 64 of them, lengths in range, and 24 plus the records' lengths within the
capacity (1.4). -/
def Obligations.DescriptorsFitATrack : Prop :=
  ∀ (t : DriveType) (ds : List Descriptor),
    t.fits ds = true ↔
      1 ≤ ds.length ∧ ds.length ≤ 64 ∧ (∀ x ∈ ds, x.keyLength ≤ 32 ∧ 1 ≤ x.dataLength ∧ x.dataLength ≤ 8192) ∧
      24 + (ds.map fun x => 40 + x.keyLength + x.dataLength).sum ≤ t.capacity

/-- Where no claim can be taken, taking claims changes nothing; and where it can, it leaves the settings of every port, the
drive tables, the spindles, the timebase and the queue of commands alone. What a claim does when it is taken and leaves none
behind: an INTERNAL grant holds the path, ends the orientation, sets the miss count to 0 and arms the read or write, but with
the write-protect setting ON a home-field write is not made, no path is held, and its step goes on as after a write check; an
EXTERNAL one holds the path with the port, makes the request GRANTED and offers the reconnection; a pending status and the
head of a notice queue are offered, by the address each has. A status claims the issuing port when that may take it, else the
first port in letter order; a notice its own IDLE port whose presentation hold is CLEAR (4.5, 5.12, 7.1, 8.6, 10.4). -/
def Obligations.ClaimsTakenOnlyWhereTheyStand : Prop :=
  (∀ u : State, u.Quiet → u.serveClaims = u) ∧
  (∀ u : State, u.serveClaims.pending = u.pending ∧ u.serveClaims.now = u.now ∧ u.serveClaims.types = u.types ∧
    (∀ p, (u.serveClaims.port p).straps = (u.port p).straps ∧ (u.serveClaims.port p).group = (u.port p).group ∧
      (u.serveClaims.port p).maskStateChange = (u.port p).maskStateChange ∧
      (u.serveClaims.port p).maskSpareAdvised = (u.port p).maskSpareAdvised) ∧
    ∀ d, (u.serveClaims.pos d).angle = (u.pos d).angle ∧ (u.serveClaims.pos d).writeProtect = (u.pos d).writeProtect ∧
      u.serveClaims.record d = u.record d) ∧
  (∀ (u : State) (n : PathNo) (c : Contender) (o : Operation), u.decision = some (n, c) → c.port = none →
    u.op c.drive = some o → (∀ f, o.work = .writeHome f → (u.pos c.drive).writeProtect = false) →
    let v := (u.setPath n (some { drive := c.drive, port := none })).setOp c.drive
      (some { o with orient := none, miss := 0, marksSince := 0 })
    v.Quiet → u.serveClaims = v) ∧
  (∀ (u : State) (n : PathNo) (c : Contender) (o : Operation) (f : HomeField), u.decision = some (n, c) → c.port = none →
    u.op c.drive = some o → o.work = .writeHome f → (u.pos c.drive).writeProtect = true →
    let v := (u.setOp c.drive (some { o with orient := none, miss := 0, marksSince := 0 })).altWritten c.drive false
    v.Quiet → u.serveClaims = v) ∧
  (∀ (u : State) (p : Port) (n : PathNo) (d : Drive) (o : Operation) (x : Orientation),
    u.claims p = [.reconnect n d] → (∀ q, q ≠ p → u.claims q = []) → u.op d = some o → o.orient = some x →
    let v := ((u.setPath n (some { drive := d, port := some p })).setOp d
      (some { o with orient := some { x with req := .granted } })).modPort p fun r =>
        { r with state := .offering, offer := some (.reconnect d, false),
                 link := r.link ++ [.offer (r.addressOf (.drive d)) (.reconnect d)] }
    v.Quiet → u.serveClaims = v) ∧
  (∀ (u : State) (p : Port) (d : Drive) (o : Operation), u.decision = none → u.claims p = [.status d] →
    (∀ q, q ≠ p → u.claims q = []) → u.op d = some o →
    let v := u.modPort p fun r =>
      { r with state := .offering, offer := some (.status d, false),
               link := r.link ++ [.offer (r.addressOf (if o.alt.isSome then .unit else .drive d)) (.status d)] }
    v.Quiet → u.serveClaims = v) ∧
  (∀ (u : State) (p : Port) (x : Notice), u.decision = none → u.claims p = [.notice x] → (∀ q, q ≠ p → u.claims q = []) →
    let v := u.modPort p fun r =>
      { r with state := .offering, offer := some (.notice x, false),
               link := r.link ++ [.offer (r.addressOf (match x with
                 | .deviceFree d | .stateChange d | .reserveBroken d | .spareAdvised d _ => .drive d
                 | .rescan => .unit)) (.notice x)] }
    v.Quiet → u.serveClaims = v) ∧
  ∀ (u : State) (p : Port),
    (∀ n d, .reconnect n d ∈ u.claims p ↔ ∃ c, u.decision = some (n, c) ∧ c.drive = d ∧ c.port = some p) ∧
    (∀ x, .notice x ∈ u.claims p ↔ (u.port p).state = .idle ∧ (u.queue p).held = false ∧
      (u.queue p).notices.head? = some x) ∧
    ∀ d, .status d ∈ u.claims p ↔ ∃ o, u.op d = some o ∧ o.pending.isSome = true ∧
      (∀ q b, (u.port q).offer ≠ some (.status d, b)) ∧
      let may (q : Port) : Prop := (u.port q).state = .idle ∧ o.statusDeferred[q] = false ∧
        ((o.issuer = q ∧ (∀ a, o.alt = some a → a.issuerHeld = true)) ∨
          ((u.port q).group ≠ 0 ∧ (u.port q).group = o.group))
      may p ∧ (p ≠ o.issuer → ¬ may o.issuer ∧ ∀ q, q < p → ¬ may q)

/-! ## Power-on and the drive commands -/

/-- POWER ON: straps and levels are read and every block takes its power-on state, whatever the state before: each port
record, each positioner, each drive record and sharing record is given whole (11.4, 1.5, 2.2, 3.7, 8.1, 9.2); the queue of
commands and the count of free values stay, and the timebase counts from 0 (model's choice, log 25). -/
def Obligations.PowerOnSetsEveryBlock : Prop :=
  ∀ (straps : Vector Straps 4) (levels : Vector Level 8) (s : State), ∃ t : State,
    exec (.powerOn straps levels) s = .next t ∧ t.powered = true ∧ t.now = 0 ∧ t.due = none ∧
    (∀ p, t.port p = {
        straps := straps[p], state := if straps[p].enabled then .idle else .disabled, conn := none, offer := none, group := 0,
        maskStateChange := true, maskSpareAdvised := true, overflow := false, link := [], held := [], requests := [],
        idleTimer := none, answer := none, closing := false, draining := false, awaiting := false, resetDrive := none } ∧
      t.queue p = { notices := [], held := false }) ∧
    (∀ d, t.pos d = {
        actuator := if levels[d].ready then .uncalibrated else .notReady, cyl := none,
        head := if levels[d].ready then some 0 else none, motionTarget := none, owned := false, deadline := none,
        unanswered := 0, calVoid := false, status := none, angle := none,
        writeProtect := levels[d].ready && levels[d].writeProtect } ∧
      t.record d = { configured := false, typeNo := 0, writePermitted := false, cursor := 0 } ∧
      t.op d = none ∧ t.finish d = none ∧
      t.share d = { owner := none, hold := none, owed := Vector.replicate 4 none }) ∧
    t.types = Vector.replicate 4 none ∧ t.paths = Vector.replicate 2 none ∧ t.spareMap = [] ∧ t.suspects = [] ∧
    t.lastAlt = none ∧ t.pending = s.pending ∧ t.choices = s.choices

/-- LOCATE admitted for a home track of the type: the operation is created with the track, the record, the sector modulo S
and the translation, ACCEPT and DISCONNECT are sent, and the positioner takes it; for another track FAULT COMMAND REJECT
and a hold by the port whose fault record carries the drive and the record number carried, its tracks absent and its counts 0:
the model's choice, log 11 (5.2, 9.5). -/
def Obligations.LocateBegins : Prop :=
  ∀ (s u t : State) (h : Hdr) (d : Drive) (x : Track) (record sector : Nat), s.Finds u → u.Admits h d t →
    let accepted : Status := { accept := true, disconnect := true }
    let o : Operation :=
      { kind := .locate, issuer := h.port, group := (t.port h.port).group, logical := some x, record := record,
        sector := if record = 0 then 0 else sector % (t.typeOf d).sectors, target := some (t.translate d x).target,
        expected := some (t.translate d x).expected, entry := (t.translate d x).entry, recovery := false, miss := 0,
        orient := none, work := .positioning, reconnected := false, conn := none, cmd := none, current := none,
        leaving := PortSet.none, marksSince := 0, keyCheck := false, lost := false, byteCount := 0, accounted := 0, retries := 0, rereads := 0, rereadDue := false, reported := [],
        searchIndex := 0, idle := 0, pending := none, statusDeferred := PortSet.none, alt := none }
    (x.cyl < (t.typeOf d).dataCyls → x.head < (t.typeOf d).heads →
      exec (.locate h x record sector) s =
        .next (((t.setOp d (some o)).sendStatus h.port (.drive d) accepted true).position d).serveClaims) ∧
    ((t.typeOf d).dataCyls ≤ x.cyl ∨ (t.typeOf d).heads ≤ x.head →
      exec (.locate h x record sector) s =
        .next ((t.reply h.port d { fault := true, reason := .fault .commandReject }).setShare d
          { t.share d with
            hold := some {
              port := h.port, timer := (t.typeOf d).holdLimit,
              record := { kind := some .commandReject, detail := .none, drive := d, logical := none, physical := none,
                          record := record, retries := 0, miss := 0, residual := 0, found := none } } }).serveClaims)

/-- RECALIBRATE admitted: an operation without a logical track is created, ACCEPT and DISCONNECT are sent, and from
UNCALIBRATED or ON-CYLINDER a recalibrate order goes out with its deadline; in a motion left over it waits (3.6, 5.11). -/
def Obligations.RecalibrateBegins : Prop :=
  ∀ (s u t : State) (h : Hdr) (d : Drive), s.Finds u → u.Admits h d t →
    let o : Operation := { Operation.fresh .recalibrate h.port (t.port h.port).group none with work := .recalibrating }
    let t' := (t.setOp d (some o)).sendStatus h.port (.drive d) { accept := true, disconnect := true } true
    let ty := t.typeOf d
    ((t.pos d).actuator = .uncalibrated ∨ (t.pos d).actuator = .onCylinder → (t.pos d).unanswered < 2 →
      exec (.recalibrate h) s = .next (t'.modPos d fun q =>
        { q with actuator := .recalibrating, cyl := none, motionTarget := some 0, owned := true, status := none,
                 deadline := some (t.now + (ty.settleTime + ((ty.dataCyls + ty.altCyls) * ty.stepTime + 999) / 1000 + 10))
        }).serveClaims) ∧
    ((t.pos d).actuator = .seeking ∨ (t.pos d).actuator = .recalibrating → exec (.recalibrate h) s = .next t'.serveClaims)

/-- SEARCH in an operation's connection: refused with COMMAND REJECT for a condition that is none of the three or an argument
of a length outside 1 to 32, NOT FOUND where the search index count stands at 2, else it is armed for the ID field of the next
record: the one that passes next after the current record's, or, where no current record lies on the track, the first one
after the next INDEX MARK (5.3, 5.4; log 50). READ in an operation's connection: refused with COMMAND REJECT without a current
record or with count 0; else the count is stored, bytes accounted is 0 and the data field is armed, spanning for span byte 1
and not for 0; another byte has no stated meaning and one of the two is taken (5.5, log 8). A current record of another track
than the operation's serves too (model's choice, log 74). As the first command of a SELECT these two, WRITE and FORMAT TRACK
are admitted as others are (model's choice, log 10), then refused with COMMAND REJECT and a hold by the port (5.1, 9.5);
admission's own refusals are AdmissionTakesTheFirstConditionMet's, those in a standing connection FramesByPortState's. -/
def Obligations.SearchAndReadBegin : Prop :=
  (∀ (s u : State) (h : Hdr) (d : Drive) (o : Operation) (c : Nat) (a : List Byte), s.Finds u → u.Chains h d o →
    (((c < 1 ∨ 3 < c) ∨ a.length < 1 ∨ 32 < a.length) →
      exec (.search h c a) s = .next (u.faultInConnection d h.port o .commandReject .none 0 none).serveClaims) ∧
    (1 ≤ c → c ≤ 3 → 1 ≤ a.length → a.length ≤ 32 →
      (2 ≤ o.searchIndex →
        exec (.search h c a) s = .next (u.faultInConnection d h.port o .notFound .none 0 none).serveClaims) ∧
      (o.searchIndex < 2 → ∀ (k : SearchCond) (w : Awaited),
        (c = 1 → k = .eq) → (c = 2 → k = .highOrEq) → (c = 3 → k = .high) →
        (o.current = none ∨ o.logical = none → w = .afterIndex) →
        (∀ r x, o.current = some r → o.logical = some x → w = if r.id.address = x then .after r.start else .afterIndex) →
        exec (.search h c a) s = .next (u.setOp d (some { o with
          rereads := 0, rereadDue := false, marksSince := 0, cmd := some (.search k a (.id w)) })).serveClaims))) ∧
  (∀ (s u t : State) (h : Hdr) (d : Drive) (i : Instr), s.Finds u → u.Admits h d t →
    ((∃ c a, i = .search h c a) ∨ (∃ n sp, i = .read h n sp) ∨ (∃ n, i = .write h n) ∨ ∃ ds, i = .formatTrack h ds) →
    exec i s = .next ((t.reply h.port d { fault := true, reason := .fault .commandReject }).beginHold d h.port
      { kind := some .commandReject, detail := .none, drive := d, logical := none, physical := none, record := 0,
        retries := 0, miss := 0, residual := 0, found := none }).serveClaims) ∧
  ∀ (s u : State) (h : Hdr) (d : Drive) (o : Operation) (count span : Nat), s.Finds u → u.Chains h d o →
    (o.current = none ∨ count = 0 →
      exec (.read h count span) s = .next (u.faultInConnection d h.port o .commandReject .none 0 none).serveClaims) ∧
    (o.current ≠ none → count ≠ 0 → ∃ sp : Bool, (span = 1 → sp = true) ∧ (span = 0 → sp = false) ∧
      exec (.read h count span) s = .next (u.setOp d (some { o with
        rereads := 0, rereadDue := false, marksSince := 0, byteCount := count, accounted := 0, leaving := PortSet.none,
        cmd := some (.read { span := sp, phase := .data, got := 0, formed := 0, forming := [], sentTo := 0 })
        })).serveClaims)

/-- WRITE in an operation's connection: its checks in order, then a first request for host bytes, and a second while bytes
remain, each of 256 bytes or the rest (5.6, 8.7). A current record of another track than the operation's serves too (model's
choice, log 74). -/
def Obligations.WriteBegins : Prop :=
  ∀ (s u : State) (h : Hdr) (d : Drive) (o : Operation) (count : Nat), s.Finds u → u.Chains h d o →
    (o.current = none ∨ count = 0 →
      exec (.write h count) s = .next (u.faultInConnection d h.port o .commandReject .none 0 none).serveClaims) ∧
    ∀ f, o.current = some f → count ≠ 0 →
      ((u.record d).writePermitted = false ∨ (u.pos d).writeProtect = true →
        exec (.write h count) s = .next (u.faultInConnection d h.port o .notWritable .none count none).serveClaims) ∧
      ((u.record d).writePermitted = true → (u.pos d).writeProtect = false →
        (u.port h.port).requests = [] → (u.port h.port).held = [] →
        let n := min count f.id.dataLength
        let asking (l : List (Nat × Nat)) : State := u.setOp d (some { o with
          rereads := 0, rereadDue := false, marksSince := 0, byteCount := count, accounted := 0,
          cmd := some (.write { need := n, bytes := [], toAsk := l, seek := none, begun := false, zeroFill := false, stop := none }) })
        let a := (u.port h.port).addressOf (.drive d)
        (n ≤ 256 → exec (.write h count) s = .next ((asking []).modPort h.port fun r =>
          { r with link := r.link ++ [.request a 0 n], requests := [(0, n)] }).serveClaims) ∧
        (256 < n → exec (.write h count) s =
          .next ((asking (if n ≤ 512 then [] else [(512, n - 512)])).modPort h.port fun r =>
            { r with link := r.link ++ [.request a 0 256, .request a 256 (min 256 (n - 256))],
                     requests := [(0, 256), (256, min 256 (n - 256))] }).serveClaims))

/-- FORMAT TRACK in an operation's connection: its checks in order; passed, it waits for the INDEX MARK with the fields it is
to write, the home field with the selected track's address and the condition its track status holds, then, for each
descriptor, an ID field and a key of zero bytes and data of zero bytes under one check. The first record starts at byte 24 and
each later one where the one before it ends (5.7, 1.1, 1.2, 1.4; log 9). -/
def Obligations.FormatBegins : Prop :=
  (∀ (s u : State) (h : Hdr) (d : Drive) (o : Operation) (ds : List Descriptor), s.Finds u → u.Chains h d o →
    let listed : Prop := (∀ x ∈ ds, 1 ≤ x.number ∧ x.number ≤ 255) ∧ (u.typeOf d).fits ds = true
    (o.record ≠ 0 ∨ o.current ≠ none ∨ ¬ listed →
      exec (.formatTrack h ds) s = .next (u.faultInConnection d h.port o .commandReject .none 0 none).serveClaims) ∧
    (o.record = 0 → o.current = none → listed →
      ((u.record d).writePermitted = false ∨ (u.pos d).writeProtect = true →
        exec (.formatTrack h ds) s = .next (u.faultInConnection d h.port o .notWritable .none 0 none).serveClaims) ∧
      ((u.record d).writePermitted = true → (u.pos d).writeProtect = false →
        ∀ cy hd st, (u.pos d).cyl = some cy → (u.pos d).head = some hd → (u.pos d).status = some st →
          exec (.formatTrack h ds) s = .next (u.setOp d (some { o with
            rereads := 0, rereadDue := false, marksSince := 0,
            cmd := some (.format {
              fields := .home { address := { cyl := cy, head := hd }, condition := st } :: formatFields o.home 24 ds,
              last := none, begun := false, stop := none }) })).serveClaims))) ∧
  ∀ (t : Track) (q : Nat), formatFields t q [] = [] ∧ ∀ (x : Descriptor) (rest : List Descriptor),
    formatFields t q (x :: rest) =
      .id { start := q, id := { address := t, number := x.number, keyLength := x.keyLength, dataLength := x.dataLength } } ::
      .keyData (List.replicate x.keyLength 0) (List.replicate x.dataLength 0) ::
      formatFields t (q + (40 + x.keyLength + x.dataLength)) rest

/-- READ DRIVE STATE is answered whatever the drive's tables, operation, hold or reservation: one DATA frame with the state,
and DONE when it has left; nothing else changes. As a COMMAND in a connection that holds an operation with no command in
progress it is answered likewise: the operation has it in progress until its DATA has left, and then DONE leaves the connection
standing, with the idle count at 0 and the search index count and the current record as they stood (5.1, 5.3, 5.4, 5.11, 8.10).
-/
def Obligations.ReadDriveStateAnswers : Prop :=
  let bytes (r : State) (d : Drive) : List Byte :=
    let q := r.pos d
    let unknown : Nat → List Byte := fun n => [byteOf (n / 256), byteOf n]
    [flagByte (r.record d).configured, byteOf q.actuator.code] ++ unknown (q.cyl.getD 0xFFFF) ++
      [byteOf (q.head.getD 0xFF), byteOf (conditionCode q.status)] ++
      trackBytes (q.status.bind Condition.pointer) ++
      [flagByte q.angle.isSome, flagByte q.writeProtect, byteOf ((r.share d).owner.getD 0),
       portByte ((r.share d).hold.map Hold.port), flagByte (r.op d).isSome]
  let done : Answer := { status := { done := true }, found := none, resets := false }
  (∀ (s u r : State) (h : Hdr) (d : Drive), s.Finds u → u.Reaches h d r →
    exec (.readDriveState h) s = .next (r.modPort h.port fun x =>
      { x with held := [], link := dropData x.link ++ [.data (x.addressOf (.drive d)) 0 (bytes r d)], answer := some done }).serveClaims) ∧
  (∀ (s u : State) (h : Hdr) (d : Drive) (o : Operation), s.Finds u → u.Chains h d o →
    exec (.readDriveState h) s = .next ((u.setOp d (some { o with cmd := some .driveState })).modPort h.port fun x =>
      { x with held := [], link := dropData x.link ++ [.data (x.addressOf (.drive d)) 0 (bytes u d)], answer := some done }).serveClaims) ∧
  ∀ (s u : State) (p : Port) (d : Drive) (o : Operation) (a off : Nat) (bs : List Byte) (rest : List OutFrame), s.Finds u →
    (u.port p).conn = some (.drive d) → u.op d = some o → o.conn = some p → o.cmd = some .driveState →
    (u.port p).link = .data a off bs :: rest → rest.all (fun f => !f.isData) = true → (u.port p).draining = false →
    (u.port p).answer = some done →
    exec (.outboundFrameLeft p) s = .next ((u.modPort p fun x =>
      { x with answer := none, link := rest ++ [.status (x.addressOf (.drive d)) { done := true } false] }).setOp d
        (some { o with cmd := none, idle := 0 })).serveClaims

/-- READ FAULT RECORD: the holding port reads its record and its hold ends, with the test of the owed set; any other port
that is admitted reads a record without a fault, whose drive byte is 0 (model's choice, log 27), and no hold ends. A port that
another's hold keeps off is HELD HOLD and owed, marked COMMAND; within an operation's connection the command is refused with
COMMAND REJECT, the operation ends as that STATUS is produced (deduced, log 1) and no hold follows (9.3, 9.5, 5.1). A record is 15
bytes: kind, detail, drive, logical track, physical track, record number, retries used, miss count, residual and condition found
(8.10). -/
def Obligations.ReadFaultRecordAnswers : Prop :=
  let two (n : Nat) : List Byte := [byteOf (n / 256), byteOf n]
  let track (x : Option Track) : List Byte := match x with
    | some t => two t.cyl ++ [byteOf t.head]
    | none => [0xFF, 0xFF, 0xFF]
  let bytes (r : FaultRecord) : List Byte :=
    [(match r.kind with
      | some k => byteOf k.code
      | none => 0), byteOf r.detail.code, byteOf r.drive.val] ++ track r.logical ++ track r.physical ++
      [byteOf r.record, byteOf r.retries, byteOf r.miss] ++ two r.residual ++ [byteOf (conditionCode r.found)]
  (∀ (s u r : State) (h : Hdr) (d : Drive), s.Finds u → u.Reaches h d r →
    let answer (t : State) (bs : List Byte) : State := t.modPort h.port fun x =>
      { x with held := [], link := dropData x.link ++ [.data (x.addressOf (.drive d)) 0 bs],
               answer := some { status := { done := true }, found := none, resets := false } }
    (∀ x, (r.share d).hold = some x → x.port = h.port → (r.record d).configured = true → (r.pos d).actuator ≠ .notReady →
      exec (.readFaultRecord h) s =
        .next (answer ((r.setShare d { r.share d with hold := none }).owedTest d) (bytes x.record)).serveClaims) ∧
    (∀ x, (r.share d).hold = some x → x.port ≠ h.port → (r.record d).configured = true → (r.pos d).actuator ≠ .notReady →
      exec (.readFaultRecord h) s =
        .next ((r.setShare d { r.share d with owed := (r.share d).owed.set h.port (some .command) }).reply h.port d
          { held := true, reason := .hold }).serveClaims) ∧
    ((r.share d).hold = none → r.admission d h.port .all = .admitted →
      exec (.readFaultRecord h) s =
        .next (answer r [0, 0, 0, 0xFF, 0xFF, 0xFF, 0xFF, 0xFF, 0xFF, 0, 0, 0, 0, 0, 0]).serveClaims)) ∧
  ∀ (s u : State) (h : Hdr) (d : Drive) (o : Operation), s.Finds u → u.Chains h d o →
    exec (.readFaultRecord h) s =
      .next (((u.modPort h.port fun r => { r with answer := none, held := [], requests := [] }).sendStatus h.port (.drive d)
        { fault := true, disconnect := true, reason := .fault .commandReject } true).endOperation d).serveClaims

/-- RESERVE, first of a SELECT or in a standing connection without an operation, admitted at steps 1 to 5: the port's own
hold, ended by the command that passed admission, goes first, with the test of the owed set before the owner is set (log 32).
From group 0 the command is refused with COMMAND REJECT and a hold; else the port's group becomes the owner, DONE and
DISCONNECT follow, no operation is created, the owed set stays, admission tests the new owner, and where the group owned the
drive before nothing else changes (9.4, 9.5). -/
def Obligations.ReserveTakesTheDrive : Prop :=
  ∀ (s u r : State) (h : Hdr) (d : Drive), s.Finds u → u.Reaches h d r → r.admission d h.port .all = .admitted →
    let t := r.endOwnHold d h.port
    let g := (t.port h.port).group
    (g = 0 → exec (.reserve h) s =
      .next ((t.reply h.port d { fault := true, reason := .fault .commandReject }).beginHold d h.port
        { kind := some .commandReject, detail := .none, drive := d, logical := none, physical := none, record := 0,
          retries := 0, miss := 0, residual := 0, found := none }).serveClaims) ∧
    (g ≠ 0 → exec (.reserve h) s =
      .next ((t.setShare d { t.share d with owner := some g }).reply h.port d { done := true }).serveClaims) ∧
    (g ≠ 0 → ∀ q, (t.setShare d { t.share d with owner := some g }).reservedByOther d q = decide (g ≠ (t.port q).group)) ∧
    ((t.share d).owner = some g → t.setShare d { t.share d with owner := some g } = t)

/-- RELEASE admitted at steps 1, 2 and 5: the owner is cleared when it is the port's group, the port's own hold ends after it,
the owed set is tested once when either happened, and DONE and DISCONNECT are sent; else nothing changes (9.4). -/
def Obligations.ReleaseClearsTheOwner : Prop :=
  ∀ (s u r : State) (h : Hdr) (d : Drive), s.Finds u → u.Reaches h d r → r.admission d h.port .release = .admitted →
    let g := (r.port h.port).group
    let clears : Prop := (r.share d).owner = some g
    let holds : Prop := ∃ x, (r.share d).hold = some x ∧ x.port = h.port
    (clears → ¬ holds → exec (.release h) s =
      .next (((r.setShare d { r.share d with owner := none }).owedTest d).reply h.port d { done := true }).serveClaims) ∧
    (clears → holds → exec (.release h) s =
      .next (((r.setShare d { r.share d with owner := none, hold := none }).owedTest d).reply h.port d
        { done := true }).serveClaims) ∧
    (¬ clears → holds → exec (.release h) s =
      .next (((r.setShare d { r.share d with hold := none }).owedTest d).reply h.port d { done := true }).serveClaims) ∧
    (¬ clears → ¬ holds → exec (.release h) s = .next (r.reply h.port d { done := true }).serveClaims)

/-- RESERVE UNCONDITIONAL from a control-permitted port of a group, on a ready, configured drive: without an operation the
port's group becomes the owner, a hold by the port or by a port of another group goes, the owed set is emptied, and DONE is
sent; a disconnected operation of another group is aborted first, one of its own group holds it off with HELD BUSY, the port
owed at the drive, marked COMMAND (model's choice, log 44), as does any alternate operation whose write point is PASSED, and
one whose write point is NOT PASSED is aborted with the result ABORTED, also where it has ended and keeps its status (deduced,
log 20). A connected one of another group is stopped as HALT stops it: its port is sent DONE, HALTED and DISCONNECT with its
residual, the DATA frame of a READ DRIVE STATE in progress discarded and its residual 0 (model's choice, log 73), and the
operation ends as that is produced (deduced, log 1), with no hold; inside a WRITE's data field or a FORMAT TRACK's writing it
ends at FIELD WRITTEN, and this command's DONE waits for that end, which FieldsWritten and FaultInAConnection state. Without
the strap or a group it is refused, with no hold (9.4, 5.10, 7.6, log 30). -/
def Obligations.ReserveUnconditionalBreaks : Prop :=
  ∀ (s u r : State) (h : Hdr) (d : Drive), s.Finds u → u.Reaches h d r →
    (r.record d).configured = true → (r.pos d).actuator ≠ .notReady →
    let g := (r.port h.port).group
    ((r.port h.port).straps.control = false ∨ g = 0 → exec (.reserveUnconditional h) s =
      .next (r.reply h.port d { fault := true, reason := .fault .commandReject }).serveClaims) ∧
    ((r.port h.port).straps.control = true → g ≠ 0 →
      (∀ o, r.op d = some o → o.group = g → exec (.reserveUnconditional h) s =
        .next ((r.setShare d { r.share d with owed := (r.share d).owed.set h.port (some .command) }).reply
          h.port d { held := true, reason := .busy }).serveClaims) ∧
      (∀ o, r.op d = some o → o.group ≠ g → o.conn = none → o.alt = none →
        ∃ t : State, exec (.reserveUnconditional h) s = .next (t.reply h.port d { done := true }).serveClaims ∧
          t.op d = none ∧ (t.share d).owner = some g ∧ (t.share d).owed = Vector.replicate 4 none ∧
          (∀ e, e ≠ d → t.op e = r.op e ∧ t.share e = r.share e)) ∧
      (∀ o a, r.op d = some o → o.group ≠ g → o.alt = some a → a.writePassed = true → exec (.reserveUnconditional h) s =
        .next ((r.setShare d { r.share d with owed := (r.share d).owed.set h.port (some .command) }).reply
          h.port d { held := true, reason := .busy }).serveClaims) ∧
      (∀ o a, r.op d = some o → o.group ≠ g → o.conn = none → o.alt = some a → a.writePassed = false →
        ∃ t : State, exec (.reserveUnconditional h) s = .next (t.reply h.port d { done := true }).serveClaims ∧
          t.op d = none ∧ (t.share d).owner = some g ∧ (t.share d).owed = Vector.replicate 4 none ∧
          (∀ e, e ≠ d → t.op e = r.op e ∧ t.share e = r.share e) ∧ t.spareMap = r.spareMap ∧
          ∃ x : AltResult, t.lastAlt = some x ∧ x.drive = d ∧ x.home = o.home ∧ x.outcome = .aborted) ∧
      (∀ o q, r.op d = some o → o.group ≠ g → o.conn = some q → q ≠ h.port → o.alt = none →
        let writing : Prop := (∃ w, o.cmd = some (.write w) ∧ w.begun = true) ∨ ∃ f, o.cmd = some (.format f) ∧ f.begun = true
        let follows (t : State) : Prop :=
          (t.share d).owner = some g ∧ (t.share d).owed = Vector.replicate 4 none ∧
          (∀ x, (t.share d).hold = some x → (r.share d).hold = some x) ∧ ∀ e, e ≠ d → t.op e = r.op e ∧ t.share e = r.share e
        (¬ writing → (∀ x, (r.port x).awaiting = false) → ∀ n,
          (∀ c, o.cmd = some (.read c) → n = o.byteCount - max o.accounted c.sentTo) →
          (∀ w, o.cmd = some (.write w) → n = o.byteCount - w.bytes.length) →
          ((∀ c, o.cmd ≠ some (.read c)) → (∀ w, o.cmd ≠ some (.write w)) → n = 0) →
          ∃ t : State, exec (.reserveUnconditional h) s = .next (t.reply h.port d { done := true }).serveClaims ∧
            t.op d = none ∧ follows t ∧
            ((∃ c, o.cmd = some (.read c)) ∨ (∃ w, o.cmd = some (.write w)) ∨ o.cmd = some .driveState →
                (t.port q).link = dropData (r.port q).link ++
              [.status ((r.port q).addressOf (.drive d)) { done := true, halted := true, disconnect := true, residual := n } true]) ∧
            (o.cmd = none ∨ (∃ f, o.cmd = some (.locate f)) ∨ (∃ k c ph, o.cmd = some (.search k c ph)) ∨
                (∃ f, o.cmd = some (.format f)) → (t.port q).link = (r.port q).link ++
              [.status ((r.port q).addressOf (.drive d)) { done := true, halted := true, disconnect := true } true])) ∧
        (∀ w, o.cmd = some (.write w) → w.begun = true → w.stop = none →
          ∃ t : State, exec (.reserveUnconditional h) s =
              .next (t.modPort h.port fun x => { x with awaiting := true }).serveClaims ∧ follows t ∧
            t.op d = some { o with cmd := some (.write { w with stop := some .halted, toAsk := [] }) }) ∧
        ∀ f, o.cmd = some (.format f) → f.begun = true → f.stop = none →
          ∃ t : State, exec (.reserveUnconditional h) s =
              .next (t.modPort h.port fun x => { x with awaiting := true }).serveClaims ∧ follows t ∧
            t.op d = some { o with cmd := some (.format { f with stop := some .halted }) }) ∧
      (r.op d = none → ∃ t : State, exec (.reserveUnconditional h) s = .next (t.reply h.port d { done := true }).serveClaims ∧
        (t.share d).owner = some g ∧ (t.share d).owed = Vector.replicate 4 none ∧
        (∀ x, (r.share d).hold = some x → (t.share d).hold =
          if x.port = h.port ∨ (r.port x.port).group ≠ g then none else some x) ∧
        ((r.share d).hold = none → (t.share d).hold = none) ∧
        (∀ e, e ≠ d → t.share e = r.share e) ∧ t.ops = r.ops ∧ t.paths = r.paths ∧ t.positioners = r.positioners ∧
        (∀ q, q ≠ h.port → ((r.share d).owes q).isSome = true → (r.share d).owner = none → t.queue q = (r.post q (.deviceFree d)).queue q) ∧
        (∀ q k, (r.share d).owes q = none → (r.share d).owner = some k → k ≠ g → (r.port q).group = k →
          (r.port q).state ≠ .disabled → (r.port q).state ≠ .resetting → t.queue q = (r.post q (.reserveBroken d)).queue q) ∧
        ∀ q, (q = h.port ∨ (r.share d).owes q = none) →
          ((r.share d).owner = none ∨ ∀ k, (r.share d).owner = some k → (r.port q).group ≠ k) → t.queue q = r.queue q))

/-- A code that is not known, or that comes with parameters whose length does not fit it. As the first of a SELECT, but for
the four codes whose refusal gives no hold, it is admitted as others are, then refused with COMMAND REJECT and a hold; 0x16
is refused at once without a hold. In an operation's connection with no command in progress the connection's operation ends
with the FAULT. With the unit address it is refused with residual 0, and the idle timer runs from the production of that STATUS
(model's choice, log 41); a drive command there is refused likewise, and the connection stands, also where it is the first of a
SELECT (model's choice, log 47); while an order is unanswered the refusal leaves it and the timer alone. A unit order at a drive
address is taken as a code that the drive does not know, in a standing connection too, where it carries a stopped command's
residual; READ DRIVE TABLES stops the command likewise but carries residual 0, as its own rule has it (model's choice between two
rules, log 51). Inside a field its refusal too waits for FIELD WRITTEN (2.5, 8.3, 9.3, 9.5, 11.1; log 30). -/
def Obligations.UnknownCodesAreRefused : Prop :=
  ∀ (s u : State) (h : Hdr) (d : Drive) (code : Nat) (params : List Byte), s.Finds u →
    let reject : Status := { fault := true, reason := .fault .commandReject }
    (∀ t, u.Admits h d t → code ∉ [0x16, 0x17, 0x19, 0x1A] → exec (.unknownCommandCode h code params) s =
      .next ((t.reply h.port d reject).beginHold d h.port
        { kind := some .commandReject, detail := .none, drive := d, logical := none, physical := none, record := 0,
          retries := 0, miss := 0, residual := 0, found := none }).serveClaims) ∧
    (∀ r, u.Opens h (.drive d) r → exec (.unknownCommandCode h 0x16 params) s = .next (r.reply h.port d reject).serveClaims) ∧
    (∀ o, u.Chains h d o → code ∉ [0x16, 0x17, 0x19, 0x1A] → exec (.unknownCommandCode h code params) s =
      .next (u.faultInConnection d h.port o .commandReject .none 0 none).serveClaims) ∧
    (∀ i, i = .unknownCommandCode h code params ∨ (∃ x rec sec, i = .locate h x rec sec) ∨ i = .recalibrate h ∨
        (∃ c a, i = .search h c a) ∨ (∃ n sp, i = .read h n sp) ∨ (∃ n, i = .write h n) ∨ (∃ ds, i = .formatTrack h ds) ∨
        i = .readDriveState h ∨ i = .readFaultRecord h ∨ i = .reserve h ∨ i = .reserveUnconditional h ∨ i = .release h →
      (∀ r, (u.Opens h .unit r ∨ u.Stands h .unit ∧ r = u) → (r.port h.port).closing = false →
        ((r.port h.port).answer = none → exec i s = .next (r.modPort h.port fun x =>
          { x with link := x.link ++ [.status (x.addressOf .unit) reject false], idleTimer := some (r.now + 250) }).serveClaims) ∧
        ((r.port h.port).answer.isSome = true → exec i s = .next (r.modPort h.port fun x =>
          { x with link := x.link ++ [.status (x.addressOf .unit) reject false] }).serveClaims))) ∧
    (∀ o, u.Stands h (.drive d) → u.op d = some o → o.conn = some h.port →
      let emptied := u.modPort h.port fun r => { r with link := dropData r.link, held := [], requests := [], answer := none }
      ((∃ r, o.cmd = some (.read r)) ∨ (∃ w, o.cmd = some (.write w) ∧ w.begun = false) → exec (.readDriveTables h) s =
        .next (emptied.faultInConnection d h.port o .commandReject .none 0 none).serveClaims) ∧
      (∀ w, o.cmd = some (.write w) → w.begun = true → w.stop = none → exec (.readDriveTables h) s =
        .next (emptied.setOp d (some { o with cmd := some (.write { w with stop := some .tables, toAsk := [] }) })).serveClaims) ∧
      ∀ f, o.cmd = some (.format f) → f.begun = true → f.stop = none → exec (.readDriveTables h) s =
        .next (u.setOp d (some { o with cmd := some (.format { f with stop := some .tables }) })).serveClaims) ∧
    ∀ i, (∃ n ty, i = .loadDriveType h n ty) ∨ (∃ n c ty w cur, i = .loadDriveRecord h n c ty w cur) ∨
        i = .readDriveTables h ∧ (∀ o, u.Stands h (.drive d) → u.op d = some o → o.conn = some h.port →
          o.cmd = none ∨ o.cmd = some .driveState ∨ (∃ f, o.cmd = some (.locate f)) ∨ (∃ k a ph, o.cmd = some (.search k a ph)) ∨
          ∃ f, o.cmd = some (.format f) ∧ f.begun = false) ∨
        (∃ es, i = .loadSpareEntries h es) ∨ (∃ n x, i = .deleteSpareEntry h n x) ∨ (∃ n, i = .readSpareMap h n) ∨
        (∃ n x, i = .assignAlternate h n x) ∨ (∃ n x, i = .restoreTrack h n x) ∨ i = .readSuspectList h ∨
        (∃ g, i = .setPathGroup h g) ∨ (∃ a b, i = .setNoticeMask h a b) ∨ i = .readUnitState h ∨ i = .unitClear h →
      ((∃ r, u.Opens h (.drive d) r) ∨ u.Stands h (.drive d)) → code ∉ [0x16, 0x17, 0x19, 0x1A] →
      exec i s = exec (.unknownCommandCode h code params) s

/-! ## Unit orders -/

/-- The STATUS of a unit order whose connection stands, with the idle timer rearmed, from the production of the STATUS (model's
choice, log 41), is what the orders below answer with; after a CLOSE taken meanwhile it carries DISCONNECT instead. From a port
that is not control permitted each of the seven orders that need it answers COMMAND REJECT with residual 0 and changes nothing
else (8.4, 11.1). -/
def Obligations.UnitOrderAnswers : Prop :=
  (∀ (t : State) (p : Port) (st : Status),
    ((t.port p).closing = false → t.unitStatus p st = t.modPort p fun r =>
      { r with link := r.link ++ [.status (r.addressOf .unit) st false], idleTimer := some (t.now + 250) }) ∧
    ((t.port p).closing = true → t.unitStatus p st = t.modPort p fun r =>
      { r with link := r.link ++ [.status (r.addressOf .unit) { st with disconnect := true } true] })) ∧
  ∀ (s u t : State) (h : Hdr) (i : Instr), s.Finds u → u.TakesOrder h t → (t.port h.port).straps.control = false →
    ((∃ ty x, i = .loadDriveType h ty x) ∨ (∃ d c ty w cur, i = .loadDriveRecord h d c ty w cur) ∨
      (∃ es, i = .loadSpareEntries h es) ∨ (∃ d x, i = .deleteSpareEntry h d x) ∨ (∃ d x, i = .assignAlternate h d x) ∨
      (∃ d x, i = .restoreTrack h d x) ∨ i = .unitClear h) →
    exec i s = .next (t.unitStatus h.port { fault := true, reason := .fault .commandReject }).serveClaims

/-- LOAD DRIVE TYPE from a control-permitted port: a type number over 3, or a field outside its range, or a shape field that
differs while a configured record names the type, is refused with the number of the first such item as residual; with an
operation on a drive of the type it is HELD BUSY, the port owed at those drives marked ORDER; else the type is stored and
every other table stays. First the ranges of the thirteen fields (2.1, 2.3, 2.5). The fields are items 2 to 14 in the order of
that list, the shape fields items 2, 3, 4, 5 and 10. -/
def Obligations.LoadDriveTypeStores : Prop :=
  (∀ x : DriveType, x.inRange = true ↔
    (64 ≤ x.dataCyls ∧ x.dataCyls ≤ 1000) ∧ (1 ≤ x.altCyls ∧ x.altCyls ≤ 16) ∧ (1 ≤ x.heads ∧ x.heads ≤ 24) ∧
    (32 ≤ x.sectors ∧ x.sectors ≤ 128) ∧ (2 ≤ x.lead ∧ x.lead ≤ 15 ∧ 4 * x.lead ≤ x.sectors) ∧
    (1 ≤ x.setup ∧ x.setup ≤ x.lead) ∧ (5 ≤ x.stepTime ∧ x.stepTime ≤ 500) ∧ (1 ≤ x.settleTime ∧ x.settleTime ≤ 40) ∧
    (2048 ≤ x.capacity ∧ x.capacity ≤ 20480) ∧ x.retryBudget ≤ 3 ∧ (1 ≤ x.missLimit ∧ x.missLimit ≤ 15) ∧
    (1 ≤ x.threshold ∧ x.threshold ≤ 7) ∧ (1 ≤ x.holdLimit ∧ x.holdLimit ≤ 255)) ∧
  ∀ (s u t : State) (h : Hdr) (n : Nat) (x : DriveType), s.Finds u → u.TakesControl h t →
    let reject (i : Nat) : Status := { fault := true, reason := .fault .commandReject, residual := i }
    (4 ≤ n → exec (.loadDriveType h n x) s = .next (t.unitStatus h.port (reject 1)).serveClaims) ∧
    ∀ ty : TypeNo, ty.val = n →
      let outside (i : Nat) : Prop :=
        i = 2 ∧ ¬ (64 ≤ x.dataCyls ∧ x.dataCyls ≤ 1000) ∨ i = 3 ∧ ¬ (1 ≤ x.altCyls ∧ x.altCyls ≤ 16) ∨
        i = 4 ∧ ¬ (1 ≤ x.heads ∧ x.heads ≤ 24) ∨ i = 5 ∧ ¬ (32 ≤ x.sectors ∧ x.sectors ≤ 128) ∨
        i = 6 ∧ ¬ (2 ≤ x.lead ∧ x.lead ≤ 15 ∧ 4 * x.lead ≤ x.sectors) ∨ i = 7 ∧ ¬ (1 ≤ x.setup ∧ x.setup ≤ x.lead) ∨
        i = 8 ∧ ¬ (5 ≤ x.stepTime ∧ x.stepTime ≤ 500) ∨ i = 9 ∧ ¬ (1 ≤ x.settleTime ∧ x.settleTime ≤ 40) ∨
        i = 10 ∧ ¬ (2048 ≤ x.capacity ∧ x.capacity ≤ 20480) ∨ i = 11 ∧ ¬ x.retryBudget ≤ 3 ∨
        i = 12 ∧ ¬ (1 ≤ x.missLimit ∧ x.missLimit ≤ 15) ∨ i = 13 ∧ ¬ (1 ≤ x.threshold ∧ x.threshold ≤ 7) ∨
        i = 14 ∧ ¬ (1 ≤ x.holdLimit ∧ x.holdLimit ≤ 255)
      let differs (old : DriveType) (i : Nat) : Prop :=
        i = 2 ∧ x.dataCyls ≠ old.dataCyls ∨ i = 3 ∧ x.altCyls ≠ old.altCyls ∨ i = 4 ∧ x.heads ≠ old.heads ∨
        i = 5 ∧ x.sectors ≠ old.sectors ∨ i = 10 ∧ x.capacity ≠ old.capacity
      (∀ i, outside i → (∀ j, j < i → ¬ outside j) →
        exec (.loadDriveType h n x) s = .next (t.unitStatus h.port (reject i)).serveClaims) ∧
      (x.inRange = true →
        (∀ old i, t.types[ty] = some old → (∃ d, (t.record d).configured = true ∧ (t.record d).typeNo = ty) →
          differs old i → (∀ j, j < i → ¬ differs old j) →
          exec (.loadDriveType h n x) s = .next (t.unitStatus h.port (reject i)).serveClaims) ∧
        ((t.types[ty] = none ∨ (∀ d, (t.record d).configured = true → (t.record d).typeNo ≠ ty) ∨
            ∃ old, t.types[ty] = some old ∧ x.dataCyls = old.dataCyls ∧ x.altCyls = old.altCyls ∧ x.heads = old.heads ∧
              x.sectors = old.sectors ∧ x.capacity = old.capacity) →
          ((∀ d, (t.record d).configured = true → (t.record d).typeNo = ty → t.op d = none) →
            exec (.loadDriveType h n x) s =
              .next (({ t with types := t.types.set ty (some x) } : State).unitStatus h.port { done := true }).serveClaims) ∧
          ((∃ d, (t.record d).configured = true ∧ (t.record d).typeNo = ty ∧ (t.op d).isSome = true) →
            exec (.loadDriveType h n x) s = .next ((allDrives.foldl (fun v d =>
              if (t.record d).configured = true ∧ (t.record d).typeNo = ty ∧ (t.op d).isSome = true then v.oweOrder d h.port
              else v) t).unitStatus h.port { held := true, reason := .busy }).serveClaims)))

/-- LOAD DRIVE RECORD from a control-permitted port, its checks in order with the item numbers as residuals, then HELD BUSY
and HELD HOLD; taken, it replaces the record, deletes the drive's spare entries and suspect entries and voids its track
status; a change of type also voids the counter and the cylinder (2.2, 2.4, 2.5). -/
def Obligations.LoadDriveRecordReplaces : Prop :=
  ∀ (s u t : State) (h : Hdr) (n conf ty w cur : Nat), s.Finds u → u.TakesControl h t →
    let i : Instr := .loadDriveRecord h n conf ty w cur
    let reject (r : Nat) : Status := { fault := true, reason := .fault .commandReject, residual := r }
    (8 ≤ n → exec i s = .next (t.unitStatus h.port (reject 1)).serveClaims) ∧
    ∀ d : Drive, d.val = n →
      (2 ≤ conf → exec i s = .next (t.unitStatus h.port (reject 2)).serveClaims) ∧
      (conf = 1 → (4 ≤ ty ∨ ∃ k : TypeNo, k.val = ty ∧ t.types[k] = none) →
        exec i s = .next (t.unitStatus h.port (reject 3)).serveClaims) ∧
      (∀ (k : TypeNo) x, conf = 1 → k.val = ty → t.types[k] = some x →
        (2 ≤ w → exec i s = .next (t.unitStatus h.port (reject 4)).serveClaims) ∧
        (w ≤ 1 → x.altCyls * x.heads < cur → exec i s = .next (t.unitStatus h.port (reject 5)).serveClaims)) ∧
      ∀ r : DriveRecord,
        (conf = 0 ∧ r = { configured := false, typeNo := 0, writePermitted := false, cursor := 0 } ∨
          ∃ (k : TypeNo) (x : DriveType), conf = 1 ∧ k.val = ty ∧ t.types[k] = some x ∧ w ≤ 1 ∧ cur ≤ x.altCyls * x.heads ∧
            r = { configured := true, typeNo := k, writePermitted := decide (w = 1), cursor := cur }) →
        ((t.op d).isSome = true → exec i s = .next ((t.oweOrder d h.port).unitStatus h.port
          { held := true, reason := .busy }).serveClaims) ∧
        (t.op d = none → (t.share d).hold.isSome = true → exec i s = .next ((t.oweOrder d h.port).unitStatus h.port
          { held := true, reason := .hold }).serveClaims) ∧
        (t.op d = none → (t.share d).hold = none →
          let changes : Prop := (t.record d).configured ≠ r.configured ∨
            ((t.record d).configured = true ∧ (t.record d).typeNo ≠ r.typeNo)
          let stored : State :=
            { t.setRecord d r with
              spareMap := t.spareMap.filter fun e => decide (e.drive ≠ d)
              suspects := t.suspects.filter fun e => decide (e.drive ≠ d) }
          (¬ changes → exec i s = .next ((stored.modPos d fun q => { q with status := none }).unitStatus h.port
            { done := true }).serveClaims) ∧
          (changes → (t.pos d).actuator = .onCylinder →
            exec i s = .next ((stored.modPos d fun q => { q with
              status := none, angle := none, cyl := none, actuator := .uncalibrated }).unitStatus h.port { done := true }).serveClaims) ∧
          (changes → (t.pos d).actuator = .seeking ∨ (t.pos d).actuator = .recalibrating →
            exec i s = .next ((stored.modPos d fun q => { q with status := none, angle := none, calVoid := true }).unitStatus
              h.port { done := true }).serveClaims) ∧
          (changes → (t.pos d).actuator = .uncalibrated ∨ (t.pos d).actuator = .notReady →
            exec i s = .next ((stored.modPos d fun q => { q with status := none, angle := none }).unitStatus
              h.port { done := true }).serveClaims))

/-- READ DRIVE TABLES, READ SPARE MAP from place 1 to 96, READ SUSPECT LIST and READ UNIT STATE copy the bytes of their layout
into DATA frames of at most 256 bytes, with DONE when these have left, and change no table; READ SPARE MAP from another place
is refused. The layouts: drive tables, 17 bytes a type, all 0 for one not loaded, and 5 a drive record, in all 108; the spare
map, its count and 12 bytes for each of up to 16 entries; the suspect list, its count and 10 bytes an entry, most recent
first; and the unit state, 3 bytes a port, 3 a path, the operations in flight, 2 a cursor and 14 for the last alternate
result, in all 49 (2.5, 6.5, 7.7, 11.2, 8.7, 8.10). Without a result those 14 are 0 but for the absent tracks (model's choice,
log 43). -/
def Obligations.StateReadingOrdersAnswer : Prop :=
  ∀ (s u t : State) (h : Hdr), s.Finds u → u.TakesOrder h t →
    let two (n : Nat) : List Byte := [byteOf (n / 256), byteOf n]
    let flag (b : Bool) : Byte := if b then 1 else 0
    let track (x : Option Track) : List Byte := match x with
      | some q => two q.cyl ++ [byteOf q.head]
      | none => [0xFF, 0xFF, 0xFF]
    let tables : List Byte :=
      (t.types.toList.flatMap fun o => match o with
        | some x => [1] ++ two x.dataCyls ++
            [byteOf x.altCyls, byteOf x.heads, byteOf x.sectors, byteOf x.lead, byteOf x.setup] ++ two x.stepTime ++
            [byteOf x.settleTime] ++ two x.capacity ++
            [byteOf x.retryBudget, byteOf x.missLimit, byteOf x.threshold, byteOf x.holdLimit]
        | none => List.replicate 17 0) ++
      t.records.toList.flatMap fun r => [flag r.configured, byteOf r.typeNo.val, flag r.writePermitted] ++ two r.cursor
    let entry (e : SpareEntry) : List Byte :=
      [byteOf e.drive.val] ++ track (some e.home) ++ track e.current ++ track e.pending ++
        [(match e.origin with
          | .loaded => 1
          | .learned => 2
          | .assigned => 3), if e.active then 1 else 2]
    let suspect (e : Suspect) : List Byte :=
      [byteOf e.drive.val] ++ track (some e.physical) ++ track (some e.logical) ++
        [byteOf e.count, byteOf e.lastKind.code, flag e.advised]
    let flying (d : Drive) : Nat := if (t.op d).isSome then 2 ^ d.val else 0
    let result : List Byte := match t.lastAlt with
      | none => [0, 0, 0] ++ track none ++ track none ++ [0, 0, 0, 0, 0]
      | some a => [1, (if a.order = .assign then 1 else 2), byteOf a.drive.val] ++ track (some a.home) ++ track a.alternate ++
          (match a.outcome with
            | .done => [0, 0]
            | .fault k det => [byteOf k.code, byteOf det.code]
            | .aborted => [0xFF, 0]) ++
          [byteOf ((if a.marked = some true then 2 else 0) + if a.retired = some true then 1 else 0)] ++ two a.cursor
    let unit : List Byte :=
      (t.ports.toList.flatMap fun r => [byteOf r.state.code, byteOf r.group,
        byteOf ((if r.maskStateChange then 2 else 0) + if r.maskSpareAdvised then 1 else 0)]) ++
      (t.paths.toList.flatMap fun x => match x with
        | none => [0xFF, 0, 0]
        | some y => [byteOf y.drive.val, (if y.port = none then 1 else 2), (match y.port with
            | some p => byteOf (p.val + 1)
            | none => 0)]) ++
      [byteOf (flying 0 + flying 1 + flying 2 + flying 3 + flying 4 + flying 5 + flying 6 + flying 7)] ++
      (t.records.toList.flatMap fun r => two r.cursor) ++ result
    tables.length = 108 ∧ unit.length = 49 ∧
    let answer (bs : List Byte) : State := t.modPort h.port fun x =>
      { x with
        held := []
        link := dropData x.link ++ (if bs.length ≤ 256 then [.data (x.addressOf .unit) 0 bs]
          else [.data (x.addressOf .unit) 0 (bs.take 256), .data (x.addressOf .unit) 256 (bs.drop 256)]),
        answer := some { status := { done := true }, found := none, resets := false } }
    exec (.readDriveTables h) s = .next (answer tables).serveClaims ∧
    (∀ n, 1 ≤ n → n ≤ 96 → exec (.readSpareMap h n) s =
      .next (answer (byteOf t.spareMap.length :: ((t.spareMap.drop (n - 1)).take 16).flatMap entry)).serveClaims) ∧
    (∀ n, n < 1 ∨ 96 < n → exec (.readSpareMap h n) s =
      .next (t.unitStatus h.port { fault := true, reason := .fault .commandReject }).serveClaims) ∧
    (t.suspects.length ≤ 32 → exec (.readSuspectList h) s =
      .next (answer (byteOf t.suspects.length :: t.suspects.flatMap suspect)).serveClaims) ∧
    exec (.readUnitState h) s = .next (answer unit).serveClaims

/-- LOAD SPARE ENTRIES from a control-permitted port: its checks in order, the first that fails deciding, the map left as it
was. A count outside 1 to 16 is refused with residual 0; a drive over 7 or not configured, then a home track off the drive's
data cylinders and heads or an alternate off its alternate cylinders and heads, then a clash, each with the number of the first
entry that fails; a map that would grow over 96 with residual 0; and with an operation in flight on a drive named it is HELD
BUSY, the port owed at each such drive, marked ORDER unless it was owed there already. An entry clashes when its home track or
its alternate is the home track or an alternate, current or pending, of an entry of its drive in the map, or a track of an
earlier entry of the order for its drive. Passed, the entries join the map's end in their order, ACTIVE and LOADED. DELETE
SPARE ENTRY: a drive over 7, a home track off the data cylinders of a configured drive, and no such entry are refused with
residual 0; with an operation in flight it is HELD BUSY, the port owed as above; else the entry goes and the gap closes (2.5,
6.5, 9.3). -/
def Obligations.SpareMapOrders : Prop :=
  ∀ (s u t : State) (h : Hdr), s.Finds u → u.TakesControl h t →
    let refused (i : Instr) (n : Nat) : Prop :=
      exec i s = .next (t.unitStatus h.port { fault := true, reason := .fault .commandReject, residual := n }).serveClaims
    let owing (busy : Drive → Prop) (v : State) : Prop := v = { t with sharing := v.sharing } ∧
      ∀ d, (busy d → v.share d = { t.share d with
          owed := (t.share d).owed.set h.port (some (((t.share d).owes h.port).getD .order)) }) ∧
        (¬ busy d → v.share d = t.share d)
    let heldOff (i : Instr) (busy : Drive → Prop) : Prop := ∃ v : State, owing busy v ∧
      exec i s = .next (v.unitStatus h.port { held := true, reason := .busy }).serveClaims
    (∀ es : List SpareItem,
      let load := Instr.loadSpareEntries h es
      let first (bad : Nat → SpareItem → Prop) (n : Nat) : Prop := (∃ e, es[n]? = some e ∧ bad n e) ∧
        ∀ m y, m < n → es[m]? = some y → ¬ bad m y
      let undriven (_ : Nat) (e : SpareItem) : Prop := ∀ d : Drive, d.val = e.drive → (t.record d).configured = false
      let misplaced (_ : Nat) (e : SpareItem) : Prop := ∀ d : Drive, d.val = e.drive →
        ¬ (e.home.cyl < (t.typeOf d).dataCyls ∧ e.home.head < (t.typeOf d).heads ∧
          (t.typeOf d).dataCyls ≤ e.alternate.cyl ∧ e.alternate.cyl < (t.typeOf d).dataCyls + (t.typeOf d).altCyls ∧
          e.alternate.head < (t.typeOf d).heads)
      let named (x : SpareEntry) (q : Track) : Prop := x.home = q ∨ x.current = some q ∨ x.pending = some q
      let clash (n : Nat) (e : SpareItem) : Prop :=
        (∃ x ∈ t.spareMap, x.drive.val = e.drive ∧ (named x e.home ∨ named x e.alternate)) ∨
        ∃ m y, m < n ∧ es[m]? = some y ∧ y.drive = e.drive ∧
          (y.home = e.home ∨ y.home = e.alternate ∨ y.alternate = e.home ∨ y.alternate = e.alternate)
      let none' (bad : Nat → SpareItem → Prop) : Prop := ∀ n e, es[n]? = some e → ¬ bad n e
      let busy (d : Drive) : Prop := (∃ e ∈ es, e.drive = d.val) ∧ (t.op d).isSome = true
      (es.length < 1 ∨ 16 < es.length → refused load 0) ∧
      (1 ≤ es.length → es.length ≤ 16 →
        (∀ n, first undriven n → refused load (n + 1)) ∧
        (none' undriven →
          (∀ n, first misplaced n → refused load (n + 1)) ∧
          (none' misplaced →
            (∀ n, first clash n → refused load (n + 1)) ∧
            (none' clash →
              (96 < t.spareMap.length + es.length → refused load 0) ∧
              (t.spareMap.length + es.length ≤ 96 →
                ((∃ d, busy d) → heldOff load busy) ∧
                ((∀ d, ¬ busy d) →
                  let loaded : List SpareEntry := es.filterMap fun e =>
                    (allDrives.find? fun d => decide (d.val = e.drive)).map fun d =>
                      { drive := d, home := e.home, current := some e.alternate, pending := none, origin := .loaded,
                        active := true }
                  exec load s = .next (({ t with spareMap := t.spareMap ++ loaded } : State).unitStatus h.port
                    { done := true }).serveClaims))))))) ∧
    (∀ n x, 8 ≤ n → refused (.deleteSpareEntry h n x) 0) ∧
    ∀ (d : Drive) (x : Track),
      let delete := Instr.deleteSpareEntry h d.val x
      let placed : Prop := (t.record d).configured = true → x.cyl < (t.typeOf d).dataCyls
      (¬ placed → refused delete 0) ∧
      (placed → (t.op d).isSome = true → heldOff delete (· = d)) ∧
      (placed → t.op d = none →
        ((∃ e ∈ t.spareMap, e.drive = d ∧ e.home = x) → exec delete s = .next (({ t with
          spareMap := t.spareMap.filter fun e => !(decide (e.drive = d) && decide (e.home = x)) } : State).unitStatus h.port
            { done := true }).serveClaims) ∧
        ((∀ e ∈ t.spareMap, e.drive = d → e.home ≠ x) → refused delete 0))

/-- ASSIGN ALTERNATE and RESTORE TRACK from a control-permitted port. Their checks, in order: the drive, configured, ready, the
home track, hold, reservation, an operation in flight, room in the map (ASSIGN) or an entry with a current alternate
(RESTORE), write protect; the first that fails gives a FAULT with residual 0, or HELD with the port owed, marked ORDER. Passed,
the operation is created with its write point NOT PASSED and its issuer claim HELD, ACCEPT and DISCONNECT are sent; ASSIGN
begins with PICK at the cursor, RESTORE with the positioning to the home track, its entry's current alternate the old
alternate (7.1, 7.2, 7.4). -/
def Obligations.AlternateOperationsBegin : Prop :=
  ∀ (s u t : State) (h : Hdr) (x : Track), s.Finds u → u.TakesControl h t →
    let refused (k : FaultKind) (i : Instr) : Prop :=
      exec i s = .next (t.unitStatus h.port { fault := true, reason := .fault k }).serveClaims
    (∀ n i, 8 ≤ n → i = .assignAlternate h n x ∨ i = .restoreTrack h n x → refused .commandReject i) ∧
    ∀ d : Drive,
      let heldOff (k : Reason) (i : Instr) : Prop :=
        exec i s = .next ((t.oweOrder d h.port).unitStatus h.port { held := true, reason := k }).serveClaims
      let either (q : Instr → Prop) : Prop := q (.assignAlternate h d.val x) ∧ q (.restoreTrack h d.val x)
      let isHome : Prop := x.cyl < (t.typeOf d).dataCyls ∧ x.head < (t.typeOf d).heads
      let free : Prop := (t.share d).owner = none ∨ (t.share d).owner = some (t.port h.port).group
      ((t.record d).configured = false → either (refused .notConfigured)) ∧
      ((t.record d).configured = true → (t.pos d).actuator = .notReady → either (refused .notReady)) ∧
      ((t.record d).configured = true → (t.pos d).actuator ≠ .notReady →
        (¬ isHome → either (refused .commandReject)) ∧
        (isHome → (t.share d).hold.isSome = true → either (heldOff .hold)) ∧
        (isHome → (t.share d).hold = none → ¬ free → either (heldOff .reserved)) ∧
        (isHome → (t.share d).hold = none → free → (t.op d).isSome = true → either (heldOff .busy)) ∧
        (isHome → (t.share d).hold = none → free → t.op d = none →
          (t.entryFor d x = none → 96 ≤ t.spareMap.length → refused .mapFull (.assignAlternate h d.val x)) ∧
          ((∀ e, t.entryFor d x = some e → e.current = none) → refused .commandReject (.restoreTrack h d.val x)) ∧
          ((t.pos d).writeProtect = true →
            ((t.entryFor d x).isSome = true ∨ t.spareMap.length < 96 → refused .notWritable (.assignAlternate h d.val x)) ∧
            (∀ e, t.entryFor d x = some e → e.current.isSome = true → refused .notWritable (.restoreTrack h d.val x))) ∧
          ((t.pos d).writeProtect = false →
            let accepted : Status := { accept := true, disconnect := true }
            let alt (step : AltStep) : AltOp :=
              { step := step, writePassed := false, candidate := none, tried := 0, hasEntry := (t.entryFor d x).isSome,
                fresh := false, old := (t.entryFor d x).bind SpareEntry.current, issuerHeld := true, marked := none,
                retired := none, firstFault := none }
            (((t.entryFor d x).isSome = true ∨ t.spareMap.length < 96) →
              exec (.assignAlternate h d.val x) s = .next (((t.setOp d (some
                { Operation.fresh .assignAlternate h.port (t.port h.port).group (some x) with
                  target := some (t.translate d x).target, expected := some (t.translate d x).expected,
                  entry := (t.translate d x).entry, alt := some (alt .pick) })).sendStatus h.port .unit accepted true).beginPick d
                ).serveClaims) ∧
            (∀ e, t.entryFor d x = some e → e.current.isSome = true →
              exec (.restoreTrack h d.val x) s = .next (((t.setOp d (some
                { Operation.fresh .restoreTrack h.port (t.port h.port).group (some x) with
                  target := some x, expected := some (t.translate d x).expected,
                  entry := (t.translate d x).entry, alt := some (alt .approach) })).sendStatus h.port .unit accepted true).position d
                ).serveClaims))))

/-- An alternate operation, step by step. PICK: the candidate is the alternate track at the cursor, also one skipped; with the cursor at A × H
the operation ends with NO ALTERNATE EXHAUSTED, after eight skips with SKIP-LIMIT; a track that is a current alternate of the
drive is skipped, the cursor and the tried count rising by 1; another candidate is positioned to, and with that motion the
cursor stays. PROBE goes on to MARK-ALT on FREE ALTERNATE and skips any other finding. MARK-ALT passes the cursor over the
candidate, makes it the entry's pending alternate, passes the write point and asks for the write, or ends with MAP FULL.
Where that would give two entries one track, or an entry a track out of its place, the map stays: no run reaches such a state
(model's choice, log 56). MARK-HOME
positions to the home track and asks for its write; COMMIT makes the pending alternate current and retires an old
one; RESTORE rewrites the home track and retires its alternate. The first fault met is kept, also where it ends the operation.
The operation ends with its last alternate result, kept with its pending status; a RESTORE's carries its entry's alternate whatever its outcome (model's choice, log 54) (7.1 to 7.6). -/
def Obligations.PickTakesTheTrackAtTheCursor : Prop :=
  ∀ (s : State) (d : Drive) (o : Operation) (a : AltOp) (n : Nat), s.op d = some o → o.alt = some a →
    let cur := (s.record d).cursor
    let c := (s.typeOf d).alternateAt cur
    let handed : Option Orientation :=
      some { external := false, sector := 0, req := .dormant, windowOpen := false, later := false, deferred := PortSet.none,
             tested := false }
    let home : Track := o.home
    let altered (b : AltOp) : State := s.setOp d (some { o with alt := some b })
    let write (f : HomeField) (b : AltOp) : Operation := { o with work := .writeHome f, orient := handed, alt := some b }
    let mapped (f : SpareEntry → SpareEntry) (v : State) : State :=
      { v with spareMap := v.spareMap.map fun e => if e.drive = d ∧ e.home = home then f e else e }
    let committed (b : AltOp) : State :=
      mapped (fun e => { e with current := e.pending, pending := none, origin := .assigned, active := true }) (altered b)
    let cleared : State := { s with suspects := s.suspects.filter fun e =>
      !(decide (e.drive = d) && (home :: a.old.toList).contains e.physical) }
    let outcome : AltOutcome := (a.firstFault.map fun x => AltOutcome.fault x.1 x.2).getD .done
    (8 ≤ a.tried → s.pick d (n + 1) = s.endAlternate d (.fault .noAlternate .skipLimit)) ∧
    (a.tried < 8 → (s.typeOf d).altCyls * (s.typeOf d).heads ≤ cur →
      s.pick d (n + 1) = (altered { a with step := .pick }).endAlternate d (.fault .noAlternate .exhausted)) ∧
    (a.tried < 8 → cur < (s.typeOf d).altCyls * (s.typeOf d).heads →
      ((∃ e ∈ s.spareMap, e.drive = d ∧ e.current = some c) →
        s.pick d (n + 1) = ((s.setRecord d { s.record d with cursor := cur + 1 }).setOp d
          (some { o with alt := some { a with step := .pick, candidate := some c, tried := a.tried + 1 } })).pick d n) ∧
      ((∀ e ∈ s.spareMap, e.drive = d → e.current ≠ some c) → ∀ k, (s.pos d).actuator = .onCylinder →
        (s.pos d).cyl = some k → k ≠ c.cyl → (s.pos d).unanswered < 2 →
        s.pick d (n + 1) = (s.setOp d (some { o with
            target := some c, work := .positioning, alt := some { a with step := .probe, candidate := some c } })).modPos d fun q =>
          { q with actuator := .seeking, cyl := none, motionTarget := some c.cyl, owned := true, status := none,
                   deadline := some (s.now + (s.typeOf d).motionTime (distance c.cyl k)) })) ∧
    -- a home field read, by step
    (∀ f, (a.step = .pick ∨ a.step = .probe → s.altHomeRead d f =
        if f = some .freeAlternate then s.markAlt d
        else ((s.setRecord d { s.record d with cursor := cur + 1 }).setOp d
          (some { o with alt := some { a with tried := a.tried + 1 } })).pick d 9) ∧
      (a.step = .markHome → ∀ q, a.candidate = some q → s.altHomeRead d f =
        s.setOp d (some (write { address := home, condition := .defective q } a))) ∧
      (a.step = .approach → s.altHomeRead d f = s.setOp d (some
        (write { address := home, condition := .good } { a with step := .rewriteHome, writePassed := true }))) ∧
      (a.step = .commit ∨ a.step = .retireAlt → ∀ q, o.target = some q → s.altHomeRead d f =
        if f = some (.alternate home) then s.setOp d (some (write { address := q, condition := .retired } a))
        else (altered { a with retired := some false }).finishAlternate d)) ∧
    -- MARK-ALT
    (∀ q, a.candidate = some q →
      let marking : AltOp := { a with step := .markAlt, hasEntry := true, fresh := !a.hasEntry, writePassed := true }
      let passed := (s.setRecord d { s.record d with cursor := cur + 1 }).setOp d
        (some (write { address := q, condition := .alternate home } marking))
      (a.hasEntry = false → 96 ≤ s.spareMap.length →
        s.markAlt d = (altered { a with step := .markAlt }).endAlternate d (.fault .mapFull .none)) ∧
      let held : Prop := ∃ e ∈ s.spareMap, e.drive = d ∧ e.home ≠ home ∧ (e.current = some q ∨ e.pending = some q)
      let entered : Prop := ∃ e ∈ s.spareMap, e.drive = d ∧ e.home = home
      let ty := s.typeOf d
      let placed : Prop := (s.record d).configured = true ∧ home.cyl < ty.dataCyls ∧ home.head < ty.heads ∧
        ty.dataCyls ≤ q.cyl ∧ q.cyl < ty.dataCyls + ty.altCyls ∧ q.head < ty.heads
      (a.hasEntry = true → ¬ held → placed → s.markAlt d = mapped (fun e => { e with pending := some q, active := true }) passed) ∧
      (a.hasEntry = false → s.spareMap.length < 96 → ¬ held → placed → ¬ entered → s.markAlt d = { passed with
        spareMap := s.spareMap ++ [{ drive := d, home := home, current := none, pending := some q, origin := .assigned,
                                     active := true }] }) ∧
      (a.hasEntry = true ∧ (held ∨ ¬ placed) ∨
        a.hasEntry = false ∧ s.spareMap.length < 96 ∧ (held ∨ ¬ placed ∨ entered) → s.markAlt d = passed)) ∧
    -- a home field written, by step
    (a.step = .markAlt → s.altWritten d true = s.markHome d ∧
      (a.fresh = false → s.altWritten d false =
        (mapped (fun e => { e with pending := none }) s).endAlternate d (.fault .dataCheck .altUnmarked)) ∧
      (a.fresh = true → s.altWritten d false =
        ({ s with spareMap := s.spareMap.filter fun e => !(decide (e.drive = d) && decide (e.home = home)) } : State
          ).endAlternate d (.fault .dataCheck .altUnmarked))) ∧
    (a.step = .markHome → s.altWritten d true = (altered { a with marked := some true }).commit d ∧
      s.altWritten d false = (altered { a with
        firstFault := a.firstFault <|> some (.dataCheck, .homeUnmarked), marked := some false }).commit d) ∧
    (a.step = .rewriteHome → s.altWritten d true = (altered { a with marked := some true }).retireAlt d ∧
      s.altWritten d false = (altered { a with marked := some false }).endAlternate d (.fault .dataCheck .homeUnmarked)) ∧
    (a.step = .commit ∨ a.step = .retireAlt → ∀ g,
      s.altWritten d g = (altered { a with retired := some g }).finishAlternate d) ∧
    -- MARK-HOME, COMMIT and RETIRE-ALT begin
    (∀ k, (s.pos d).actuator = .onCylinder → (s.pos d).cyl = some k →
      let seek (y : Nat) (v : State) : State := v.modPos d fun q =>
        { q with actuator := .seeking, cyl := none, motionTarget := some y, owned := true, status := none,
                 deadline := some (s.now + (s.typeOf d).motionTime (distance y k)) }
      (k ≠ home.cyl → (s.pos d).unanswered < 2 → s.markHome d = seek home.cyl (s.setOp d (some { o with
        target := some home, work := .positioning, alt := some { a with step := .markHome } }))) ∧
      (∀ q st, k = home.cyl → (s.pos d).head = some home.head → (s.pos d).status = some st → a.candidate = some q →
        s.markHome d = s.setOp d (some { write { address := home, condition := .defective q }
          { a with step := .markHome } with target := some home })) ∧
      (∀ q, k ≠ q.cyl → (s.pos d).unanswered < 2 → s.goRetire d q =
        seek q.cyl (s.setOp d (some { o with target := some q, work := .positioning }))) ∧
      (∀ q, k = q.cyl → (s.pos d).head = some q.head → s.goRetire d q = s.setOp d (some { o with
        target := some q, work := .readHome, orient := handed, rereads := 0, rereadDue := false }))) ∧
    (a.old = none → s.commit d = (committed { a with step := .commit }).finishAlternate d) ∧
    (∀ q, a.old = some q →
      ((∀ x, a.firstFault ≠ some (.equipmentCheck, x)) ∨ (s.pos d).actuator ≠ .uncalibrated →
        s.commit d = (committed { a with step := .commit }).goRetire d q) ∧
      (∀ x, a.firstFault = some (.equipmentCheck, x) → (s.pos d).actuator = .uncalibrated →
        s.commit d = (committed { a with step := .commit, retired := some false }).finishAlternate d)) ∧
    (∀ q, a.old = some q → s.retireAlt d = (altered { a with step := .retireAlt }).goRetire d q) ∧
    -- a positioning that fails, by step
    (∀ det, ((a.step = .pick ∨ a.step = .probe ∨ a.step = .markAlt ∨ a.step = .approach ∨ a.step = .rewriteHome) →
        s.equipmentCheck d det = s.endAlternate d (.fault .equipmentCheck det)) ∧
      (a.step = .markHome → s.equipmentCheck d det = (altered { a with
        firstFault := a.firstFault <|> some (.equipmentCheck, det), marked := some false }).commit d) ∧
      (a.step = .commit ∨ a.step = .retireAlt → s.equipmentCheck d det = (altered { a with
        firstFault := a.firstFault <|> some (.equipmentCheck, det), retired := some false }).finishAlternate d)) ∧
    -- the ends
    (o.kind ≠ .restoreTrack → s.finishAlternate d = cleared.endAlternate d outcome) ∧
    (o.kind = .restoreTrack → s.finishAlternate d = ({ cleared with
      spareMap := s.spareMap.filter fun e => !(decide (e.drive = d) && decide (e.home = home)) } : State
      ).endAlternate d outcome) ∧
    ∀ out : AltOutcome,
      let result : AltResult :=
        { order := if o.kind = .restoreTrack then .restore else .assign, drive := d, home := home,
          alternate := if o.kind = .restoreTrack then a.old
            else if a.step = .commit then (s.entryFor d home).bind SpareEntry.current else none,
          outcome := out, marked := a.marked, retired := a.retired, cursor := cur }
      let status : Status := match out with
        | .fault k det => { fault := true, disconnect := true, reason := .fault k, detail := det, alt := some result }
        | .done | .aborted => { done := true, disconnect := true, alt := some result }
      let ended : AltOp := match out with
        | .fault k det => { a with firstFault := a.firstFault <|> some (k, det) }
        | .done | .aborted => a
      let kept : State := ({ s with lastAlt := some result } : State).setOp d (some { o with
        alt := some ended, work := .ended, orient := none, pending := some { status := status, record := none },
        statusDeferred := PortSet.none })
      (a.issuerHeld = true ∨ o.group ≠ 0 ∧ (∃ p, (s.port p).group = o.group) →
        s.endAlternate d out = kept.freeInternalPath d) ∧
      (a.issuerHeld = false → o.group = 0 ∨ (∀ p, (s.port p).group ≠ o.group) →
        s.endAlternate d out = ((kept.freeInternalPath d).withdrawOffersOf d).endOperation d)

/-- SET PATH GROUP and SET NOTICE MASK: a group over 15 is refused, one from a port that holds a drive is HELD HOLD; the group
the port has already changes nothing; else the port's own group becomes the value, the owed set of each drive that owes the
port is tested, in drive-number order (model's choice, log 45), and an alternate operation whose kept status no port can take
any more ends; where there is neither nothing else changes. An enable that is neither 0 nor 1 is refused; else the port's two
enables are set (9.1, 7.6, 10.3). -/
def Obligations.GroupAndMaskOrders : Prop :=
  ∀ (s u t : State) (h : Hdr), s.Finds u → u.TakesOrder h t →
    (∀ g, 15 < g → exec (.setPathGroup h g) s =
      .next (t.unitStatus h.port { fault := true, reason := .fault .commandReject }).serveClaims) ∧
    (∀ g, g ≤ 15 → (∃ d x, (t.share d).hold = some x ∧ x.port = h.port) → exec (.setPathGroup h g) s =
      .next (t.unitStatus h.port { held := true, reason := .hold }).serveClaims) ∧
    (∀ g, g ≤ 15 → (∀ d x, (t.share d).hold = some x → x.port ≠ h.port) → (∀ d, (t.share d).owes h.port = none) →
      (∀ d o, t.op d = some o → o.alt = none) → exec (.setPathGroup h g) s =
      .next ((t.modPort h.port fun r => { r with group := g }).unitStatus h.port { done := true }).serveClaims) ∧
    (∀ g, g ≤ 15 → (∀ d x, (t.share d).hold = some x → x.port ≠ h.port) →
      (g = (t.port h.port).group → exec (.setPathGroup h g) s =
        .next (t.unitStatus h.port { done := true }).serveClaims) ∧
      (g ≠ (t.port h.port).group → (∀ d o, t.op d = some o → o.alt = none) → exec (.setPathGroup h g) s =
        .next ((allDrives.foldl (fun v d => if ((t.share d).owes h.port).isSome then v.owedTest d else v)
          (t.modPort h.port fun r => { r with group := g })).unitStatus h.port { done := true }).serveClaims) ∧
      ∀ d o a x, g ≠ (t.port h.port).group → (∀ e, (t.share e).owes h.port = none) →
        (∀ e o', e ≠ d → t.op e = some o' → o'.alt = none) →
        t.op d = some o → o.alt = some a → o.pending = some x → a.issuerHeld = false → o.group ≠ g →
        (∀ q, q ≠ h.port → (t.port q).group ≠ o.group) → exec (.setPathGroup h g) s =
          .next ((((t.modPort h.port fun r => { r with group := g }).withdrawOffersOf d).endOperation d).unitStatus h.port
            { done := true }).serveClaims) ∧
    (∀ a b, 2 ≤ a ∨ 2 ≤ b → exec (.setNoticeMask h a b) s =
      .next (t.unitStatus h.port { fault := true, reason := .fault .commandReject }).serveClaims) ∧
    ∀ a b : Bool, exec (.setNoticeMask h a.toNat b.toNat) s =
      .next ((t.modPort h.port fun r => { r with maskStateChange := a, maskSpareAdvised := b }).unitStatus h.port
        { done := true }).serveClaims

/-- UNIT CLEAR from a control-permitted port: every operation, path, suspect entry, reservation, hold, owed set and notice
goes, every other connection and every offer ends, no frame of the former staying but a STATUS (log 21), with DISCONNECT (8.5,
log 59), and an OFFER that stood, no data request (model's choice, log 75), every positioner gives up its motion with the
track status UNKNOWN and its counter known as before; groups, masks, straps, tables and write-protect settings stay; the abort
of an alternate operation removes the spare entry it made fresh and clears another's pending alternate, the other entries
staying; DONE and DISCONNECT are sent (11.3, 3.8, 6.1, 7.6). -/
def Obligations.UnitClearEmptiesTheUnit : Prop :=
  ∀ (s u t : State) (h : Hdr), s.Finds u → u.TakesControl h t → ∃ v : State,
    exec (.unitClear h) s = .next (v.sendStatus h.port .unit { done := true, disconnect := true } true).serveClaims ∧
    (∀ d, v.op d = none ∧ v.share d = { owner := none, hold := none, owed := Vector.replicate 4 none }) ∧
    v.paths = Vector.replicate 2 none ∧ v.suspects = [] ∧ (∀ p, v.queue p = { notices := [], held := false }) ∧
    v.types = t.types ∧ v.records = t.records ∧ v.now = t.now ∧ v.lastAlt = t.lastAlt ∧
    (∀ p, (v.port p).straps = (t.port p).straps ∧ (v.port p).group = (t.port p).group ∧
      (v.port p).maskStateChange = (t.port p).maskStateChange ∧ (v.port p).maskSpareAdvised = (t.port p).maskSpareAdvised ∧
      (v.port p).overflow = false ∧
      (p ≠ h.port → (t.port p).state = .connected ∨ (t.port p).state = .offering → (v.port p).state = .idle) ∧
      ((t.port p).state = .resetting → (v.port p).state = .resetting) ∧
      (p ≠ h.port → (t.port p).state = .connected → ∀ f ∈ (v.port p).link,
        (∃ (a : Nat) (st : Status), f = .status a { st with disconnect := true } false) ∨ ∃ a o, f = .offer a o)) ∧
    (∀ d, (v.pos d).status = none ∧ (v.pos d).angle = (t.pos d).angle ∧ (v.pos d).writeProtect = (t.pos d).writeProtect ∧
      (v.pos d).head = (t.pos d).head ∧ (v.pos d).deadline = none ∧ (v.pos d).motionTarget = none ∧
      ((t.pos d).actuator = .seeking ∨ (t.pos d).actuator = .recalibrating →
        (v.pos d).actuator = .uncalibrated ∧ (v.pos d).cyl = none ∧ (v.pos d).unanswered = min 2 ((t.pos d).unanswered + 1)) ∧
      ((t.pos d).actuator ≠ .seeking → (t.pos d).actuator ≠ .recalibrating →
        (v.pos d).actuator = (t.pos d).actuator ∧ (v.pos d).cyl = (t.pos d).cyl ∧
        (v.pos d).unanswered = (t.pos d).unanswered)) ∧
    ((∀ d o, t.op d = some o → o.alt = none) → v.spareMap = t.spareMap) ∧
    (∀ d o a, t.op d = some o → o.alt = some a →
      (a.fresh = true → ∀ e ∈ v.spareMap, e.drive = d → e.home ≠ o.home) ∧
      (a.fresh = false → (∀ e ∈ v.spareMap, e.drive = d → e.home = o.home → e.pending = none) ∧
        ∀ e ∈ t.spareMap, e.drive = d → e.home = o.home → { e with pending := none } ∈ v.spareMap)) ∧
    ∀ e : SpareEntry, (∀ o, t.op e.drive = some o → o.alt = none ∨ o.home ≠ e.home) → (e ∈ v.spareMap ↔ e ∈ t.spareMap)

/-! ## Connections and the other frames of a port -/

/-- A FAULT in an operation's connection: the STATUS with DISCONNECT is produced, the operation ends, and unless the kind is
NOT READY the port holds the drive with the fault record and the type's hold limit; a port owed by an order leaves the owed set
and is told by DEVICE-FREE, one owed by a command waits for the hold to end; no other drive is touched. The end of an operation
itself: its record is discarded, with a hold the hold begins, the owed set is tested, and a port whose RESERVE UNCONDITIONAL
waited for it receives DONE and DISCONNECT (5.1, 9.4, 9.5, 9.6). -/
def Obligations.FaultInAConnection : Prop :=
  (∀ (s : State) (d : Drive) (p : Port) (o : Operation) (k : FaultKind) (det : Detail) (res : Nat) (found : Option Condition),
    s.op d = some o → (s.port p).conn = some (.drive d) → (s.port p).awaiting = false →
    let v := s.faultInConnection d p o k det res found
    v.op d = none ∧ (∀ e, e ≠ d → v.op e = s.op e ∧ v.share e = s.share e) ∧ v.positioners = s.positioners ∧
    v.spareMap = s.spareMap ∧ v.suspects = s.suspects ∧
    (v.port p).link = (s.port p).link ++ [.status ((s.port p).addressOf (.drive d))
      { fault := true, disconnect := true, reason := .fault k, detail := det, residual := res } true] ∧
    (v.port p).answer = none ∧ (v.port p).held = [] ∧ (v.port p).requests = [] ∧
    (k = .notReady → (v.share d).hold = (s.share d).hold) ∧
    (k ≠ .notReady →
      (v.share d).hold = some {
        port := p, timer := (s.typeOf d).holdLimit,
        record := { kind := some k, detail := det, drive := d, logical := o.logical, physical := o.target,
                    record := (o.current.map fun r => r.id.number).getD o.record, retries := o.retries, miss := o.miss,
                    residual := res, found := found } } ∧
      ∀ q, q ≠ p → (s.share d).owes q = some .command → (v.share d).owes q = some .command ∧ v.queue q = s.queue q) ∧
    ∀ q, (s.share d).owes q = some .order → (v.share d).owes q = none ∧
      (v.queue q).notices = if (s.port q).state = .disabled then (s.queue q).notices
        else (enterQueue (s.queue q).notices (s.port q).offersNotice (.deviceFree d)).1) ∧
  ∀ (s : State) (d : Drive) (p : Port) (r : FaultRecord),
    ((∀ q, (s.port q).awaiting = false) →
      s.endOperation d = (s.setOp d none).owedTest d ∧
      s.endOperationWithHold d p r = ((s.setOp d none).setShare d { s.share d with
        hold := some { port := p, timer := (s.typeOf d).holdLimit, record := r } }).owedTest d) ∧
    ((s.port p).awaiting = true → (s.port p).conn = some (.drive d) → (∀ q, q ≠ p → (s.port q).awaiting = false) →
      s.endOperation d = (((s.setOp d none).owedTest d).modPort p fun x => { x with awaiting := false }).reply p d
        { done := true })

/-- DATA for a WRITE in progress: it answers the oldest request when its offset is that request's, its bytes up to the
request's count enter the buffer, and a shorter frame leaves the rest to be asked for before what has not been asked for yet
(model's choice, log 15): at once where no other request and no other frame stands, else when a slot allows; another offset, a
frame without bytes or of more than 256, a count that is not that of its bytes, or no request outstanding, and it is
discarded; any address of the port's window that is answered serves (deduced, log 17). BYTES DRAWN FOR WRITING, once the field
at which the WRITE begins is reached after its arming and not lost for this revolution (for a current record of another track
its byte on the track selected: model's choice, log 74), takes the bytes that stand next, one held frame at a time, which go
to the medium and free their slot, and the next request follows if bytes remain; with none there it turns the rest of the
field to zeros; before that it does nothing: what the command takes, and when, is the model's choice (deduced, log 16). A slot
is free for each request that stands, which the model tests again (log 56). A WRITE whose record is sought again after a
misposition draws nothing (model's choice, log 62). Requests outstanding and frames held are two while bytes remain to be
asked for, so one request follows (8.7, 5.6, 5.9, 1.1, 1.3). -/
def Obligations.HostBytesOfAWrite : Prop :=
  ∀ (s u : State) (p : Port) (d : Drive) (o : Operation) (w : WriteCmd), s.Finds u → u.op d = some o → o.conn = some p →
    o.cmd = some (.write w) → (u.port p).state = .connected → (u.port p).conn = some (.drive d) →
    -- the command as it goes on, and the request that follows for the bytes from q on, l of them, before `more`
    let going (v : State) (w' : WriteCmd) (check : Bool) : State :=
      v.setOp d (some { o with keyCheck := check, cmd := some (.write w') })
    let asked (v : State) (w' : WriteCmd) (check : Bool) (q l : Nat) (more : List (Nat × Nat)) : State :=
      (going v { w' with toAsk := if 256 < l then (q + 256, l - 256) :: more else more } check).modPort p fun r =>
        { r with link := r.link ++ [.request (r.addressOf (.drive d)) q (min 256 l)],
                 requests := r.requests ++ [(q, min 256 l)] }
    (∀ (a off n : Nat) (bs : List Byte),
      ((u.port p).named a = none ∨ n ≠ bs.length ∨ n = 0 ∨ 256 < n ∨ (u.port p).requests = [] ∨
          (∃ x rest, (u.port p).requests = x :: rest ∧ x.1 ≠ off) → exec (.data p a off n bs) s = .next u.serveClaims) ∧
      (∀ m rest, (u.port p).requests = (off, m) :: rest → 2 ≤ (u.port p).slots + (u.port p).held.length →
        exec (.data p a off n bs) s = .next u.serveClaims) ∧
      ∀ m rest, (u.port p).named a ≠ none → n = bs.length → 1 ≤ n → n ≤ 256 → (u.port p).requests = (off, m) :: rest →
        (u.port p).slots + (u.port p).held.length < 2 →
        let v := u.modPort p fun r => { r with requests := rest, held := r.held ++ [{ offset := off, bytes := bs.take m }] }
        let left := if n < m then (off + n, m - n) :: w.toAsk else w.toAsk
        ((left = [] ∨ rest ≠ [] ∨ (u.port p).held ≠ []) →
          exec (.data p a off n bs) s = .next (going v { w with toAsk := left } o.keyCheck).serveClaims) ∧
        ∀ q l more, rest = [] → (u.port p).held = [] → left = (q, l) :: more →
          exec (.data p a off n bs) s = .next (asked v w o.keyCheck q l more).serveClaims) ∧
    (w.seek.isSome = true ∨ o.lost = true ∨ (∀ r, o.current = some r → u.inTime d o (r.start + 28) = false) →
      exec (.bytesDrawnForWriting d) s = .next u.serveClaims) ∧
    ∀ r, o.current = some r → u.inTime d o (r.start + 28) = true → o.lost = false → w.seek = none →
      (w.zeroFill = true ∨ w.stop.isSome = true ∨ w.need ≤ w.bytes.length → exec (.bytesDrawnForWriting d) s =
        .next (going u { w with begun := true } false).serveClaims) ∧
      (w.zeroFill = false → w.stop = none → w.bytes.length < w.need →
        (∀ c front back, (u.port p).held = front ++ c :: back → c.offset = w.bytes.length →
          (∀ y ∈ front ++ back, y.offset ≠ w.bytes.length) →
          let v := u.modPort p fun r => { r with held := front ++ back }
          let w' : WriteCmd := { w with begun := true, bytes := w.bytes ++ c.bytes }
          (w.toAsk = [] ∨ 2 ≤ (u.port p).requests.length + (front ++ back).length →
            exec (.bytesDrawnForWriting d) s = .next (going v w' false).serveClaims) ∧
          ∀ q l more, w.toAsk = (q, l) :: more → (u.port p).requests.length + (front ++ back).length = 1 →
            exec (.bytesDrawnForWriting d) s = .next (asked v w' false q l more).serveClaims) ∧
        ((∀ c ∈ (u.port p).held, c.offset ≠ w.bytes.length) → exec (.bytesDrawnForWriting d) s =
          .next (going u { w with begun := true, zeroFill := true } false).serveClaims))

/-- CLOSE ends a connection: with the unit address at once, or after an unanswered order's STATUS; with a drive the operation
in it ends too, the command in progress stopped as HALT stops it, inside a WRITE's data field or a FORMAT TRACK's writing only
when the field has been written, a READ whose outcome only waits for the buffer among those stopped (model's choice, log 38),
and a READ DRIVE STATE whose DATA frame has not left (model's choice, log 73); a connection that is being set aside ends at
once, its frames discarded, and its operation runs on (model's choice, log 55); at a port without a connection it does
nothing. UNIT IDLE TIMER EXPIRY ends the connection with the unit address whose timer has come; where it has not come yet, the
timebase reaches it first, and nothing else happens on the way when no claim stands and nothing falls due before (8.4, 5.1,
5.10; log 3, log 17). -/
def Obligations.ConnectionsAreClosed : Prop :=
  ∀ (s u : State) (p : Port) (a : Nat), s.Finds u →
    ((u.port p).named a ≠ none → (u.port p).state = .connected →
      ((u.port p).conn = some .unit → (u.port p).answer = none → exec (.close p a) s = .next (u.endConnection p).serveClaims) ∧
      ((u.port p).conn = some .unit → (u.port p).answer.isSome = true →
        exec (.close p a) s = .next (u.modPort p fun r => { r with closing := true }).serveClaims) ∧
      (∀ d o, (u.port p).conn = some (.drive d) → u.op d = some o → o.conn = some p →
        (o.cmd = none ∨ o.cmd = some .driveState ∨ (∃ f, o.cmd = some (.locate f)) ∨ (∃ c g ph, o.cmd = some (.search c g ph)) ∨
            (∃ r, o.cmd = some (.read r)) ∨ (∃ w, o.cmd = some (.write w) ∧ w.begun = false) ∨
            (∃ f, o.cmd = some (.format f) ∧ f.begun = false) →
          exec (.close p a) s = .next ((u.endConnection p).endOperation d).serveClaims) ∧
        (∀ w, o.cmd = some (.write w) → w.begun = true → w.stop = none → exec (.close p a) s =
          .next ((u.modPort p fun r => { r with link := dropData r.link, held := [], requests := [], answer := none }).setOp d
            (some { o with cmd := some (.write { w with stop := some .closed, toAsk := [] }) })).serveClaims) ∧
        ∀ f, o.cmd = some (.format f) → f.begun = true → f.stop = none → exec (.close p a) s =
          .next (u.setOp d (some { o with cmd := some (.format { f with stop := some .closed }) })).serveClaims) ∧
      (∀ d, (u.port p).conn = some (.drive d) → (∀ o, u.op d = some o → o.conn ≠ some p) →
        exec (.close p a) s = .next (u.endConnection p).serveClaims)) ∧
    ((u.port p).named a = none ∨ (u.port p).state ≠ .connected → exec (.close p a) s = .next u.serveClaims) ∧
    (∀ e, (u.port p).idleTimer = some e →
      (e ≤ u.now → exec (.unitIdleTimerExpiry p) s = .next (u.endConnection p).serveClaims) ∧
      (u.now < e → u.Quiet → u.due = none → (∀ d x, (u.pos d).deadline = some x → e < x) →
        (∀ q x, q ≠ p → (u.port q).idleTimer = some x → e < x) →
        let v := ({ u with now := e } : State).endConnection p
        v.Quiet → exec (.unitIdleTimerExpiry p) s = .next v)) ∧
    ((u.port p).idleTimer = none → exec (.unitIdleTimerExpiry p) s = .next u.serveClaims)

/-- HALT on the port connected with the drive stops the command in progress and sends DONE, HALTED, DISCONNECT with its
residual, the operation ending as that is produced (deduced, log 1), without a hold, also a READ whose outcome only waits for
the buffer (model's choice, log 38), and READ DRIVE STATE, its DATA frame discarded and the residual 0 (model's choice, log
73); inside a WRITE's data field or a FORMAT TRACK's writing the STATUS waits for FIELD WRITTEN, and a second stop changes
nothing (log 22). A connection without an operation is answered likewise with residual 0, unless its ending STATUS is produced
(log 28). Elsewhere, a connection that is being set aside among it (log 18), HALT aborts a disconnected operation of the
port's group without a frame: its offers are withdrawn, its paths are FREE, its motion has no owner, and the owed set is
tested; it is ignored for any other, an alternate operation among them. With the unit address it aborts the port's alternate
operations whose write point is NOT PASSED, with the result ABORTED, also one that has ended and keeps its status (deduced,
log 20) (5.10, 4.7, 7.6). -/
def Obligations.HaltStops : Prop :=
  (∀ (s u : State) (p : Port) (a : Nat) (d : Drive), s.Finds u → u.addressed p a = some (.drive d) →
    let halted (v : State) (residual : Nat) : State :=
      ((v.modPort p fun r => { r with answer := none, held := [], requests := [] }).sendStatus p (.drive d)
        { done := true, halted := true, disconnect := true, residual := residual } true).endOperation d
    let emptied : State := u.modPort p fun r => { r with link := dropData r.link, held := [], requests := [], answer := none }
    (∀ o, (u.port p).state = .connected → (u.port p).conn = some (.drive d) → u.op d = some o → o.conn = some p →
      (o.cmd = none ∨ (∃ f, o.cmd = some (.locate f)) ∨ (∃ c g ph, o.cmd = some (.search c g ph)) ∨
          (∃ f, o.cmd = some (.format f) ∧ f.begun = false) →
        exec (.halt p a) s = .next (halted u 0).serveClaims) ∧
      (∀ r, o.cmd = some (.read r) → exec (.halt p a) s =
        .next (halted (u.modPort p fun x => { x with link := dropData x.link })
          (o.byteCount - max o.accounted r.sentTo)).serveClaims) ∧
      (o.cmd = some .driveState → exec (.halt p a) s = .next (halted (u.modPort p fun x => { x with link := dropData x.link })
        0).serveClaims) ∧
      (∀ w, o.cmd = some (.write w) → w.begun = false → exec (.halt p a) s =
        .next (halted (u.modPort p fun x => { x with link := dropData x.link }) (o.byteCount - w.bytes.length)).serveClaims) ∧
      (∀ w, o.cmd = some (.write w) → w.begun = true →
        (w.stop = none → exec (.halt p a) s =
          .next (emptied.setOp d (some { o with cmd := some (.write { w with stop := some .halted, toAsk := [] }) })).serveClaims) ∧
        (w.stop.isSome = true → exec (.halt p a) s = .next u.serveClaims)) ∧
      (∀ f, o.cmd = some (.format f) → f.begun = true →
        (f.stop = none → exec (.halt p a) s =
          .next (u.setOp d (some { o with cmd := some (.format { f with stop := some .halted }) })).serveClaims) ∧
        (f.stop.isSome = true → exec (.halt p a) s = .next u.serveClaims))) ∧
    ((u.port p).state = .connected → (u.port p).conn = some (.drive d) → (∀ o, u.op d = some o → o.conn ≠ some p) →
      (u.port p).draining = false →
      ((u.port p).ending = false → exec (.halt p a) s =
        .next ((emptied.modPort p fun r => { r with awaiting := false }).sendStatus p (.drive d)
          { done := true, halted := true, disconnect := true } true).serveClaims) ∧
      ((u.port p).ending = true → exec (.halt p a) s = .next u.serveClaims)) ∧
    ((u.port p).state ≠ .resetting →
      ((u.port p).state ≠ .connected ∨ (u.port p).conn ≠ some (.drive d) ∨
        (u.port p).draining = true ∧ ∀ o, u.op d = some o → o.conn ≠ some p) →
      (u.op d = none → exec (.halt p a) s = .next u.serveClaims) ∧
      ∀ o, u.op d = some o →
        (o.conn ≠ none ∨ o.alt ≠ none ∨
            ¬ (o.issuer = p ∨ ((u.port p).group ≠ 0 ∧ (u.port p).group = o.group)) →
          exec (.halt p a) s = .next u.serveClaims) ∧
        (o.conn = none → o.alt = none → (o.issuer = p ∨ ((u.port p).group ≠ 0 ∧ (u.port p).group = o.group)) →
          (∃ v : State, exec (.halt p a) s = .next v.serveClaims ∧ v.op d = none ∧
            (∀ e, e ≠ d → v.op e = u.op e ∧ v.share e = u.share e) ∧ (v.share d).hold = (u.share d).hold ∧
            (v.share d).owner = (u.share d).owner ∧ v.lastAlt = u.lastAlt ∧ v.spareMap = u.spareMap ∧
            (v.pos d).actuator = (u.pos d).actuator ∧ (v.pos d).owned = false) ∧
          ((∀ q, (u.port q).awaiting = false) →
            let offersNone : State := allPorts.foldl (fun w q =>
              if (u.port q).offer.map Prod.fst = some (.reconnect d) ∨ (u.port q).offer.map Prod.fst = some (.status d)
              then (w.dropOffer q).freePathOfPort q else w) u
            exec (.halt p a) s = .next ((((offersNone.freeInternalPath d).modPos d fun q => { q with owned := false }).setOp d
              none).owedTest d).serveClaims)))) ∧
  ∀ (s u : State) (p : Port) (a : Nat), s.Finds u → u.addressed p a = some .unit → (u.port p).state ≠ .resetting →
    let halts (d : Drive) (o : Operation) (x : AltOp) : Prop :=
      u.op d = some o ∧ o.alt = some x ∧ o.issuer = p ∧ x.writePassed = false
    ((∀ d o x, ¬ halts d o x) → exec (.halt p a) s = .next u.serveClaims) ∧
    ∀ d o x, halts d o x → (∀ e o' x', e ≠ d → ¬ halts e o' x') → (∀ q, (u.port q).awaiting = false) →
      (∀ q, (u.port q).offer.map Prod.fst ≠ some (.reconnect d) ∧ (u.port q).offer.map Prod.fst ≠ some (.status d)) →
      exec (.halt p a) s = .next ((({ (u.freeInternalPath d).modPos d (fun q => { q with owned := false }) with
        lastAlt := some {
          order := if o.kind = .restoreTrack then .restore else .assign, drive := d, home := o.home,
          alternate := if o.kind = .restoreTrack then x.old
            else if x.step = .commit then (u.entryFor d o.home).bind SpareEntry.current else none,
          outcome := .aborted, marked := x.marked, retired := x.retired, cursor := (u.record d).cursor } } : State).setOp d
        none).owedTest d).serveClaims

/-- PORT RESET at a port IDLE, CONNECTED or OFFERING: afterwards the port has no connection, offer, queue or overflow, group 0
and both masks enabled, no frame of its stays but a STATUS (log 21), with DISCONNECT (8.5, log 59), no data request (model's
choice, log 75), it is owed by no drive and holds none; the operations that it issued or was connected with are gone,
alternate ones too unless their write point is PASSED, whose issuer claim is then LOST; one whose write point is NOT PASSED
goes also where it has ended and keeps its pending status (deduced, log 20); the straps stay. A reservation of the port's old
group goes where no other port that is neither DISABLED nor RESETTING carries that group, any other stays. At a DISABLED or
RESETTING port it does nothing (8.8, 9.8, 7.6). -/
def Obligations.PortResetClearsThePort : Prop :=
  ∀ (s u : State) (p : Port), s.Finds u →
    ((u.port p).state = .disabled ∨ (u.port p).state = .resetting → exec (.portReset p) s = .next u.serveClaims) ∧
    ((u.port p).state ≠ .disabled → (u.port p).state ≠ .resetting →
      ∃ v : State, exec (.portReset p) s = .next v.serveClaims ∧
        ((v.port p).state = .idle ∨ (v.port p).state = .resetting ∧ (v.port p).resetDrive.isSome = true) ∧
        (v.port p).straps = (u.port p).straps ∧ (v.port p).group = 0 ∧ (v.port p).maskStateChange = true ∧
        (v.port p).maskSpareAdvised = true ∧ (v.port p).overflow = false ∧ (v.port p).conn = none ∧
        (v.port p).offer = none ∧ v.queue p = { notices := [], held := false } ∧
        (∀ f ∈ (v.port p).link, ∃ (a : Nat) (st : Status), f = .status a { st with disconnect := true } false) ∧
        (∀ d, (v.share d).owes p = none ∧ ∀ x, (v.share d).hold = some x → x.port ≠ p) ∧
        (∀ d o, u.op d = some o → o.alt = none → (o.issuer = p ∨ o.conn = some p) → v.op d = none) ∧
        (∀ d o a, u.op d = some o → o.alt = some a → (o.issuer = p ∨ o.conn = some p) → a.writePassed = false →
          v.op d = none) ∧
        (∀ d o a, u.op d = some o → o.alt = some a → (o.issuer = p ∨ o.conn = some p) → a.writePassed = true →
          o.pending = none → ∃ o', v.op d = some o' ∧ o'.alt = some { a with issuerHeld := false }) ∧
        (∀ d, (u.share d).owner = none → (v.share d).owner = none) ∧
        ∀ d g, (u.share d).owner = some g →
          (∀ q, (u.port q).state = .disabled ∨ (u.port q).state = .resetting → (u.port q).offer = none) →
          (v.share d).owner = if g ≠ 0 ∧ g = (u.port p).group ∧
              ∀ q, q ≠ p → (u.port q).group = g → (u.port q).state = .disabled ∨ (u.port q).state = .resetting
            then none else some g)

/-- TAKE of an offer that has left, with its address. A reconnection connects the port over its path, the orientation ends and
the miss count is 0; with record 0 the LOCATE is DONE, else its record is searched for, and a command set aside is resumed as
it was kept, a WRITE asking for its bytes again (model's choice, log 62). A pending status is sent, the operation ends and a
FAULT with a fault record gives the port a hold. A notice leaves its queue, and RESCAN takes the place of a lost one when that
empties it. DEFER counts it instead as the manual says for each kind. Any other TAKE or DEFER, one with another address among
them, is discarded (4.6, 5.12, 8.6, 10.2, 10.4). -/
def Obligations.OffersAreTakenOrDeferred : Prop :=
  ∀ (s u : State) (p : Port) (a : Nat), s.Finds u →
    ((u.port p).state ≠ .offering ∨ (u.port p).sent = false → ∀ i : Instr, i = .take p a ∨ i = .defer p a →
      exec i s = .next u.serveClaims) ∧
    (∀ i : Instr, i = .take p a ∨ i = .defer p a →
      (∀ d b, (u.port p).offer = some (.reconnect d, b) → (u.port p).named a ≠ some (.drive d) →
        exec i s = .next u.serveClaims) ∧
      (∀ d o b, (u.port p).offer = some (.status d, b) → u.op d = some o →
        (u.port p).named a ≠ some (if o.alt.isSome then .unit else .drive d) → exec i s = .next u.serveClaims) ∧
      (∀ d b, (u.port p).offer = some (.notice (.deviceFree d), b) ∨ (u.port p).offer = some (.notice (.stateChange d), b) ∨
          (u.port p).offer = some (.notice (.reserveBroken d), b) ∨
          (∃ t, (u.port p).offer = some (.notice (.spareAdvised d t), b)) →
        (u.port p).named a ≠ some (.drive d) → exec i s = .next u.serveClaims) ∧
      ∀ b, (u.port p).offer = some (.notice .rescan, b) → (u.port p).named a ≠ some .unit → exec i s = .next u.serveClaims) ∧
    ((u.port p).state = .offering →
      (∀ d o, (u.port p).offer = some (.reconnect d, true) → (u.port p).named a = some (.drive d) → u.op d = some o →
        let joined := u.modPort p fun r =>
          { r with state := .connected, conn := some (.drive d), offer := none, link := r.link.filter fun f => !f.isOffer }
        let back (x : Orientation) : State := ((u.dropOffer p).freePathOfPort p).setOp d (some { o with orient := some x })
        (o.cmd = none → o.record = 0 → exec (.take p a) s = .next ((joined.sendStatus p (.drive d) { done := true } false).setOp d
          (some { o with
            orient := none, miss := 0, conn := some p, work := .connected, reconnected := true, idle := 0, marksSince := 0,
            searchIndex := 0 })).serveClaims) ∧
        (o.cmd = none → o.record ≠ 0 → exec (.take p a) s = .next (joined.setOp d
          (some { o with
            orient := none, miss := 0, conn := some p, work := .connected, reconnected := true, idle := 0, marksSince := 0,
            cmd := some (.locate { marks := 0, noted := false, waitIndex := false }) })).serveClaims) ∧
        (∀ c, o.cmd = some c → (∀ w, c ≠ .write w) → exec (.take p a) s = .next (joined.setOp d
          (some { o with
            orient := none, miss := 0, conn := some p, work := .connected, reconnected := true, idle := 0, marksSince := 0
            })).serveClaims) ∧
        (∀ w n, o.cmd = some (.write w) → w.toAsk = [(0, n)] → (u.port p).requests = [] → (u.port p).held = [] →
          let asking (l : List (Nat × Nat)) : State := joined.setOp d (some { o with
            orient := none, miss := 0, conn := some p, work := .connected, reconnected := true, idle := 0, marksSince := 0,
            cmd := some (.write { w with toAsk := l }) })
          let x := (u.port p).addressOf (.drive d)
          (n ≤ 256 → exec (.take p a) s = .next ((asking []).modPort p fun r =>
            { r with link := r.link ++ [.request x 0 n], requests := [(0, n)] }).serveClaims) ∧
          (256 < n → exec (.take p a) s = .next ((asking (if n ≤ 512 then [] else [(512, n - 512)])).modPort p fun r =>
            { r with link := r.link ++ [.request x 0 256, .request x 256 (min 256 (n - 256))],
                     requests := [(0, 256), (256, min 256 (n - 256))] }).serveClaims)) ∧
        ∀ x, o.orient = some x →
          (x.windowOpen = true → exec (.defer p a) s =
            .next (back { x with req := .active, deferred := x.deferred.set p true }).serveClaims) ∧
          (x.windowOpen = false → exec (.defer p a) s = .next (((u.dropOffer p).freePathOfPort p).setOp d (some { o with
            miss := min 15 (o.miss + 1),
            orient := some { x with req := .dormant, windowOpen := false, deferred := PortSet.none, tested := false } }
            )).serveClaims)) ∧
      (∀ d o x c, (u.port p).offer = some (.status d, true) → c = (if o.alt.isSome then Conn.unit else .drive d) →
        (u.port p).named a = some c → u.op d = some o → o.pending = some x →
        let sent := (u.dropOffer p).sendStatus p c x.status false
        (x.record = none → exec (.take p a) s = .next (sent.endOperation d).serveClaims) ∧
        (∀ r, x.record = some r → exec (.take p a) s = .next (sent.endOperationWithHold d p r).serveClaims) ∧
        exec (.defer p a) s = .next ((u.dropOffer p).setOp d
          (some { o with statusDeferred := o.statusDeferred.set p true })).serveClaims) ∧
      (∀ n rest, (u.port p).offer = some (.notice n, true) → (u.port p).named a = some n.conn →
        (u.queue p).notices = n :: rest →
        (rest ≠ [] ∨ (u.port p).overflow = false → exec (.take p a) s =
          .next ((u.setQueue p { u.queue p with notices := rest }).dropOffer p).serveClaims) ∧
        (rest = [] → (u.port p).overflow = true → exec (.take p a) s =
          .next (((u.setQueue p { u.queue p with notices := [.rescan] }).modPort p fun r =>
            { r with overflow := false }).dropOffer p).serveClaims) ∧
        exec (.defer p a) s = .next ((u.dropOffer p).setQueue p { u.queue p with held := true }).serveClaims))

/-- The oldest outbound frame has left: a STATUS that ends the connection ends it, an OFFER enters phase SENT, a request or
another STATUS just goes; a DATA frame frees its slot, and its bytes count as sent for a READ, also for one whose connection has
been set aside and runs dry. The last one lets what waited for
it happen: the DONE of the command of an operation's connection, the connection standing; a FAULT of it, with the end of the
operation and the hold that FaultInAConnection states; in a connection with a drive that holds no operation, and with the unit
address, its STATUS, with DISCONNECT in the former; and at a port whose connection is being set aside the end of that connection,
the port IDLE (3.5, 5.1, 5.5, 5.11, 6.4, 8.3, 8.4, 8.6, 9.5). -/
def Obligations.OutboundFramesLeave : Prop :=
  ∀ (s u : State) (p : Port), s.Finds u →
    ((u.port p).link = [] → exec (.outboundFrameLeft p) s = .next u.serveClaims) ∧
    ∀ f rest, (u.port p).link = f :: rest →
      let gone := u.modPort p fun r => { r with link := rest }
      let said := gone.modPort p fun r => { r with answer := none }
      (∀ a st, f = .status a st false → exec (.outboundFrameLeft p) s = .next gone.serveClaims) ∧
      (∀ a st, f = .status a st true → exec (.outboundFrameLeft p) s = .next (gone.endConnection p).serveClaims) ∧
      (∀ a o n, f = .request a o n → exec (.outboundFrameLeft p) s = .next gone.serveClaims) ∧
      (∀ a o b, f = .offer a o → (u.port p).offer = some (o, b) → exec (.outboundFrameLeft p) s =
        .next (gone.modPort p fun r => { r with offer := some (o, true) }).serveClaims) ∧
      ∀ a off bs, f = .data a off bs →
        (∀ d o, (u.port p).conn = some (.drive d) → u.op d = some o → o.conn = some p →
          ((gone.port p).slots ≠ 0 ∨ (u.port p).answer = none ∧ (u.port p).draining = false →
            (∀ r, o.cmd = some (.read r) → exec (.outboundFrameLeft p) s = .next (gone.setOp d (some { o with
              cmd := some (.read { r with sentTo := max r.sentTo (off + bs.length) }) })).serveClaims) ∧
            ((∀ r, o.cmd ≠ some (.read r)) → exec (.outboundFrameLeft p) s = .next gone.serveClaims)) ∧
          ((gone.port p).slots = 0 → (u.port p).draining = false → ∀ x, (u.port p).answer = some x →
            (x.status.reason = .none → exec (.outboundFrameLeft p) s = .next ((said.modPort p fun r =>
              { r with link := r.link ++ [.status (r.addressOf (.drive d)) x.status false] }).setOp d (some { o with
                cmd := none, idle := 0, searchIndex := if x.resets = true then 0 else o.searchIndex })).serveClaims) ∧
            ∀ k, x.status.reason = .fault k → exec (.outboundFrameLeft p) s =
              .next (said.faultInConnection d p o k x.status.detail x.status.residual x.found).serveClaims)) ∧
        (∀ d o r, (u.port p).conn = some (.drive d) → u.op d = some o → o.conn ≠ some p → (u.port p).draining = true →
          o.leaving.has p = true → o.cmd = some (.read r) →
          let counted : State :=
            gone.setOp d (some { o with cmd := some (.read { r with sentTo := max r.sentTo (off + bs.length) }) })
          ((gone.port p).slots ≠ 0 → exec (.outboundFrameLeft p) s = .next counted.serveClaims) ∧
          ((gone.port p).slots = 0 → exec (.outboundFrameLeft p) s = .next (counted.endConnection p).serveClaims)) ∧
        ((∀ d o, (u.port p).conn = some (.drive d) → u.op d = some o → o.conn ≠ some p ∧
            ((u.port p).draining = true → o.leaving.has p = true → ∀ r, o.cmd ≠ some (.read r))) →
          ((gone.port p).slots ≠ 0 → exec (.outboundFrameLeft p) s = .next gone.serveClaims) ∧
          ((gone.port p).slots = 0 → (u.port p).draining = true →
            exec (.outboundFrameLeft p) s = .next (gone.endConnection p).serveClaims) ∧
          ((gone.port p).slots = 0 → (u.port p).draining = false →
            ((u.port p).answer = none → exec (.outboundFrameLeft p) s = .next gone.serveClaims) ∧
            ∀ x, (u.port p).answer = some x →
              (∀ d, (u.port p).conn = some (.drive d) → exec (.outboundFrameLeft p) s = .next (said.modPort p fun r =>
                { r with link := r.link ++ [.status (r.addressOf (.drive d)) { x.status with disconnect := true }
                    (rest.all fun y => !y.isEnding)] }).serveClaims) ∧
              ((u.port p).conn = some .unit → exec (.outboundFrameLeft p) s = .next (said.unitStatus p x.status).serveClaims)))

/-- A mark of a ready drive: SECTOR MARK adds 1 modulo S to a known counter, INDEX MARK makes it known at 0, lowers the timer
of a hold by 1 and, where a connection waits for a command, raises its idle count, to at most 4, and its search index count,
to at most 2, which is the end of a SEARCH that waits for its ID field as the count reaches 2, or stands there (log 36); for
an operation it counts among the marks since what it has armed, and an orientation may be raised; the mark's consequences are
then due (log 4). What was armed acts on the field that starts at a byte when the mark at which its sector was reached is one
of those counted (1.1; log 6), unless an ID field of that revolution was read with a check: then only from the next INDEX MARK
on (1.3). INDEX MARK with the last record of a track passed and count remaining: END-CYL on the last head, else the READ
crosses in-line to the next head, or, where its physical target lies on another cylinder, sets its connection aside and
positions to it. From a drive NOT READY a mark is discarded (1.5, 4.1, 5.1, 5.5, 6.4, 9.5). -/
def Obligations.MarksOfADrive : Prop :=
  (∀ (s : State) (d : Drive) (o : Operation) (b : Nat), s.reaches d o b = true ↔ o.lost = false ∧ s.inTime d o b = true) ∧
  (∀ (s : State) (d : Drive) (o : Operation) (b : Nat),
    ((s.pos d).angle = none → s.inTime d o b = true) ∧
    ∀ a, (s.pos d).angle = some a → (s.inTime d o b = true ↔
      (a + (s.typeOf d).sectors - b * (s.typeOf d).sectors / (s.typeOf d).capacity) % (s.typeOf d).sectors < o.marksSince)) ∧
  ∀ (s u : State) (d : Drive), s.Finds u →
    ((u.pos d).actuator = .notReady → ∀ i : Instr, i = .sectorMark d ∨ i = .indexMark d → exec i s = .next u.serveClaims) ∧
    ((u.pos d).actuator ≠ .notReady → u.op d = none →
      ((u.pos d).angle = none → exec (.sectorMark d) s = .next ({ u with due := some d } : State).serveClaims) ∧
      (∀ a ty, (u.pos d).angle = some a → u.loadedType d = some ty → exec (.sectorMark d) s =
        .next ({ u.modPos d (fun q => { q with angle := some ((a + 1) % ty.sectors) }) with due := some d } : State).serveClaims) ∧
      (∀ x, (u.share d).hold = some x → exec (.indexMark d) s =
        .next ({ (u.modPos d (fun q => { q with angle := some 0 })).setShare d
          { u.share d with hold := some { x with timer := x.timer - 1 } } with due := some d } : State).serveClaims) ∧
      ((u.share d).hold = none → exec (.indexMark d) s =
        .next ({ u.modPos d (fun q => { q with angle := some 0 }) with due := some d } : State).serveClaims)) ∧
    ∀ o, (u.pos d).actuator ≠ .notReady → u.op d = some o →
      let past : Operation :=
        { o with marksSince := o.marksSince + 1, orient := o.orient.map fun x => { x with tested := true } }
      let counted : Operation := { past with lost := false, searchIndex := if o.rereadDue then o.searchIndex else min 2 (o.searchIndex + 1) }
      let atIndex (x : Operation) : State :=
        { (u.modPos d (fun q => { q with angle := some 0 })).setOp d (some x) with due := some d }
      (∀ a ty, (u.pos d).angle = some a → u.loadedType d = some ty → exec (.sectorMark d) s =
        .next ({ (u.modPos d (fun q => { q with angle := some ((a + 1) % ty.sectors) })).setOp d (some past) with
          due := some d } : State).serveClaims) ∧
      ((u.share d).hold = none →
        (o.conn = none → exec (.indexMark d) s = .next (atIndex past).serveClaims) ∧
        ∀ p, o.conn = some p →
          (o.cmd = none → exec (.indexMark d) s =
            .next (atIndex { counted with idle := min 4 (o.idle + 1) }).serveClaims) ∧
          (∀ f, o.cmd = some (.locate f) → exec (.indexMark d) s = .next (atIndex { counted with
            cmd := some (.locate { f with marks := f.marks + 1, waitIndex := false }) }).serveClaims) ∧
          (∀ c a w, o.cmd = some (.search c a (.id w)) →
            (o.rereadDue = false → 1 ≤ o.searchIndex → exec (.indexMark d) s = .next (atIndex { counted with
              cmd := some (.search c a .over) }).serveClaims) ∧
            (o.rereadDue = true ∨ o.searchIndex = 0 → exec (.indexMark d) s = .next (atIndex { counted with
              cmd := some (.search c a (.id (if w = .afterIndex then .next else w))) }).serveClaims)) ∧
          (∀ f, o.cmd = some (.format f) → exec (.indexMark d) s = .next (atIndex { counted with
            cmd := some (.format { f with begun := true }) }).serveClaims) ∧
          (∀ w, o.cmd = some (.write w) → exec (.indexMark d) s = .next (atIndex { counted with cmd := some (.write { w with
            seek := w.seek.map fun f => { f with marks := f.marks + 1, waitIndex := false } }) }).serveClaims) ∧
          (∀ r, o.cmd = some (.read r) →
            (r.phase = .data ∨ r.phase = .home ∨ r.phase = .done → exec (.indexMark d) s = .next (atIndex counted).serveClaims) ∧
            ∀ f, let g : Finding := { f with marks := f.marks + 1, waitIndex := false }
              (∀ n, r.phase = .find n f → exec (.indexMark d) s = .next (atIndex { counted with
                cmd := some (.read { r with phase := .find n g }) }).serveClaims) ∧
              (r.phase = .seek f → exec (.indexMark d) s = .next (atIndex { counted with
                cmd := some (.read { r with phase := .seek g }) }).serveClaims)) ∧
          ∀ r, o.cmd = some (.read r) → r.phase = .nextId .next →
            let head := o.home.head + 1
            let crossing (t : Track) (x : Translation) (c : Option Port) (ph : ReadPhase) : Operation :=
              { counted with
                rereads := 0, rereadDue := false, marksSince := 0, logical := some t, target := some x.target,
                expected := some x.expected, entry := x.entry, conn := c, cmd := some (.read { r with phase := ph }) }
            ((u.typeOf d).heads ≤ head → (u.port p).slots = 0 → (u.port p).conn = some (.drive d) →
              exec (.indexMark d) s = .next ((atIndex { counted with cmd := none, idle := 0, searchIndex := 0 }).modPort p
                fun x => { x with
                  answer := none,
                  link := x.link ++ [.status (x.addressOf (.drive d))
                    { done := true, endCyl := true, residual := o.byteCount - o.accounted } false] }).serveClaims) ∧
            (head < (u.typeOf d).heads →
              let t : Track := { cyl := o.home.cyl, head := head }
              let x := u.translate d t
              ((u.pos d).cyl = some x.target.cyl → (u.pos d).head ≠ some x.target.head → exec (.indexMark d) s =
                .next ((atIndex (crossing t x (some p) .home)).modPos d fun q =>
                  { q with head := some x.target.head, status := none }).serveClaims) ∧
              ((u.pos d).cyl ≠ some x.target.cyl → (u.port p).slots = 0 → exec (.indexMark d) s =
                .next ((((atIndex { crossing t x none (.nextId .afterIndex) with
                  idle := 0, keyCheck := false, leaving := o.leaving.set p true }).freePathOfPort
                  p).endConnection p).position d).serveClaims) ∧
              ((u.pos d).cyl ≠ some x.target.cyl → (u.port p).slots ≠ 0 → exec (.indexMark d) s =
                .next ((((atIndex { crossing t x none (.nextId .afterIndex) with
                  idle := 0, keyCheck := false, leaving := o.leaving.set p true }).freePathOfPort
                  p).modPort p fun x => { x with draining := true }).position d).serveClaims)))

/-- An answer to a motion order goes first to an order that has expired, lowering the unanswered count; with none expired
ON-CYLINDER ends the outstanding motion on its target and the operation that ordered it goes on, a RECALIBRATE command with a
pending DONE, a positioning towards its target; SEEK-INCOMPLETE, and the deadline's expiry, which raises the unanswered
count, fail it: one recovery by a recalibrate, then EQUIPMENT CHECK SEEK; a failed recalibrate is EQUIPMENT CHECK
RECALIBRATE. Where the deadline has not come yet, the timebase reaches it first, and nothing else happens on the way when no
claim stands and nothing falls due before (3.2 to 3.6, log 3). -/
def Obligations.MotionsEnd : Prop :=
  ∀ (s u : State) (d : Drive), s.Finds u →
    let ty := u.typeOf d
    let still (q : Positioner) : Positioner :=
      { q with deadline := none, motionTarget := none, owned := false, calVoid := false }
    let lost (q : Positioner) : Positioner := { still q with actuator := .uncalibrated, cyl := none }
    let recalibrating (now : Nat) (q : Positioner) : Positioner :=
      { lost q with
        actuator := .recalibrating, motionTarget := some 0, owned := true, status := none,
        deadline := some (now + (ty.settleTime + ((ty.dataCyls + ty.altCyls) * ty.stepTime + 999) / 1000 + 10)) }
    ((u.pos d).actuator ≠ .notReady → 0 < (u.pos d).unanswered → ∀ i : Instr, i = .onCylinder d ∨ i = .seekIncomplete d →
      exec i s = .next (u.modPos d fun q => { q with unanswered := q.unanswered - 1 }).serveClaims) ∧
    ((u.pos d).actuator = .seeking ∨ (u.pos d).actuator = .recalibrating → (u.pos d).unanswered = 0 →
      (u.op d = none → (u.pos d).calVoid = false → exec (.onCylinder d) s =
        .next (u.modPos d fun q => { still q with actuator := .onCylinder, cyl := q.motionTarget }).serveClaims) ∧
      (u.op d = none → (u.pos d).calVoid = true → exec (.onCylinder d) s = .next (u.modPos d lost).serveClaims) ∧
      (∀ o, u.op d = some o → o.work = .positioning → o.target.isSome = true → (u.pos d).calVoid = false →
        exec (.onCylinder d) s = .next ((u.modPos d fun q =>
          { still q with actuator := .onCylinder, cyl := q.motionTarget }).position d).serveClaims) ∧
      (∀ o, u.op d = some o → o.work = .recalibrating → (u.pos d).owned = true → (u.pos d).calVoid = false →
        u.paths = Vector.replicate 2 none →
        exec (.onCylinder d) s = .next ((u.modPos d fun q =>
          { still q with actuator := .onCylinder, cyl := q.motionTarget }).setOp d (some { o with
            work := .ended, orient := none, statusDeferred := PortSet.none,
            pending := some { status := { done := true, disconnect := true }, record := none } })).serveClaims)) ∧
    ((u.pos d).actuator = .seeking → (u.pos d).unanswered = 0 →
      (u.op d = none → exec (.seekIncomplete d) s = .next (u.modPos d lost).serveClaims) ∧
      ∀ o, u.op d = some o → (u.pos d).owned = true → o.alt = none →
        (o.recovery = false → exec (.seekIncomplete d) s = .next ((u.setOp d (some { o with
          recovery := true, work := .positioning, orient := none })).modPos d (recalibrating u.now)).serveClaims) ∧
        (o.recovery = true → exec (.seekIncomplete d) s =
          .next ((u.modPos d lost).pendingFault d .equipmentCheck .seek none).serveClaims)) ∧
    (∀ o, (u.pos d).actuator = .recalibrating → (u.pos d).unanswered = 0 → u.op d = some o → (u.pos d).owned = true →
      o.alt = none → exec (.seekIncomplete d) s =
        .next ((u.modPos d lost).pendingFault d .equipmentCheck .recalibrate none).serveClaims) ∧
    ((u.pos d).deadline = none → exec (.seekDeadlineExpiry d) s = .next u.serveClaims) ∧
    ∀ e, (u.pos d).deadline = some e → (u.pos d).actuator = .seeking →
      let counted (f : Positioner → Positioner) (q : Positioner) : Positioner :=
        f { q with unanswered := min 2 (q.unanswered + 1) }
      let recovering (o : Operation) (v : State) : State := (v.setOp d (some { o with
        recovery := true, work := .positioning, orient := none })).modPos d (counted (recalibrating v.now))
      (e ≤ u.now →
        (u.op d = none → exec (.seekDeadlineExpiry d) s = .next (u.modPos d (counted lost)).serveClaims) ∧
        ∀ o, u.op d = some o → (u.pos d).owned = true → o.alt = none → o.recovery = false → (u.pos d).unanswered = 0 →
          exec (.seekDeadlineExpiry d) s = .next (recovering o u).serveClaims) ∧
      (u.now < e → u.Quiet → u.due = none → (∀ d' x, d' ≠ d → (u.pos d').deadline = some x → e < x) →
        (∀ p x, (u.port p).idleTimer = some x → e < x) →
        let v : State := { u with now := e }
        (u.op d = none → (v.modPos d (counted lost)).Quiet →
          exec (.seekDeadlineExpiry d) s = .next (v.modPos d (counted lost))) ∧
        ∀ o, u.op d = some o → (u.pos d).owned = true → o.alt = none → o.recovery = false → (u.pos d).unanswered = 0 →
          (recovering o v).Quiet → exec (.seekDeadlineExpiry d) s = .next (recovering o v))

/-- READY LOST gives up the motion, the cylinder, the head, the counter and the write-protect setting, clears reservation and
hold, empties the owed set, frees the drive's paths, and leaves a disconnected drive command's operation with a pending NOT
READY that no port has deferred (deduced, log 29), with the bytes sent of a READ set aside counted in its residual (deduced, log
72). FAULT NOT READY goes to the port connected with the drive, with the
residual of its command, the operation ending as it is produced (deduced, log 1), also in place of the
answer that a stopped write still waits to give (model's choice, log 67), or with residual 0 where its connection
holds no operation (log 49). An alternate operation is aborted: its pending alternate is cleared, or its fresh entry removed,
and it keeps a status NOT READY with its result. A port that was owed is told by DEVICE-FREE and then, where the mask enables
it to a port IDLE or CONNECTED as the event finds it (deduced, log 23), by STATE-CHANGE (model's choice, log 46); a port with the drive's operation has no offer beside it (8.2). READY
GAINED
makes the drive UNCALIBRATED with head 0, its spare entries STALE and its suspect entries gone, and posts STATE-CHANGE
likewise. WRITE-PROTECT CHANGE sets its setting (3.7, 5.12, 6.1, 7.6, 7.7, 9.6, 9.7). -/
def Obligations.ReadyAndWriteProtectChange : Prop :=
  (∀ o : Operation, (∀ r, o.cmd = some (.read r) → o.stopResidual = o.byteCount - max o.accounted r.sentTo) ∧
    (∀ w, o.cmd = some (.write w) → o.stopResidual = o.byteCount - w.bytes.length) ∧
    ((∀ r, o.cmd ≠ some (.read r)) → (∀ w, o.cmd ≠ some (.write w)) → o.stopResidual = 0) ∧
    ((∃ r, o.cmd = some (.read r)) ∨ (∃ w, o.cmd = some (.write w)) → o.pendingResidual = o.byteCount - o.accounted) ∧
    ((∀ r, o.cmd ≠ some (.read r)) → (∀ w, o.cmd ≠ some (.write w)) → o.pendingResidual = 0)) ∧
  ∀ (s u : State) (d : Drive), s.Finds u →
    ((u.pos d).actuator = .notReady → ∀ i : Instr, i = .readyLost d ∨ (∃ on, i = .writeProtectChange d on) →
      exec i s = .next u.serveClaims) ∧
    ((u.pos d).actuator ≠ .notReady →
      (∀ on, exec (.writeProtectChange d on) s = .next (u.modPos d fun q => { q with writeProtect := on }).serveClaims) ∧
      exec (.readyGained d) s = .next u.serveClaims ∧
      ∃ v : State, exec (.readyLost d) s = .next v.serveClaims ∧
        v.pos d = { actuator := .notReady, cyl := none, head := none, motionTarget := none, owned := false, deadline := none,
                    unanswered := 0, calVoid := false, status := none, angle := none, writeProtect := false } ∧
        (∀ e, e ≠ d → v.pos e = u.pos e ∧ v.share e = u.share e) ∧
        v.share d = { owner := none, hold := none, owed := Vector.replicate 4 none } ∧
        (∀ n x, v.path n = some x → x.drive ≠ d) ∧ v.finish d = none ∧
        (∀ o, u.op d = some o → o.conn = none → o.alt = none → ∃ o', v.op d = some o' ∧ o'.work = .ended ∧ o'.orient = none ∧
          o'.statusDeferred = PortSet.none ∧ o'.issuer = o.issuer ∧ o'.group = o.group ∧
          o'.pending = some { status := { fault := true, disconnect := true, reason := .fault .notReady,
                                          residual := o.stopResidual }, record := none }) ∧
        (∀ o, u.op d = some o → o.conn.isSome = true → v.op d = none) ∧ (u.op d = none → v.op d = none) ∧
        (∀ o p, u.op d = some o → o.conn = some p → o.isClosing = false → (u.port p).state = .connected →
          (u.port p).conn = some (.drive d) → (u.port p).awaiting = false → (∀ f, u.finish d = some f → f.port ≠ some p) →
          (v.port p).link = dropData (u.port p).link ++ [.status ((u.port p).addressOf (.drive d))
            { fault := true, disconnect := true, reason := .fault .notReady, residual := o.stopResidual } true]) ∧
        (∀ p, (u.port p).conn = some (.drive d) → (∀ o, u.op d = some o → o.conn ≠ some p) → (u.port p).draining = false →
          (u.port p).ending = false → (u.port p).offer = none →
          (v.port p).link = dropData (u.port p).link ++ [.status ((u.port p).addressOf (.drive d))
            { fault := true, disconnect := true, reason := .fault .notReady } true] ∧
          (v.port p).held = [] ∧ (v.port p).requests = [] ∧ (v.port p).answer = none) ∧
        (∀ o a, u.op d = some o → o.conn = none → o.alt = some a →
          v.spareMap = (if a.fresh then u.spareMap.filter fun e => !(decide (e.drive = d) && decide (e.home = o.home))
            else u.spareMap.map fun e => if e.drive = d ∧ e.home = o.home then { e with pending := none } else e) ∧
          ∃ res : AltResult, v.lastAlt = some res ∧ res.drive = d ∧ res.home = o.home ∧ res.outcome = .fault .notReady .none ∧
            res.marked = a.marked ∧ res.retired = a.retired ∧
            (a.issuerHeld = true → ∃ o', v.op d = some o' ∧ o'.work = .ended ∧ o'.statusDeferred = PortSet.none ∧
              o'.pending = some { status := { fault := true, disconnect := true, reason := .fault .notReady, alt := some res },
                                  record := none })) ∧
        (∀ p, (u.port p).state = .disabled → (u.port p).offer = none → (∀ o, u.op d = some o → o.conn ≠ some p) →
          v.queue p = u.queue p) ∧
        ∀ p, (u.port p).state ≠ .disabled → (∀ o, u.op d = some o → o.conn = some p → (u.port p).offer = none) →
          (v.queue p).notices =
          let freed := if ((u.share d).owes p).isSome = true
            then (enterQueue (u.queue p).notices (u.port p).offersNotice (.deviceFree d)).1 else (u.queue p).notices
          if ((u.port p).state = .idle ∨ (u.port p).state = .connected) ∧ (u.port p).maskStateChange = true
            then (enterQueue freed (u.port p).offersNotice (.stateChange d)).1 else freed) ∧
    ((u.pos d).actuator = .notReady → ∃ v : State, exec (.readyGained d) s = .next v.serveClaims ∧
      v.pos d = { u.pos d with actuator := .uncalibrated, cyl := none, head := some 0, status := none, angle := none,
                               unanswered := 0 } ∧
      v.spareMap = u.spareMap.map (fun e => if e.drive = d then { e with active := false } else e) ∧
      v.suspects = u.suspects.filter (fun e => decide (e.drive ≠ d)) ∧ v.ops = u.ops ∧ v.sharing = u.sharing ∧
      (∀ e, e ≠ d → v.pos e = u.pos e) ∧
      ∀ p, v.queue p = if ((u.port p).state = .idle ∨ (u.port p).state = .connected) ∧ (u.port p).maskStateChange = true
        then { u.queue p with notices := (enterQueue (u.queue p).notices (u.port p).offersNotice (.stateChange d)).1 }
        else u.queue p)

/-- HOME FIELD READ, where a read of it was armed in time. Under an INTERNAL grant, for a drive command: good at the selected
track, the status takes the condition, the path is FREE, and the verdict decides: verified it waits for its host, a STALE
entry of a track expected and found GOOD being deleted; in conflict it keeps a pending SPARE CONFLICT, ALTERNATE-CONDITION
making the entry STALE; and a learned pointer becomes its target in the map and the operation. Good elsewhere: a misposition,
whose recovery is the operation's one, else EQUIPMENT CHECK MISPOSITION. A field check: reread within the budget, else HOME
CHECK, the first one on the target track an update of the suspect list. An alternate operation takes the finding by its step.
In-line in a span, verified, the READ goes on to the next record. Where no read is armed, or not in time, the event changes
nothing (1.1, 1.6, 3.5, 5.5, 5.8, 5.12, 6.3, 6.4, 7.1). A pending fault is kept with its fault record, the path FREE (5.12). -/
def Obligations.HomeFieldsAreJudged : Prop :=
  (∀ (s : State) (d : Drive) (o : Operation) (k : FaultKind) (det : Detail) (found : Option Condition) (n : Nat),
    s.op d = some o →
    ((∃ r, o.cmd = some (.read r)) ∨ (∃ w, o.cmd = some (.write w)) → n = o.byteCount - o.accounted) →
    ((∀ r, o.cmd ≠ some (.read r)) → (∀ w, o.cmd ≠ some (.write w)) → n = 0) →
    s.pendingFault d k det found = (s.setOp d (some { o with
      work := .ended, orient := none, statusDeferred := PortSet.none,
      pending := some {
        status := { fault := true, disconnect := true, reason := .fault k, detail := det, residual := n },
        record := some { kind := some k, detail := det, drive := d, logical := o.logical, physical := o.target,
                         record := (o.current.map fun r => r.id.number).getD o.record, retries := o.retries,
                         miss := o.miss, residual := n, found := found } } })).freeInternalPath d) ∧
  ∀ (s u : State) (d : Drive), s.Finds u → (u.pos d).actuator ≠ .notReady →
    (u.op d = none → ∀ c, exec (.homeFieldRead d c) s = .next u.serveClaims) ∧
    (∀ o c, u.op d = some o → u.inTime d o 0 = false → exec (.homeFieldRead d c) s = .next u.serveClaims) ∧
    (∀ o c, u.op d = some o → (o.work ≠ .readHome ∨ o.orient ≠ none) → (o.conn = none ∨ ∀ r, o.cmd ≠ some (.read r)) →
      exec (.homeFieldRead d c) s = .next u.serveClaims) ∧
    ∀ o, u.op d = some o → u.inTime d o 0 = true →
      let freed (st : Option Condition) : State := (u.modPos d fun q => { q with status := st }).freeInternalPath d
      let placed : Prop := (u.record d).configured = true ∧ o.home.cyl < (u.typeOf d).dataCyls ∧ o.home.head < (u.typeOf d).heads
      (o.work = .readHome → o.orient = none → o.alt = none →
        (∀ f, (u.pos d).selected = some f.address →
          let v := freed (some f.condition)
          let waits : Operation := { o with
            rereads := 0, rereadDue := false, work := .reconnect,
            orient := some { external := true, sector := if o.reconnected then 0 else o.sector, req := .dormant,
                             windowOpen := false, later := false, deferred := PortSet.none, tested := false } }
          (v.verdict d o.home (o.expected.getD .good) f.condition = .verified →
            (o.expected ≠ some .good ∨ (∀ e, u.entryFor d o.home = some e → e.active = true) →
              exec (.homeFieldRead d (some f)) s = .next (v.setOp d (some waits)).serveClaims) ∧
            (∀ e, o.expected = some .good → u.entryFor d o.home = some e → e.active = false →
              exec (.homeFieldRead d (some f)) s = .next (({ v with
                spareMap := v.spareMap.filter fun e => !(decide (e.drive = d) && decide (e.home = o.home)) } : State).setOp d
                  (some waits)).serveClaims)) ∧
          (∀ det, v.verdict d o.home (o.expected.getD .good) f.condition = .conflict det → det ≠ .alternateCondition →
            exec (.homeFieldRead d (some f)) s =
              .next (v.pendingFault d .spareConflict det (some f.condition)).serveClaims) ∧
          (∀ x, v.verdict d o.home (o.expected.getD .good) f.condition = .conflict .alternateCondition → o.entry = some x →
            exec (.homeFieldRead d (some f)) s = .next (({ v with
              spareMap := v.spareMap.map fun e => if e.drive = d ∧ e.home = x then { e with active := false } else e } :
              State).pendingFault d .spareConflict .alternateCondition (some f.condition)).serveClaims) ∧
          (∀ p, v.verdict d o.home (o.expected.getD .good) f.condition = .learn p → placed →
            exec (.homeFieldRead d (some f)) s = .next (((v.learn d o.home p).setOp d (some { o with
              target := some p, expected := some (.alternate o.home),
              entry := ((v.learn d o.home p).entryFor d o.home).map SpareEntry.home })).reposition d p).serveClaims)) ∧
        (∀ f, (u.pos d).selected ≠ some f.address →
          (o.recovery = false → (u.pos d).unanswered < 2 →
            exec (.homeFieldRead d (some f)) s = .next ((((freed none).setOp d (some { o with
              recovery := true, work := .positioning })).modPos d fun q =>
                { q with
                  actuator := .recalibrating, cyl := none, motionTarget := some 0, owned := true, status := none,
                  deadline := some (u.now + (u.typeOf d).motionTime ((u.typeOf d).dataCyls + (u.typeOf d).altCyls)) })
              ).serveClaims) ∧
          (o.recovery = true → exec (.homeFieldRead d (some f)) s = .next (((freed none).modPos d fun q =>
            { q with actuator := .uncalibrated, cyl := none, deadline := none }).pendingFault d .equipmentCheck .misposition
              none).serveClaims)) ∧
        (∀ t, o.target = some t → t ∈ o.reported →
          (o.rereads < (u.typeOf d).retryBudget → exec (.homeFieldRead d none) s =
            .next ((u.modPos d fun q => { q with status := none }).setOp d (some { o with
              rereads := o.rereads + 1, retries := min 255 (o.retries + 1), rereadDue := true, marksSince := 0 })).serveClaims) ∧
          ((u.typeOf d).retryBudget ≤ o.rereads → exec (.homeFieldRead d none) s =
            .next ((freed none).pendingFault d .homeCheck .none none).serveClaims)) ∧
        (∀ t l, o.target = some t → o.logical = some l → t ∉ o.reported →
          let seen : Operation := { o with reported := t :: o.reported }
          let told : State := ((u.modPos d fun q => { q with status := none }).setOp d (some seen)).suspectUpdate d t l .homeCheck
          (o.rereads < (u.typeOf d).retryBudget → exec (.homeFieldRead d none) s =
            .next (told.setOp d (some { seen with
              rereads := o.rereads + 1, retries := min 255 (o.retries + 1), rereadDue := true, marksSince := 0 })).serveClaims) ∧
          ((u.typeOf d).retryBudget ≤ o.rereads → exec (.homeFieldRead d none) s =
            .next ((told.freeInternalPath d).pendingFault d .homeCheck .none none).serveClaims))) ∧
      (∀ a, o.work = .readHome → o.orient = none → o.alt = some a →
        (∀ f, (u.pos d).selected = some f.address → exec (.homeFieldRead d (some f)) s =
          .next ((freed (some f.condition)).altHomeRead d (some f.condition)).serveClaims) ∧
        exec (.homeFieldRead d none) s = .next ((freed none).altHomeRead d none).serveClaims) ∧
      ∀ p r f, o.work ≠ .readHome → o.conn = some p → o.cmd = some (.read r) → r.phase = .home →
        (u.pos d).selected = some f.address →
        let v : State := u.modPos d fun q => { q with status := some f.condition }
        (v.verdict d o.home (o.expected.getD .good) f.condition = .verified →
          (o.expected ≠ some .good ∨ ∀ e, u.entryFor d o.home = some e → e.active = true) →
          exec (.homeFieldRead d (some f)) s = .next (v.setOp d (some { o with
            rereads := 0, rereadDue := false, cmd := some (.read { r with phase := .nextId .next }) })).serveClaims) ∧
        (∀ det, v.verdict d o.home (o.expected.getD .good) f.condition = .conflict det → det ≠ .alternateCondition →
          (u.port p).slots = 0 → (u.port p).conn = some (.drive d) →
          exec (.homeFieldRead d (some f)) s = .next ((v.modPort p fun r => { r with answer := none }).faultInConnection d p o
            .spareConflict det (o.byteCount - o.accounted) (some f.condition)).serveClaims) ∧
        ∀ x, v.verdict d o.home (o.expected.getD .good) f.condition = .learn x → placed → (u.port p).slots = 0 →
          let t : State := v.learn d o.home x
          exec (.homeFieldRead d (some f)) s = .next ((((t.setOp d (some { o with
            target := some x, expected := some (.alternate o.home), entry := (t.entryFor d o.home).map SpareEntry.home,
            cmd := some (.read { r with phase := .nextId .afterIndex }), conn := none, idle := 0, keyCheck := false,
            leaving := o.leaving.set p true })).freePathOfPort p).endConnection p).position d).serveClaims

/-- The fields of a connection, each where it was read in time, an ID field by the start of its record (1.1, log 6), and where
no ID field of the revolution was read with a check before it (1.3); another is let pass. ID FIELD READ in LOCATE's search:
the record sought becomes current and the LOCATE is DONE, another passes, a check is noted and the search goes on after the
next INDEX MARK. In a SEARCH the record awaited becomes current, a key of length 0 compared at once; in a spanning READ it
becomes current, its data field next; a check there is reread, of that field alone, within the budget, else ID CHECK. The next
record is the one whose ID field passes next after the current one's (log 50). A command resumed after a misposition finds the
record at which it stopped, by place and content, noting a check (log 53), and takes the next ID field (log 13); a READ or
WRITE that waited for the current record's own field takes that (log 62). A check at an ID field not awaited, or before the
home field of a track crossed to in-line, is neither reread nor noted, and a reread of that home field leaves the ID fields
armed (log 63). An ID field of another track is a misposition: the command is kept to be resumed, the connection set aside,
the positioner recovers. A key read is compared, DONE with MATCH when the condition holds. DATA FIELD READ of a READ, a part
of the field or its rest, placed by the current record (of another track too: log 74): its bytes enter the buffer in frames of
256 bytes with their offsets; good, the READ ends, DONE waiting for the buffer, or with span and count left goes on; a frame
formed with both slots full is an OVERRUN, whose residual counts the bytes up to the farthest frame's end in the buffer as
sent (log 61); a data check is reread within the budget, else DATA CHECK, the first on the target track an update of the
suspect list, before the operation's end (log 60) (3.5, 5.2 to 5.5, 5.8, 5.9, 6.4). Logs 13, 53, 60 to 63 and 74: the model's
choice. -/
def Obligations.FieldsOfAConnection : Prop :=
  (∀ (o : Operation) (g : Finding) (c : SearchCond) (a : List Byte) (w : Awaited) (r : ReadCmd),
    let start : Finding := { marks := 0, noted := false, waitIndex := true }
    o.resumed (.locate g) = .locate { start with noted := g.noted } ∧
    (∀ ph, ph = .id w ∨ ph = .key → o.resumed (.search c a ph) = .search c a (.find o.currentHere start)) ∧
    (r.phase = .nextId w ∨ r.phase = .home → o.resumed (.read r) =
      .read { r with phase := .find o.currentHere start, got := 0, formed := 0, forming := [] }) ∧
    (∀ ph, r.phase = .data ∧ ph = .seek start ∨ r.phase = .seek g ∧ ph = .seek { start with noted := g.noted } →
      o.resumed (.read r) = .read { r with phase := ph, got := 0, formed := 0, forming := [] }) ∧
    (∀ (y : WriteCmd) n, y.seek = none ∧ n = start ∨ y.seek = some g ∧ n = { start with noted := g.noted } →
      o.resumed (.write y) = .write { y with bytes := [], toAsk := [(0, y.need)], seek := some n }) ∧
    (∀ x t, o.current = some x → o.logical = some t → o.currentHere = if x.id.address = t then some x else none) ∧
    (o.current = none → o.currentHere = none)) ∧
  ∀ (s u : State) (d : Drive) (p : Port) (o : Operation), s.Finds u → (u.pos d).actuator ≠ .notReady → u.op d = some o →
    o.conn = some p →
    let done (v : State) (o' : Operation) (st : Status) : State := (v.sendStatus p (.drive d) st false).setOp d
      (some { o' with cmd := none, idle := 0 })
    let keyTimely : Prop := o.lost = false ∧ ∃ x, o.current = some x ∧ u.inTime d o (x.start + 28) = true
    let homeAgain : Prop := o.rereadDue = true ∧ ∃ r, o.cmd = some (.read r) ∧ r.phase = .home
    (∀ q b c, u.inTime d o q = false ∧ ¬ homeAgain ∨ o.lost = true →
      exec (.idFieldRead d ⟨q, b, c⟩) s = .next u.serveClaims) ∧
    (∀ q b, u.inTime d o q = true ∨ homeAgain → o.lost = false →
      (∀ g c, o.cmd = some (.locate g) → g.waitIndex = true → exec (.idFieldRead d ⟨q, b, c⟩) s = .next u.serveClaims) ∧
      (∀ g, o.cmd = some (.locate g) → g.waitIndex = false →
        (∀ f, o.logical = some f.address →
          (f.number = o.record → exec (.idFieldRead d ⟨q, b, some f⟩) s = .next (done u
            { o with current := some { start := q, id := f }, rereads := 0, rereadDue := false, searchIndex := 0 }
            { done := true }).serveClaims) ∧
          (f.number ≠ o.record → exec (.idFieldRead d ⟨q, b, some f⟩) s = .next u.serveClaims)) ∧
        ∀ t, o.target = some t → t ∈ o.reported → exec (.idFieldRead d ⟨q, b, none⟩) s = .next (u.setOp d (some { o with
          cmd := some (.locate { g with noted := true, waitIndex := true }) })).serveClaims) ∧
      (∀ c a w, o.cmd = some (.search c a (.id w)) → w = .next ∨ w = .after b ∨ w = .place q →
        (∀ f, o.logical = some f.address →
          (f.keyLength ≠ 0 → exec (.idFieldRead d ⟨q, b, some f⟩) s = .next (u.setOp d (some { o with
            current := some { start := q, id := f }, rereads := 0, rereadDue := false, cmd := some (.search c a .key) })).serveClaims) ∧
          (f.keyLength = 0 → exec (.idFieldRead d ⟨q, b, some f⟩) s = .next (done u { o with
            current := some { start := q, id := f }, rereads := 0, rereadDue := false, keyCheck := true,
            searchIndex := if keyMeets c [] a then 0 else o.searchIndex }
            { done := true, matched := keyMeets c [] a }).serveClaims)) ∧
        ∀ t, o.target = some t → t ∈ o.reported →
          (o.rereads < (u.typeOf d).retryBudget → exec (.idFieldRead d ⟨q, b, none⟩) s = .next (u.setOp d (some { o with
            rereads := o.rereads + 1, retries := min 255 (o.retries + 1), rereadDue := true, marksSince := 0, lost := true,
            cmd := some (.search c a (.id (.place q))) })).serveClaims) ∧
          ((u.typeOf d).retryBudget ≤ o.rereads → (u.port p).slots = 0 → (u.port p).conn = some (.drive d) →
            exec (.idFieldRead d ⟨q, b, none⟩) s = .next ((u.modPort p fun r => { r with answer := none }).faultInConnection d p o
              .idCheck .none 0 none).serveClaims)) ∧
      (∀ c a x, o.cmd = some (.search c a (.id .afterIndex)) → exec (.idFieldRead d ⟨q, b, x⟩) s = .next u.serveClaims) ∧
      -- an ID field that is not the one awaited, or passes while the field of the current record, or the home field
      -- of the track crossed to in-line, is waited for
      ((∃ w, ((∃ c a, o.cmd = some (.search c a (.id w))) ∨ ∃ r, o.cmd = some (.read r) ∧ r.phase = .nextId w) ∧
            ((∃ k, w = .after k ∧ k ≠ b) ∨ ∃ k, w = .place k ∧ k ≠ q)) ∨
          (∃ r, o.cmd = some (.read r) ∧ (r.phase = .data ∨ r.phase = .home)) ∨
          (∃ y, o.cmd = some (.write y) ∧ y.seek = none ∧ y.begun = false) →
        (∀ f, o.logical = some f.address → exec (.idFieldRead d ⟨q, b, some f⟩) s = .next u.serveClaims) ∧
        (∀ t, o.target = some t → t ∈ o.reported → exec (.idFieldRead d ⟨q, b, none⟩) s =
          .next (u.setOp d (some { o with lost := true })).serveClaims) ∧
        ∀ t l, o.target = some t → o.logical = some l → t ∉ o.reported → exec (.idFieldRead d ⟨q, b, none⟩) s =
          .next (((u.setOp d (some { o with reported := t :: o.reported })).suspectUpdate d t l .idCheck).setOp d
            (some { o with reported := t :: o.reported, lost := true })).serveClaims) ∧
      -- a READ or WRITE that finds the current record again
      (∀ g, g.waitIndex = false → ∀ at' : Finding → Cmd, ∀ found : Cmd,
        (∃ r, o.cmd = some (.read r) ∧ r.phase = .seek g ∧ at' = (fun k => .read { r with phase := .seek k }) ∧
            found = .read { r with phase := .data, got := 0, formed := 0, forming := [] }) ∨
          (∃ y, o.cmd = some (.write y) ∧ y.seek = some g ∧ at' = (fun k => .write { y with seek := some k }) ∧
            found = .write { y with seek := none }) →
        (∀ f, o.logical = some f.address →
          (o.current = some { start := q, id := f } → exec (.idFieldRead d ⟨q, b, some f⟩) s =
            .next (u.setOp d (some { o with cmd := some found })).serveClaims) ∧
          (o.current ≠ some { start := q, id := f } → exec (.idFieldRead d ⟨q, b, some f⟩) s = .next u.serveClaims)) ∧
        ∀ t, o.target = some t → t ∈ o.reported → exec (.idFieldRead d ⟨q, b, none⟩) s = .next (u.setOp d
          (some { o with cmd := some (at' { g with noted := true, waitIndex := true }) })).serveClaims) ∧
      (∀ g x, g.waitIndex = true → (∃ r, o.cmd = some (.read r) ∧ r.phase = .seek g) ∨
          (∃ y, o.cmd = some (.write y) ∧ y.seek = some g) →
        exec (.idFieldRead d ⟨q, b, x⟩) s = .next u.serveClaims) ∧
      (∀ c a x, o.cmd = some (.search c a .over) → exec (.idFieldRead d ⟨q, b, x⟩) s = .next u.serveClaims) ∧
      (∀ c a n g f, o.cmd = some (.search c a (.find n g)) → g.waitIndex = false → o.logical = some f.address →
        (n = some { start := q, id := f } → exec (.idFieldRead d ⟨q, b, some f⟩) s = .next (u.setOp d (some { o with
          cmd := some (.search c a (.id .next)) })).serveClaims) ∧
        (∀ x, n = some x → x ≠ { start := q, id := f } → exec (.idFieldRead d ⟨q, b, some f⟩) s = .next u.serveClaims) ∧
        (∀ t, o.target = some t → t ∈ o.reported → exec (.idFieldRead d ⟨q, b, none⟩) s = .next (u.setOp d (some { o with
          cmd := some (.search c a (.find n { g with noted := true, waitIndex := true })) })).serveClaims) ∧
        (n = none → f.keyLength ≠ 0 → exec (.idFieldRead d ⟨q, b, some f⟩) s = .next (u.setOp d (some { o with
          current := some { start := q, id := f }, rereads := 0, rereadDue := false, cmd := some (.search c a .key) })).serveClaims)) ∧
      (∀ r w, o.cmd = some (.read r) → r.phase = .nextId w → w = .next ∨ w = .after b ∨ w = .place q →
        (∀ f, o.logical = some f.address → exec (.idFieldRead d ⟨q, b, some f⟩) s = .next (u.setOp d (some { o with
          current := some { start := q, id := f }, rereads := 0, rereadDue := false,
          cmd := some (.read { r with phase := .data, got := 0, formed := 0, forming := [] }) })).serveClaims) ∧
        ∀ t, o.target = some t → t ∈ o.reported →
          (o.rereads < (u.typeOf d).retryBudget → exec (.idFieldRead d ⟨q, b, none⟩) s = .next (u.setOp d (some { o with
            rereads := o.rereads + 1, retries := min 255 (o.retries + 1), rereadDue := true, marksSince := 0, lost := true,
            cmd := some (.read { r with phase := .nextId (.place q) }) })).serveClaims) ∧
          ((u.typeOf d).retryBudget ≤ o.rereads → (u.port p).slots ≠ 0 →
            exec (.idFieldRead d ⟨q, b, none⟩) s = .next ((u.setOp d (some { o with
              lost := true, cmd := some (.read { r with phase := .done }) })).modPort p fun x => { x with
                answer := some { status := { fault := true, reason := .fault .idCheck, residual := o.byteCount - o.accounted },
                                 found := none, resets := false } }).serveClaims)) ∧
      ∀ c f, o.cmd = some c →
        ((∃ g, c = .locate g ∧ g.waitIndex = false) ∨
          (∃ k a w, c = .search k a (.id w) ∧ w ≠ .afterIndex) ∨
          (∃ k a n g, c = .search k a (.find n g) ∧ g.waitIndex = false) ∨
          (∃ r w, c = .read r ∧ r.phase = .nextId w ∧ w ≠ .afterIndex) ∨
          (∃ r n g, c = .read r ∧ r.phase = .find n g ∧ g.waitIndex = false) ∨
          (∃ r, c = .read r ∧ (r.phase = .data ∨ r.phase = .home ∨ ∃ g, r.phase = .seek g ∧ g.waitIndex = false)) ∨
          (∃ y, c = .write y ∧ (y.seek = none ∧ y.begun = false ∨ ∃ g, y.seek = some g ∧ g.waitIndex = false))) →
        o.logical ≠ some f.address → o.recovery = false → (u.pos d).unanswered < 2 →
        let kept : State := (u.setOp d (some { o with
          rereads := 0, rereadDue := false, cmd := some (o.resumed c), conn := none, idle := 0, keyCheck := false,
          leaving := o.leaving.set p true })).freePathOfPort p
        let aside : State := if (u.port p).slots = 0 then kept.endConnection p
          else kept.modPort p fun r => { r with draining := true }
        exec (.idFieldRead d ⟨q, b, some f⟩) s = .next ((aside.modOp d fun x =>
          { x with recovery := true, work := .positioning, orient := none }).modPos d fun x =>
            { x with
              actuator := .recalibrating, cyl := none, motionTarget := some 0, owned := true, status := none,
              deadline := some (u.now + (u.typeOf d).motionTime ((u.typeOf d).dataCyls + (u.typeOf d).altCyls)) }).serveClaims) ∧
    (∀ c a key, o.cmd = some (.search c a .key) →
      (keyTimely → exec (.keyFieldRead d key) s = .next (done u { o with
        keyCheck := true, searchIndex := if keyMeets c key a then 0 else o.searchIndex }
        { done := true, matched := keyMeets c key a }).serveClaims) ∧
      (¬ keyTimely → exec (.keyFieldRead d key) s = .next u.serveClaims)) ∧
    (o.cmd = none → (∀ key, exec (.keyFieldRead d key) s = .next u.serveClaims) ∧
      ∀ bs, (o.keyCheck = false → ∀ ends good, exec (.dataFieldRead d bs ends good) s = .next u.serveClaims) ∧
        (o.keyCheck = true → exec (.dataFieldRead d bs true true) s =
          .next (u.setOp d (some { o with keyCheck := false })).serveClaims) ∧
        ∀ t l, o.keyCheck = true → o.target = some t → o.logical = some l → t ∉ o.reported →
          exec (.dataFieldRead d bs true false) s = .next ((u.setOp d (some { o with
            keyCheck := false, reported := t :: o.reported })).suspectUpdate d t l .dataCheck).serveClaims) ∧
    ∀ (r : ReadCmd) (x : RecordAt) (bs : List Byte), o.cmd = some (.read r) → r.phase = .data → o.current = some x →
      let want := min (o.byteCount - o.accounted) x.id.dataLength
      let got := r.got + bs.length
      let mine := r.forming ++ bs.take (want - r.got)
      (o.keyCheck = false → u.inTime d o (x.start + 28 + x.id.keyLength) = false ∨ o.lost = true →
        ∀ ends good, exec (.dataFieldRead d bs ends good) s = .next u.serveClaims) ∧
      -- the bytes cut into the frames fs, of 256 bytes but for the one that ends the field's transfer, and what is still formed
      ∀ (fs : List (List Byte)) (still : List Byte), u.inTime d o (x.start + 28 + x.id.keyLength) = true → o.lost = false →
        (u.port p).held = [] →
        mine = fs.flatten ++ still →
        (if want ≤ got then still = [] ∧ (∀ f ∈ fs, f ≠ [] ∧ f.length ≤ 256) ∧ ∀ f ∈ fs.dropLast, f.length = 256
          else still.length < 256 ∧ ∀ f ∈ fs, f.length = 256) →
        let framed (fs : List (List Byte)) : State := u.modPort p fun y =>
          { y with link := y.link ++ (fs.mapIdx fun n f =>
              OutFrame.data (y.addressOf (.drive d)) (o.accounted + r.formed + 256 * n) f) }
        let v := framed fs
        let passed : ReadCmd := { r with got := got, formed := r.formed + fs.flatten.length, forming := still }
        let reads (o' : Operation) (r' : ReadCmd) : Operation :=
          { o' with keyCheck := false, rereadDue := false, cmd := some (.read r') }
        let failed (k : FaultKind) (counted : Nat) : Status :=
          { fault := true, reason := .fault k, detail := .read, residual := o.byteCount - counted }
        let waits (w : State) (st : Status) (resets : Bool) : State := w.modPort p fun y =>
          { y with answer := some { status := st, found := none, resets := resets } }
        ((u.port p).slots + fs.length ≤ 2 →
          (∀ good, exec (.dataFieldRead d bs false good) s = .next (v.setOp d (some (reads o passed))).serveClaims) ∧
          (got = x.id.dataLength →
            let ended : Operation := { reads o { passed with phase := .done } with rereads := 0, accounted := o.accounted + want }
            let st : Status := { done := true, residual := o.byteCount - (o.accounted + want) }
            (r.span = true → o.accounted + want < o.byteCount → exec (.dataFieldRead d bs true true) s =
              .next (v.setOp d (some { ended with cmd := some (.read { passed with phase := .nextId .next }) })).serveClaims) ∧
            (r.span = false ∨ o.byteCount ≤ o.accounted + want →
              ((v.port p).slots ≠ 0 → exec (.dataFieldRead d bs true true) s =
                .next (waits (v.setOp d (some ended)) st true).serveClaims) ∧
              ((v.port p).slots = 0 → (v.port p).conn = some (.drive d) → exec (.dataFieldRead d bs true true) s =
                .next (((v.modPort p fun y => { y with answer := none }).sendStatus p (.drive d) st false).setOp d
                  (some { ended with cmd := none, idle := 0, searchIndex := 0 })).serveClaims))) ∧
          -- a data check: `seen` and `w` are the operation and the unit once it is reported
          ∀ (seen : Operation) (w : State),
            ((∀ t, o.target = some t → t ∈ o.reported) → seen = o ∧ w = v) →
            (∀ t l, o.target = some t → o.logical = some l → t ∉ o.reported → seen = { o with reported := t :: o.reported } ∧
              w = (v.setOp d (some (reads seen passed))).suspectUpdate d t l .dataCheck) →
            (o.target = none ∨ o.logical ≠ none) →
            (o.rereads < (u.typeOf d).retryBudget → exec (.dataFieldRead d bs true false) s =
              .next (w.setOp d (some { seen with
                keyCheck := false, rereads := o.rereads + 1, retries := min 255 (o.retries + 1), rereadDue := true,
                marksSince := 0, cmd := some (.read { r with got := 0, formed := 0, forming := [] }) })).serveClaims) ∧
            ((u.typeOf d).retryBudget ≤ o.rereads → (v.port p).slots ≠ 0 → exec (.dataFieldRead d bs true false) s =
              .next (waits (w.setOp d (some (reads seen { passed with phase := .done }))) (failed .dataCheck o.accounted) false
                ).serveClaims) ∧
            ((u.typeOf d).retryBudget ≤ o.rereads → (v.port p).slots = 0 → (v.port p).conn = some (.drive d) →
              exec (.dataFieldRead d bs true false) s = .next ((w.modPort p fun y => { y with answer := none }
                ).faultInConnection d p seen .dataCheck .read (o.byteCount - o.accounted) none).serveClaims)) ∧
        (fs ≠ [] → 2 < (u.port p).slots + fs.length →
          let v := framed (fs.take (2 - (u.port p).slots))
          ∀ sent : Nat, (∃ a off f, OutFrame.data a off f ∈ (v.port p).link ∧ off + f.length = sent) →
            (∀ a off f, OutFrame.data a off f ∈ (v.port p).link → off + f.length ≤ sent) →
            ∀ ends good, exec (.dataFieldRead d bs ends good) s =
              .next (waits (v.setOp d (some (reads o { r with phase := .done })))
                (failed .overrun (max (max o.accounted r.sentTo) sent)) false).serveClaims)

/-- FIELD WRITTEN, where the write was armed in time. A WRITE with all its bytes drawn is DONE when good, its bytes accounted,
and DATA CHECK WRITE at a write check, the first on the target track an update of the suspect list; what the field then holds
is the bytes drawn and zeros to its length; short of bytes it is an OVERRUN; one stopped by HALT gives its STATUS now. FORMAT
TRACK's fields follow one another, the home field setting the status of its own track, and the last one good is DONE, with the
last record current. A home field written by an alternate operation sets the track status and frees the path. A write left to
be finished ends, and with it the reset that waited for it (1.1, 1.2, 1.6, 5.6 to 5.10, 7.2, 8.8). The model's choices: one
FIELD WRITTEN stands for a home field, for an ID field, and for key and data together (deduced, log 9); the outcome of a write
left to be finished is still taken (deduced, log 19); HALTED ends the operation as it is produced (deduced, log 1), also where
the WRITE had overrun (log 65); the update of the suspect list comes before the operation's end (log 60); a WRITE whose record
is sought again has no field to be written (log 62); and one whose current record lies on another track waits for the field at
that record's place (log 74). -/
def Obligations.FieldsWritten : Prop :=
  (∀ (w : WriteCmd) (n : Nat), w.recorded n = w.bytes ++ List.replicate (n - w.bytes.length) 0) ∧
  (∀ (q : Positioner) (f : HomeField) (g : Bool),
    q.homeWritten f g = if q.selected = some f.address then { q with status := if g then some f.condition else none } else q) ∧
  ∀ (s u : State) (d : Drive), s.Finds u → (u.pos d).actuator ≠ .notReady →
    (u.finish d = none → u.op d = none → ∀ g, exec (.fieldWritten d g) s = .next u.serveClaims) ∧
    (∀ f, u.finish d = some f → f.home = none → f.reported = true → f.port = none → ∀ g,
      exec (.fieldWritten d g) s = .next (u.setFinish d none).serveClaims) ∧
    (∀ f h g, u.finish d = some f → f.home = some h → f.reported = true → f.port = none →
      exec (.fieldWritten d g) s = .next ((u.setFinish d none).modPos d fun q => q.homeWritten h g).serveClaims) ∧
    (∀ f, u.finish d = some f → f.home = none → f.reported = false → f.port = none →
      exec (.fieldWritten d false) s =
        .next ((u.setFinish d none).suspectUpdate d f.physical f.logical .dataCheck).serveClaims) ∧
    (∀ f p, u.finish d = some f → f.home = none → f.port = some p → (u.port p).state = .resetting →
      exec (.fieldWritten d true) s = .next ((u.setFinish d none).modPort p fun r =>
        { r with state := .idle, resetDrive := none }).serveClaims) ∧
    ∀ o, u.finish d = none → u.op d = some o →
      (∀ f g, o.work = .writeHome f → o.orient = none →
        (u.inTime d o 0 = true → exec (.fieldWritten d g) s =
          .next (((u.modPos d fun q => q.homeWritten f g).freeInternalPath d).altWritten d g).serveClaims) ∧
        (u.inTime d o 0 = false → exec (.fieldWritten d g) s = .next u.serveClaims)) ∧
      ∀ p, o.conn = some p → (u.port p).conn = some (.drive d) → (u.port p).slots = 0 → o.work = .connected →
        (∀ w g, o.cmd = some (.write w) →
          w.seek.isSome = true ∨ o.lost = true ∨ (∀ x, o.current = some x → u.inTime d o (x.start + 28) = false) →
          exec (.fieldWritten d g) s = .next u.serveClaims) ∧
        (∀ w x, o.cmd = some (.write w) → o.current = some x → u.inTime d o (x.start + 28) = true → o.lost = false →
          w.seek = none →
          (w.bytes.length = w.need → w.stop = none →
            exec (.fieldWritten d true) s = .next (((u.modPort p fun r => { r with requests := [], held := [], answer := none }).setOp d
              (some { o with accounted := w.need, keyCheck := false, cmd := none, idle := 0, searchIndex := 0 })).sendStatus p
                (.drive d) { done := true, residual := o.byteCount - w.need } false).serveClaims ∧
            ((∀ t, o.target = some t → t ∈ o.reported) → exec (.fieldWritten d false) s =
              .next ((u.modPort p fun r => { r with answer := none }).faultInConnection d p o
                .dataCheck .write o.byteCount none).serveClaims) ∧
            ∀ t l, o.target = some t → o.logical = some l → t ∉ o.reported → exec (.fieldWritten d false) s =
              .next ((((u.setOp d (some { o with reported := t :: o.reported })).suspectUpdate d t l .dataCheck).modPort p
                fun r => { r with answer := none }).faultInConnection d p { o with reported := t :: o.reported }
                  .dataCheck .write o.byteCount none).serveClaims) ∧
          (∀ g, (∀ t, o.target = some t → t ∈ o.reported) → w.bytes.length < w.need → w.stop = none → (u.port p).held = [] →
            exec (.fieldWritten d g) s = .next ((u.modPort p fun r => { r with answer := none }).faultInConnection d p o
              .overrun .write (o.byteCount - w.bytes.length) none).serveClaims) ∧
          (w.stop = some .halted → exec (.fieldWritten d true) s =
            .next (((u.modPort p fun r => { r with answer := none, held := [], requests := [] }).sendStatus p (.drive d)
              { done := true, halted := true, disconnect := true, residual := o.byteCount - w.bytes.length } true).endOperation d
              ).serveClaims)) ∧
        ∀ f, o.cmd = some (.format f) →
          (f.begun = false → ∀ g, exec (.fieldWritten d g) s = .next u.serveClaims) ∧
          (f.begun = true → f.stop = none →
            (∀ k y, f.fields = [.keyData k y] →
              exec (.fieldWritten d true) s = .next (((u.modPort p fun r => { r with answer := none }).setOp d
                (some { o with current := f.last, cmd := none, idle := 0, searchIndex := 0 })).sendStatus p (.drive d)
                  { done := true } false).serveClaims) ∧
            (∀ k y rest, f.fields = .keyData k y :: rest → rest ≠ [] → exec (.fieldWritten d true) s =
              .next (u.setOp d (some { o with cmd := some (.format { f with fields := rest }) })).serveClaims) ∧
            (∀ i rest, f.fields = .id i :: rest → rest ≠ [] → exec (.fieldWritten d true) s =
              .next (u.setOp d (some { o with cmd := some (.format { f with fields := rest, last := some i }) })).serveClaims) ∧
            (∀ h rest, f.fields = .home h :: rest → rest ≠ [] → exec (.fieldWritten d true) s =
              .next ((u.modPos d fun q => q.homeWritten h true).setOp d
                (some { o with cmd := some (.format { f with fields := rest }) })).serveClaims) ∧
            (∀ i rest, f.fields = .id i :: rest → (∀ t, o.target = some t → t ∈ o.reported) →
              exec (.fieldWritten d false) s = .next ((u.modPort p fun r => { r with answer := none }).faultInConnection d p o
                .dataCheck .write 0 none).serveClaims)) ∧
          (f.begun = true → f.stop = some .halted → ∀ i rest, f.fields = .id i :: rest → exec (.fieldWritten d true) s =
            .next (((u.modPort p fun r => { r with answer := none, held := [], requests := [] }).sendStatus p (.drive d)
              { done := true, halted := true, disconnect := true } true).endOperation d).serveClaims)

/-! ## Inner events -/

/-- What a mark brings about, as its own command. REQUEST RAISED: a DORMANT orientation tested since it was handed, on a
positioned drive, with a slack from M to L, or later of L exactly, becomes ACTIVE with its window OPEN and nobody deferred;
else nothing: not at another slack, LATER between M and L among them, nor where the orientation is not DORMANT or not tested,
or the drive not positioned. REQUEST LAPSE: below M an OPEN window closes, and an ACTIVE request lapses with a miss. IDLE
EXPIRY at idle count 4, HOLD TIMER EXPIRY at timer 0, LOCATE SEARCH BOUND at the second INDEX MARK, for a LOCATE and for a
command resumed, a READ or WRITE with count less bytes accounted as residual, and SEARCH INDEX COUNT LIMIT where the count has
reached 2 while a SEARCH waited for its ID field, end what they bound; before that nothing happens, and a SEARCH that still
finds the record at which it stopped has the former bound alone (model's choice, log 48), as has a READ or WRITE that finds its
current record (model's choice, log 62) (3.5, 4.3, 5.1, 5.2, 5.4, 9.5; log 4). -/
def Obligations.InnerEventsAtTheirBounds : Prop :=
  ∀ (s u : State) (d : Drive), s.FindsInner d u →
    (∀ (o : Operation) (x : Orientation) (k : Nat), u.op d = some o → o.orient = some x → u.slack d x.sector = some k →
      let t := u.typeOf d
      (x.req = .dormant → x.tested = true → u.positioned d o = true →
        ((x.later = false ∧ t.setup ≤ k ∧ k ≤ t.lead ∨ x.later = true ∧ k = t.lead) → exec (.requestRaised d) s =
          .next (u.setOp d (some { o with orient := some { x with
            req := .active, windowOpen := true, deferred := PortSet.none, later := true } })).serveClaims) ∧
        ((x.later = false ∧ k < t.setup ∨ t.lead < k ∨ x.later = true ∧ k ≠ t.lead) → exec (.requestRaised d) s =
          .next u.serveClaims)) ∧
      (x.req ≠ .dormant ∨ x.tested = false ∨ u.positioned d o = false → exec (.requestRaised d) s = .next u.serveClaims) ∧
      (x.windowOpen = true → k < t.setup →
        (x.req = .active → exec (.requestLapse d) s = .next (u.setOp d (some { o with
          miss := min 15 (o.miss + 1),
          orient := some { x with req := .dormant, windowOpen := false, deferred := PortSet.none, tested := false } })).serveClaims) ∧
        (x.req = .granted → exec (.requestLapse d) s =
          .next (u.setOp d (some { o with orient := some { x with windowOpen := false } })).serveClaims)) ∧
      (x.windowOpen = false ∨ t.setup ≤ k → exec (.requestLapse d) s = .next u.serveClaims)) ∧
    (∀ o : Operation, u.positioned d o = true ↔ (u.pos d).actuator = .onCylinder ∧
      ∃ t, o.target = some t ∧ (u.pos d).cyl = some t.cyl ∧ (u.pos d).head = some t.head) ∧
    (∀ o, u.op d = some o → o.orient = none → ∀ i : Instr, i = .requestRaised d ∨ i = .requestLapse d →
      exec i s = .next u.serveClaims) ∧
    (∀ o p, u.op d = some o → o.conn = some p →
      (o.cmd = none → 4 ≤ o.idle → exec (.idleExpiry d) s = .next ((u.endConnection p).endOperation d).serveClaims) ∧
      (o.idle < 4 ∨ o.cmd ≠ none → exec (.idleExpiry d) s = .next u.serveClaims) ∧
      ((u.port p).slots = 0 → (u.port p).conn = some (.drive d) →
        let ended (k : FaultKind) (residual : Nat) : State :=
          (u.modPort p fun r => { r with answer := none }).faultInConnection d p o k .none residual none
        (∀ f n, (o.cmd = some (.locate f) ∧ n = 0 ∨ (∃ c a x, o.cmd = some (.search c a (.find x f)) ∧ n = 0) ∨
            (∃ r x, o.cmd = some (.read r) ∧ (r.phase = .find x f ∨ r.phase = .seek f) ∧ n = o.byteCount - o.accounted) ∨
            (∃ w, o.cmd = some (.write w) ∧ w.seek = some f ∧ n = o.byteCount - o.accounted)) →
          (2 ≤ f.marks → exec (.locateSearchBound d) s =
            .next (ended (if f.noted then .idCheck else .notFound) n).serveClaims) ∧
          (f.marks < 2 → exec (.locateSearchBound d) s = .next u.serveClaims)) ∧
        ∀ c a ph, o.cmd = some (.search c a ph) →
          (ph = .over → exec (.searchIndexCountLimit d) s = .next (ended .notFound 0).serveClaims) ∧
          (ph ≠ .over → exec (.searchIndexCountLimit d) s = .next u.serveClaims))) ∧
    ∀ x, (u.share d).hold = some x →
      (x.timer = 0 → exec (.holdTimerExpiry d) s =
        .next ((u.setShare d { u.share d with hold := none }).owedTest d).serveClaims) ∧
      (0 < x.timer → exec (.holdTimerExpiry d) s = .next u.serveClaims)
end

