-- ==== Sys2Proof/Laws/State.lean ====
section
/-! SUPPORT. Reads after updates of State: one lemma per field and per getter for every update of one item. -/

namespace Sys2Proof.Machine

open Sys2Proof

variable (s : State)

/-! ## setPort -/

@[simp] theorem State.setPort_powered (p : Port) (r : PortRec) : (s.setPort p r).powered = s.powered := rfl
@[simp] theorem State.setPort_now (p : Port) (r : PortRec) : (s.setPort p r).now = s.now := rfl
@[simp] theorem State.setPort_types (p : Port) (r : PortRec) : (s.setPort p r).types = s.types := rfl
@[simp] theorem State.setPort_records (p : Port) (r : PortRec) : (s.setPort p r).records = s.records := rfl
@[simp] theorem State.setPort_positioners (p : Port) (r : PortRec) : (s.setPort p r).positioners = s.positioners := rfl
@[simp] theorem State.setPort_ops (p : Port) (r : PortRec) : (s.setPort p r).ops = s.ops := rfl
@[simp] theorem State.setPort_finishing (p : Port) (r : PortRec) : (s.setPort p r).finishing = s.finishing := rfl
@[simp] theorem State.setPort_paths (p : Port) (r : PortRec) : (s.setPort p r).paths = s.paths := rfl
@[simp] theorem State.setPort_spareMap (p : Port) (r : PortRec) : (s.setPort p r).spareMap = s.spareMap := rfl
@[simp] theorem State.setPort_suspects (p : Port) (r : PortRec) : (s.setPort p r).suspects = s.suspects := rfl
@[simp] theorem State.setPort_lastAlt (p : Port) (r : PortRec) : (s.setPort p r).lastAlt = s.lastAlt := rfl
@[simp] theorem State.setPort_queues (p : Port) (r : PortRec) : (s.setPort p r).queues = s.queues := rfl
@[simp] theorem State.setPort_sharing (p : Port) (r : PortRec) : (s.setPort p r).sharing = s.sharing := rfl
@[simp] theorem State.setPort_due (p : Port) (r : PortRec) : (s.setPort p r).due = s.due := rfl
@[simp] theorem State.setPort_choices (p : Port) (r : PortRec) : (s.setPort p r).choices = s.choices := rfl
@[simp] theorem State.setPort_pending (p : Port) (r : PortRec) : (s.setPort p r).pending = s.pending := rfl
@[simp] theorem State.setPort_op (p : Port) (r : PortRec) (i : Drive) : (s.setPort p r).op i = s.op i := rfl
@[simp] theorem State.setPort_pos (p : Port) (r : PortRec) (i : Drive) : (s.setPort p r).pos i = s.pos i := rfl
@[simp] theorem State.setPort_share (p : Port) (r : PortRec) (i : Drive) : (s.setPort p r).share i = s.share i := rfl
@[simp] theorem State.setPort_queue (p : Port) (r : PortRec) (i : Port) : (s.setPort p r).queue i = s.queue i := rfl
@[simp] theorem State.setPort_record (p : Port) (r : PortRec) (i : Drive) : (s.setPort p r).record i = s.record i := rfl
@[simp] theorem State.setPort_path (p : Port) (r : PortRec) (i : PathNo) : (s.setPort p r).path i = s.path i := rfl
@[simp] theorem State.setPort_finish (p : Port) (r : PortRec) (i : Drive) : (s.setPort p r).finish i = s.finish i := rfl

/-! ## setOp -/

@[simp] theorem State.setOp_powered (d : Drive) (o : Option Operation) : (s.setOp d o).powered = s.powered := rfl
@[simp] theorem State.setOp_now (d : Drive) (o : Option Operation) : (s.setOp d o).now = s.now := rfl
@[simp] theorem State.setOp_types (d : Drive) (o : Option Operation) : (s.setOp d o).types = s.types := rfl
@[simp] theorem State.setOp_records (d : Drive) (o : Option Operation) : (s.setOp d o).records = s.records := rfl
@[simp] theorem State.setOp_positioners (d : Drive) (o : Option Operation) : (s.setOp d o).positioners = s.positioners := rfl
@[simp] theorem State.setOp_finishing (d : Drive) (o : Option Operation) : (s.setOp d o).finishing = s.finishing := rfl
@[simp] theorem State.setOp_paths (d : Drive) (o : Option Operation) : (s.setOp d o).paths = s.paths := rfl
@[simp] theorem State.setOp_spareMap (d : Drive) (o : Option Operation) : (s.setOp d o).spareMap = s.spareMap := rfl
@[simp] theorem State.setOp_suspects (d : Drive) (o : Option Operation) : (s.setOp d o).suspects = s.suspects := rfl
@[simp] theorem State.setOp_lastAlt (d : Drive) (o : Option Operation) : (s.setOp d o).lastAlt = s.lastAlt := rfl
@[simp] theorem State.setOp_ports (d : Drive) (o : Option Operation) : (s.setOp d o).ports = s.ports := rfl
@[simp] theorem State.setOp_queues (d : Drive) (o : Option Operation) : (s.setOp d o).queues = s.queues := rfl
@[simp] theorem State.setOp_sharing (d : Drive) (o : Option Operation) : (s.setOp d o).sharing = s.sharing := rfl
@[simp] theorem State.setOp_due (d : Drive) (o : Option Operation) : (s.setOp d o).due = s.due := rfl
@[simp] theorem State.setOp_choices (d : Drive) (o : Option Operation) : (s.setOp d o).choices = s.choices := rfl
@[simp] theorem State.setOp_pending (d : Drive) (o : Option Operation) : (s.setOp d o).pending = s.pending := rfl
@[simp] theorem State.setOp_port (d : Drive) (o : Option Operation) (i : Port) : (s.setOp d o).port i = s.port i := rfl
@[simp] theorem State.setOp_pos (d : Drive) (o : Option Operation) (i : Drive) : (s.setOp d o).pos i = s.pos i := rfl
@[simp] theorem State.setOp_share (d : Drive) (o : Option Operation) (i : Drive) : (s.setOp d o).share i = s.share i := rfl
@[simp] theorem State.setOp_queue (d : Drive) (o : Option Operation) (i : Port) : (s.setOp d o).queue i = s.queue i := rfl
@[simp] theorem State.setOp_record (d : Drive) (o : Option Operation) (i : Drive) : (s.setOp d o).record i = s.record i := rfl
@[simp] theorem State.setOp_path (d : Drive) (o : Option Operation) (i : PathNo) : (s.setOp d o).path i = s.path i := rfl
@[simp] theorem State.setOp_finish (d : Drive) (o : Option Operation) (i : Drive) : (s.setOp d o).finish i = s.finish i := rfl

/-! ## setPos -/

@[simp] theorem State.setPos_powered (d : Drive) (q : Positioner) : (s.setPos d q).powered = s.powered := rfl
@[simp] theorem State.setPos_now (d : Drive) (q : Positioner) : (s.setPos d q).now = s.now := rfl
@[simp] theorem State.setPos_types (d : Drive) (q : Positioner) : (s.setPos d q).types = s.types := rfl
@[simp] theorem State.setPos_records (d : Drive) (q : Positioner) : (s.setPos d q).records = s.records := rfl
@[simp] theorem State.setPos_ops (d : Drive) (q : Positioner) : (s.setPos d q).ops = s.ops := rfl
@[simp] theorem State.setPos_finishing (d : Drive) (q : Positioner) : (s.setPos d q).finishing = s.finishing := rfl
@[simp] theorem State.setPos_paths (d : Drive) (q : Positioner) : (s.setPos d q).paths = s.paths := rfl
@[simp] theorem State.setPos_spareMap (d : Drive) (q : Positioner) : (s.setPos d q).spareMap = s.spareMap := rfl
@[simp] theorem State.setPos_suspects (d : Drive) (q : Positioner) : (s.setPos d q).suspects = s.suspects := rfl
@[simp] theorem State.setPos_lastAlt (d : Drive) (q : Positioner) : (s.setPos d q).lastAlt = s.lastAlt := rfl
@[simp] theorem State.setPos_ports (d : Drive) (q : Positioner) : (s.setPos d q).ports = s.ports := rfl
@[simp] theorem State.setPos_queues (d : Drive) (q : Positioner) : (s.setPos d q).queues = s.queues := rfl
@[simp] theorem State.setPos_sharing (d : Drive) (q : Positioner) : (s.setPos d q).sharing = s.sharing := rfl
@[simp] theorem State.setPos_due (d : Drive) (q : Positioner) : (s.setPos d q).due = s.due := rfl
@[simp] theorem State.setPos_choices (d : Drive) (q : Positioner) : (s.setPos d q).choices = s.choices := rfl
@[simp] theorem State.setPos_pending (d : Drive) (q : Positioner) : (s.setPos d q).pending = s.pending := rfl
@[simp] theorem State.setPos_port (d : Drive) (q : Positioner) (i : Port) : (s.setPos d q).port i = s.port i := rfl
@[simp] theorem State.setPos_op (d : Drive) (q : Positioner) (i : Drive) : (s.setPos d q).op i = s.op i := rfl
@[simp] theorem State.setPos_share (d : Drive) (q : Positioner) (i : Drive) : (s.setPos d q).share i = s.share i := rfl
@[simp] theorem State.setPos_queue (d : Drive) (q : Positioner) (i : Port) : (s.setPos d q).queue i = s.queue i := rfl
@[simp] theorem State.setPos_record (d : Drive) (q : Positioner) (i : Drive) : (s.setPos d q).record i = s.record i := rfl
@[simp] theorem State.setPos_path (d : Drive) (q : Positioner) (i : PathNo) : (s.setPos d q).path i = s.path i := rfl
@[simp] theorem State.setPos_finish (d : Drive) (q : Positioner) (i : Drive) : (s.setPos d q).finish i = s.finish i := rfl

/-! ## setShare -/

@[simp] theorem State.setShare_powered (d : Drive) (x : Sharing) : (s.setShare d x).powered = s.powered := rfl
@[simp] theorem State.setShare_now (d : Drive) (x : Sharing) : (s.setShare d x).now = s.now := rfl
@[simp] theorem State.setShare_types (d : Drive) (x : Sharing) : (s.setShare d x).types = s.types := rfl
@[simp] theorem State.setShare_records (d : Drive) (x : Sharing) : (s.setShare d x).records = s.records := rfl
@[simp] theorem State.setShare_positioners (d : Drive) (x : Sharing) : (s.setShare d x).positioners = s.positioners := rfl
@[simp] theorem State.setShare_ops (d : Drive) (x : Sharing) : (s.setShare d x).ops = s.ops := rfl
@[simp] theorem State.setShare_finishing (d : Drive) (x : Sharing) : (s.setShare d x).finishing = s.finishing := rfl
@[simp] theorem State.setShare_paths (d : Drive) (x : Sharing) : (s.setShare d x).paths = s.paths := rfl
@[simp] theorem State.setShare_spareMap (d : Drive) (x : Sharing) : (s.setShare d x).spareMap = s.spareMap := rfl
@[simp] theorem State.setShare_suspects (d : Drive) (x : Sharing) : (s.setShare d x).suspects = s.suspects := rfl
@[simp] theorem State.setShare_lastAlt (d : Drive) (x : Sharing) : (s.setShare d x).lastAlt = s.lastAlt := rfl
@[simp] theorem State.setShare_ports (d : Drive) (x : Sharing) : (s.setShare d x).ports = s.ports := rfl
@[simp] theorem State.setShare_queues (d : Drive) (x : Sharing) : (s.setShare d x).queues = s.queues := rfl
@[simp] theorem State.setShare_due (d : Drive) (x : Sharing) : (s.setShare d x).due = s.due := rfl
@[simp] theorem State.setShare_choices (d : Drive) (x : Sharing) : (s.setShare d x).choices = s.choices := rfl
@[simp] theorem State.setShare_pending (d : Drive) (x : Sharing) : (s.setShare d x).pending = s.pending := rfl
@[simp] theorem State.setShare_port (d : Drive) (x : Sharing) (i : Port) : (s.setShare d x).port i = s.port i := rfl
@[simp] theorem State.setShare_op (d : Drive) (x : Sharing) (i : Drive) : (s.setShare d x).op i = s.op i := rfl
@[simp] theorem State.setShare_pos (d : Drive) (x : Sharing) (i : Drive) : (s.setShare d x).pos i = s.pos i := rfl
@[simp] theorem State.setShare_queue (d : Drive) (x : Sharing) (i : Port) : (s.setShare d x).queue i = s.queue i := rfl
@[simp] theorem State.setShare_record (d : Drive) (x : Sharing) (i : Drive) : (s.setShare d x).record i = s.record i := rfl
@[simp] theorem State.setShare_path (d : Drive) (x : Sharing) (i : PathNo) : (s.setShare d x).path i = s.path i := rfl
@[simp] theorem State.setShare_finish (d : Drive) (x : Sharing) (i : Drive) : (s.setShare d x).finish i = s.finish i := rfl

/-! ## setQueue -/

@[simp] theorem State.setQueue_powered (p : Port) (q : NoticeQueue) : (s.setQueue p q).powered = s.powered := rfl
@[simp] theorem State.setQueue_now (p : Port) (q : NoticeQueue) : (s.setQueue p q).now = s.now := rfl
@[simp] theorem State.setQueue_types (p : Port) (q : NoticeQueue) : (s.setQueue p q).types = s.types := rfl
@[simp] theorem State.setQueue_records (p : Port) (q : NoticeQueue) : (s.setQueue p q).records = s.records := rfl
@[simp] theorem State.setQueue_positioners (p : Port) (q : NoticeQueue) : (s.setQueue p q).positioners = s.positioners := rfl
@[simp] theorem State.setQueue_ops (p : Port) (q : NoticeQueue) : (s.setQueue p q).ops = s.ops := rfl
@[simp] theorem State.setQueue_finishing (p : Port) (q : NoticeQueue) : (s.setQueue p q).finishing = s.finishing := rfl
@[simp] theorem State.setQueue_paths (p : Port) (q : NoticeQueue) : (s.setQueue p q).paths = s.paths := rfl
@[simp] theorem State.setQueue_spareMap (p : Port) (q : NoticeQueue) : (s.setQueue p q).spareMap = s.spareMap := rfl
@[simp] theorem State.setQueue_suspects (p : Port) (q : NoticeQueue) : (s.setQueue p q).suspects = s.suspects := rfl
@[simp] theorem State.setQueue_lastAlt (p : Port) (q : NoticeQueue) : (s.setQueue p q).lastAlt = s.lastAlt := rfl
@[simp] theorem State.setQueue_ports (p : Port) (q : NoticeQueue) : (s.setQueue p q).ports = s.ports := rfl
@[simp] theorem State.setQueue_sharing (p : Port) (q : NoticeQueue) : (s.setQueue p q).sharing = s.sharing := rfl
@[simp] theorem State.setQueue_due (p : Port) (q : NoticeQueue) : (s.setQueue p q).due = s.due := rfl
@[simp] theorem State.setQueue_choices (p : Port) (q : NoticeQueue) : (s.setQueue p q).choices = s.choices := rfl
@[simp] theorem State.setQueue_pending (p : Port) (q : NoticeQueue) : (s.setQueue p q).pending = s.pending := rfl
@[simp] theorem State.setQueue_port (p : Port) (q : NoticeQueue) (i : Port) : (s.setQueue p q).port i = s.port i := rfl
@[simp] theorem State.setQueue_op (p : Port) (q : NoticeQueue) (i : Drive) : (s.setQueue p q).op i = s.op i := rfl
@[simp] theorem State.setQueue_pos (p : Port) (q : NoticeQueue) (i : Drive) : (s.setQueue p q).pos i = s.pos i := rfl
@[simp] theorem State.setQueue_share (p : Port) (q : NoticeQueue) (i : Drive) : (s.setQueue p q).share i = s.share i := rfl
@[simp] theorem State.setQueue_record (p : Port) (q : NoticeQueue) (i : Drive) : (s.setQueue p q).record i = s.record i := rfl
@[simp] theorem State.setQueue_path (p : Port) (q : NoticeQueue) (i : PathNo) : (s.setQueue p q).path i = s.path i := rfl
@[simp] theorem State.setQueue_finish (p : Port) (q : NoticeQueue) (i : Drive) : (s.setQueue p q).finish i = s.finish i := rfl

/-! ## setRecord -/

@[simp] theorem State.setRecord_powered (d : Drive) (r : DriveRecord) : (s.setRecord d r).powered = s.powered := rfl
@[simp] theorem State.setRecord_now (d : Drive) (r : DriveRecord) : (s.setRecord d r).now = s.now := rfl
@[simp] theorem State.setRecord_types (d : Drive) (r : DriveRecord) : (s.setRecord d r).types = s.types := rfl
@[simp] theorem State.setRecord_positioners (d : Drive) (r : DriveRecord) : (s.setRecord d r).positioners = s.positioners := rfl
@[simp] theorem State.setRecord_ops (d : Drive) (r : DriveRecord) : (s.setRecord d r).ops = s.ops := rfl
@[simp] theorem State.setRecord_finishing (d : Drive) (r : DriveRecord) : (s.setRecord d r).finishing = s.finishing := rfl
@[simp] theorem State.setRecord_paths (d : Drive) (r : DriveRecord) : (s.setRecord d r).paths = s.paths := rfl
@[simp] theorem State.setRecord_spareMap (d : Drive) (r : DriveRecord) : (s.setRecord d r).spareMap = s.spareMap := rfl
@[simp] theorem State.setRecord_suspects (d : Drive) (r : DriveRecord) : (s.setRecord d r).suspects = s.suspects := rfl
@[simp] theorem State.setRecord_lastAlt (d : Drive) (r : DriveRecord) : (s.setRecord d r).lastAlt = s.lastAlt := rfl
@[simp] theorem State.setRecord_ports (d : Drive) (r : DriveRecord) : (s.setRecord d r).ports = s.ports := rfl
@[simp] theorem State.setRecord_queues (d : Drive) (r : DriveRecord) : (s.setRecord d r).queues = s.queues := rfl
@[simp] theorem State.setRecord_sharing (d : Drive) (r : DriveRecord) : (s.setRecord d r).sharing = s.sharing := rfl
@[simp] theorem State.setRecord_due (d : Drive) (r : DriveRecord) : (s.setRecord d r).due = s.due := rfl
@[simp] theorem State.setRecord_choices (d : Drive) (r : DriveRecord) : (s.setRecord d r).choices = s.choices := rfl
@[simp] theorem State.setRecord_pending (d : Drive) (r : DriveRecord) : (s.setRecord d r).pending = s.pending := rfl
@[simp] theorem State.setRecord_port (d : Drive) (r : DriveRecord) (i : Port) : (s.setRecord d r).port i = s.port i := rfl
@[simp] theorem State.setRecord_op (d : Drive) (r : DriveRecord) (i : Drive) : (s.setRecord d r).op i = s.op i := rfl
@[simp] theorem State.setRecord_pos (d : Drive) (r : DriveRecord) (i : Drive) : (s.setRecord d r).pos i = s.pos i := rfl
@[simp] theorem State.setRecord_share (d : Drive) (r : DriveRecord) (i : Drive) : (s.setRecord d r).share i = s.share i := rfl
@[simp] theorem State.setRecord_queue (d : Drive) (r : DriveRecord) (i : Port) : (s.setRecord d r).queue i = s.queue i := rfl
@[simp] theorem State.setRecord_path (d : Drive) (r : DriveRecord) (i : PathNo) : (s.setRecord d r).path i = s.path i := rfl
@[simp] theorem State.setRecord_finish (d : Drive) (r : DriveRecord) (i : Drive) : (s.setRecord d r).finish i = s.finish i := rfl

/-! ## setPath -/

@[simp] theorem State.setPath_powered (n : PathNo) (x : Option PathHold) : (s.setPath n x).powered = s.powered := rfl
@[simp] theorem State.setPath_now (n : PathNo) (x : Option PathHold) : (s.setPath n x).now = s.now := rfl
@[simp] theorem State.setPath_types (n : PathNo) (x : Option PathHold) : (s.setPath n x).types = s.types := rfl
@[simp] theorem State.setPath_records (n : PathNo) (x : Option PathHold) : (s.setPath n x).records = s.records := rfl
@[simp] theorem State.setPath_positioners (n : PathNo) (x : Option PathHold) : (s.setPath n x).positioners = s.positioners := rfl
@[simp] theorem State.setPath_ops (n : PathNo) (x : Option PathHold) : (s.setPath n x).ops = s.ops := rfl
@[simp] theorem State.setPath_finishing (n : PathNo) (x : Option PathHold) : (s.setPath n x).finishing = s.finishing := rfl
@[simp] theorem State.setPath_spareMap (n : PathNo) (x : Option PathHold) : (s.setPath n x).spareMap = s.spareMap := rfl
@[simp] theorem State.setPath_suspects (n : PathNo) (x : Option PathHold) : (s.setPath n x).suspects = s.suspects := rfl
@[simp] theorem State.setPath_lastAlt (n : PathNo) (x : Option PathHold) : (s.setPath n x).lastAlt = s.lastAlt := rfl
@[simp] theorem State.setPath_ports (n : PathNo) (x : Option PathHold) : (s.setPath n x).ports = s.ports := rfl
@[simp] theorem State.setPath_queues (n : PathNo) (x : Option PathHold) : (s.setPath n x).queues = s.queues := rfl
@[simp] theorem State.setPath_sharing (n : PathNo) (x : Option PathHold) : (s.setPath n x).sharing = s.sharing := rfl
@[simp] theorem State.setPath_due (n : PathNo) (x : Option PathHold) : (s.setPath n x).due = s.due := rfl
@[simp] theorem State.setPath_choices (n : PathNo) (x : Option PathHold) : (s.setPath n x).choices = s.choices := rfl
@[simp] theorem State.setPath_pending (n : PathNo) (x : Option PathHold) : (s.setPath n x).pending = s.pending := rfl
@[simp] theorem State.setPath_port (n : PathNo) (x : Option PathHold) (i : Port) : (s.setPath n x).port i = s.port i := rfl
@[simp] theorem State.setPath_op (n : PathNo) (x : Option PathHold) (i : Drive) : (s.setPath n x).op i = s.op i := rfl
@[simp] theorem State.setPath_pos (n : PathNo) (x : Option PathHold) (i : Drive) : (s.setPath n x).pos i = s.pos i := rfl
@[simp] theorem State.setPath_share (n : PathNo) (x : Option PathHold) (i : Drive) : (s.setPath n x).share i = s.share i := rfl
@[simp] theorem State.setPath_queue (n : PathNo) (x : Option PathHold) (i : Port) : (s.setPath n x).queue i = s.queue i := rfl
@[simp] theorem State.setPath_record (n : PathNo) (x : Option PathHold) (i : Drive) : (s.setPath n x).record i = s.record i := rfl
@[simp] theorem State.setPath_finish (n : PathNo) (x : Option PathHold) (i : Drive) : (s.setPath n x).finish i = s.finish i := rfl

/-! ## setFinish -/

@[simp] theorem State.setFinish_powered (d : Drive) (f : Option Finishing) : (s.setFinish d f).powered = s.powered := rfl
@[simp] theorem State.setFinish_now (d : Drive) (f : Option Finishing) : (s.setFinish d f).now = s.now := rfl
@[simp] theorem State.setFinish_types (d : Drive) (f : Option Finishing) : (s.setFinish d f).types = s.types := rfl
@[simp] theorem State.setFinish_records (d : Drive) (f : Option Finishing) : (s.setFinish d f).records = s.records := rfl
@[simp] theorem State.setFinish_positioners (d : Drive) (f : Option Finishing) : (s.setFinish d f).positioners = s.positioners := rfl
@[simp] theorem State.setFinish_ops (d : Drive) (f : Option Finishing) : (s.setFinish d f).ops = s.ops := rfl
@[simp] theorem State.setFinish_paths (d : Drive) (f : Option Finishing) : (s.setFinish d f).paths = s.paths := rfl
@[simp] theorem State.setFinish_spareMap (d : Drive) (f : Option Finishing) : (s.setFinish d f).spareMap = s.spareMap := rfl
@[simp] theorem State.setFinish_suspects (d : Drive) (f : Option Finishing) : (s.setFinish d f).suspects = s.suspects := rfl
@[simp] theorem State.setFinish_lastAlt (d : Drive) (f : Option Finishing) : (s.setFinish d f).lastAlt = s.lastAlt := rfl
@[simp] theorem State.setFinish_ports (d : Drive) (f : Option Finishing) : (s.setFinish d f).ports = s.ports := rfl
@[simp] theorem State.setFinish_queues (d : Drive) (f : Option Finishing) : (s.setFinish d f).queues = s.queues := rfl
@[simp] theorem State.setFinish_sharing (d : Drive) (f : Option Finishing) : (s.setFinish d f).sharing = s.sharing := rfl
@[simp] theorem State.setFinish_due (d : Drive) (f : Option Finishing) : (s.setFinish d f).due = s.due := rfl
@[simp] theorem State.setFinish_choices (d : Drive) (f : Option Finishing) : (s.setFinish d f).choices = s.choices := rfl
@[simp] theorem State.setFinish_pending (d : Drive) (f : Option Finishing) : (s.setFinish d f).pending = s.pending := rfl
@[simp] theorem State.setFinish_port (d : Drive) (f : Option Finishing) (i : Port) : (s.setFinish d f).port i = s.port i := rfl
@[simp] theorem State.setFinish_op (d : Drive) (f : Option Finishing) (i : Drive) : (s.setFinish d f).op i = s.op i := rfl
@[simp] theorem State.setFinish_pos (d : Drive) (f : Option Finishing) (i : Drive) : (s.setFinish d f).pos i = s.pos i := rfl
@[simp] theorem State.setFinish_share (d : Drive) (f : Option Finishing) (i : Drive) : (s.setFinish d f).share i = s.share i := rfl
@[simp] theorem State.setFinish_queue (d : Drive) (f : Option Finishing) (i : Port) : (s.setFinish d f).queue i = s.queue i := rfl
@[simp] theorem State.setFinish_record (d : Drive) (f : Option Finishing) (i : Drive) : (s.setFinish d f).record i = s.record i := rfl
@[simp] theorem State.setFinish_path (d : Drive) (f : Option Finishing) (i : PathNo) : (s.setFinish d f).path i = s.path i := rfl

/-! ## modPort -/

@[simp] theorem State.modPort_powered (p : Port) (f : PortRec → PortRec) : (s.modPort p f).powered = s.powered := rfl
@[simp] theorem State.modPort_now (p : Port) (f : PortRec → PortRec) : (s.modPort p f).now = s.now := rfl
@[simp] theorem State.modPort_types (p : Port) (f : PortRec → PortRec) : (s.modPort p f).types = s.types := rfl
@[simp] theorem State.modPort_records (p : Port) (f : PortRec → PortRec) : (s.modPort p f).records = s.records := rfl
@[simp] theorem State.modPort_positioners (p : Port) (f : PortRec → PortRec) : (s.modPort p f).positioners = s.positioners := rfl
@[simp] theorem State.modPort_ops (p : Port) (f : PortRec → PortRec) : (s.modPort p f).ops = s.ops := rfl
@[simp] theorem State.modPort_finishing (p : Port) (f : PortRec → PortRec) : (s.modPort p f).finishing = s.finishing := rfl
@[simp] theorem State.modPort_paths (p : Port) (f : PortRec → PortRec) : (s.modPort p f).paths = s.paths := rfl
@[simp] theorem State.modPort_spareMap (p : Port) (f : PortRec → PortRec) : (s.modPort p f).spareMap = s.spareMap := rfl
@[simp] theorem State.modPort_suspects (p : Port) (f : PortRec → PortRec) : (s.modPort p f).suspects = s.suspects := rfl
@[simp] theorem State.modPort_lastAlt (p : Port) (f : PortRec → PortRec) : (s.modPort p f).lastAlt = s.lastAlt := rfl
@[simp] theorem State.modPort_queues (p : Port) (f : PortRec → PortRec) : (s.modPort p f).queues = s.queues := rfl
@[simp] theorem State.modPort_sharing (p : Port) (f : PortRec → PortRec) : (s.modPort p f).sharing = s.sharing := rfl
@[simp] theorem State.modPort_due (p : Port) (f : PortRec → PortRec) : (s.modPort p f).due = s.due := rfl
@[simp] theorem State.modPort_choices (p : Port) (f : PortRec → PortRec) : (s.modPort p f).choices = s.choices := rfl
@[simp] theorem State.modPort_pending (p : Port) (f : PortRec → PortRec) : (s.modPort p f).pending = s.pending := rfl
@[simp] theorem State.modPort_op (p : Port) (f : PortRec → PortRec) (i : Drive) : (s.modPort p f).op i = s.op i := rfl
@[simp] theorem State.modPort_pos (p : Port) (f : PortRec → PortRec) (i : Drive) : (s.modPort p f).pos i = s.pos i := rfl
@[simp] theorem State.modPort_share (p : Port) (f : PortRec → PortRec) (i : Drive) : (s.modPort p f).share i = s.share i := rfl
@[simp] theorem State.modPort_queue (p : Port) (f : PortRec → PortRec) (i : Port) : (s.modPort p f).queue i = s.queue i := rfl
@[simp] theorem State.modPort_record (p : Port) (f : PortRec → PortRec) (i : Drive) : (s.modPort p f).record i = s.record i := rfl
@[simp] theorem State.modPort_path (p : Port) (f : PortRec → PortRec) (i : PathNo) : (s.modPort p f).path i = s.path i := rfl
@[simp] theorem State.modPort_finish (p : Port) (f : PortRec → PortRec) (i : Drive) : (s.modPort p f).finish i = s.finish i := rfl

/-! ## modOp -/

@[simp] theorem State.modOp_powered (d : Drive) (f : Operation → Operation) : (s.modOp d f).powered = s.powered := rfl
@[simp] theorem State.modOp_now (d : Drive) (f : Operation → Operation) : (s.modOp d f).now = s.now := rfl
@[simp] theorem State.modOp_types (d : Drive) (f : Operation → Operation) : (s.modOp d f).types = s.types := rfl
@[simp] theorem State.modOp_records (d : Drive) (f : Operation → Operation) : (s.modOp d f).records = s.records := rfl
@[simp] theorem State.modOp_positioners (d : Drive) (f : Operation → Operation) : (s.modOp d f).positioners = s.positioners := rfl
@[simp] theorem State.modOp_finishing (d : Drive) (f : Operation → Operation) : (s.modOp d f).finishing = s.finishing := rfl
@[simp] theorem State.modOp_paths (d : Drive) (f : Operation → Operation) : (s.modOp d f).paths = s.paths := rfl
@[simp] theorem State.modOp_spareMap (d : Drive) (f : Operation → Operation) : (s.modOp d f).spareMap = s.spareMap := rfl
@[simp] theorem State.modOp_suspects (d : Drive) (f : Operation → Operation) : (s.modOp d f).suspects = s.suspects := rfl
@[simp] theorem State.modOp_lastAlt (d : Drive) (f : Operation → Operation) : (s.modOp d f).lastAlt = s.lastAlt := rfl
@[simp] theorem State.modOp_ports (d : Drive) (f : Operation → Operation) : (s.modOp d f).ports = s.ports := rfl
@[simp] theorem State.modOp_queues (d : Drive) (f : Operation → Operation) : (s.modOp d f).queues = s.queues := rfl
@[simp] theorem State.modOp_sharing (d : Drive) (f : Operation → Operation) : (s.modOp d f).sharing = s.sharing := rfl
@[simp] theorem State.modOp_due (d : Drive) (f : Operation → Operation) : (s.modOp d f).due = s.due := rfl
@[simp] theorem State.modOp_choices (d : Drive) (f : Operation → Operation) : (s.modOp d f).choices = s.choices := rfl
@[simp] theorem State.modOp_pending (d : Drive) (f : Operation → Operation) : (s.modOp d f).pending = s.pending := rfl
@[simp] theorem State.modOp_port (d : Drive) (f : Operation → Operation) (i : Port) : (s.modOp d f).port i = s.port i := rfl
@[simp] theorem State.modOp_pos (d : Drive) (f : Operation → Operation) (i : Drive) : (s.modOp d f).pos i = s.pos i := rfl
@[simp] theorem State.modOp_share (d : Drive) (f : Operation → Operation) (i : Drive) : (s.modOp d f).share i = s.share i := rfl
@[simp] theorem State.modOp_queue (d : Drive) (f : Operation → Operation) (i : Port) : (s.modOp d f).queue i = s.queue i := rfl
@[simp] theorem State.modOp_record (d : Drive) (f : Operation → Operation) (i : Drive) : (s.modOp d f).record i = s.record i := rfl
@[simp] theorem State.modOp_path (d : Drive) (f : Operation → Operation) (i : PathNo) : (s.modOp d f).path i = s.path i := rfl
@[simp] theorem State.modOp_finish (d : Drive) (f : Operation → Operation) (i : Drive) : (s.modOp d f).finish i = s.finish i := rfl

/-! ## modPos -/

@[simp] theorem State.modPos_powered (d : Drive) (f : Positioner → Positioner) : (s.modPos d f).powered = s.powered := rfl
@[simp] theorem State.modPos_now (d : Drive) (f : Positioner → Positioner) : (s.modPos d f).now = s.now := rfl
@[simp] theorem State.modPos_types (d : Drive) (f : Positioner → Positioner) : (s.modPos d f).types = s.types := rfl
@[simp] theorem State.modPos_records (d : Drive) (f : Positioner → Positioner) : (s.modPos d f).records = s.records := rfl
@[simp] theorem State.modPos_ops (d : Drive) (f : Positioner → Positioner) : (s.modPos d f).ops = s.ops := rfl
@[simp] theorem State.modPos_finishing (d : Drive) (f : Positioner → Positioner) : (s.modPos d f).finishing = s.finishing := rfl
@[simp] theorem State.modPos_paths (d : Drive) (f : Positioner → Positioner) : (s.modPos d f).paths = s.paths := rfl
@[simp] theorem State.modPos_spareMap (d : Drive) (f : Positioner → Positioner) : (s.modPos d f).spareMap = s.spareMap := rfl
@[simp] theorem State.modPos_suspects (d : Drive) (f : Positioner → Positioner) : (s.modPos d f).suspects = s.suspects := rfl
@[simp] theorem State.modPos_lastAlt (d : Drive) (f : Positioner → Positioner) : (s.modPos d f).lastAlt = s.lastAlt := rfl
@[simp] theorem State.modPos_ports (d : Drive) (f : Positioner → Positioner) : (s.modPos d f).ports = s.ports := rfl
@[simp] theorem State.modPos_queues (d : Drive) (f : Positioner → Positioner) : (s.modPos d f).queues = s.queues := rfl
@[simp] theorem State.modPos_sharing (d : Drive) (f : Positioner → Positioner) : (s.modPos d f).sharing = s.sharing := rfl
@[simp] theorem State.modPos_due (d : Drive) (f : Positioner → Positioner) : (s.modPos d f).due = s.due := rfl
@[simp] theorem State.modPos_choices (d : Drive) (f : Positioner → Positioner) : (s.modPos d f).choices = s.choices := rfl
@[simp] theorem State.modPos_pending (d : Drive) (f : Positioner → Positioner) : (s.modPos d f).pending = s.pending := rfl
@[simp] theorem State.modPos_port (d : Drive) (f : Positioner → Positioner) (i : Port) : (s.modPos d f).port i = s.port i := rfl
@[simp] theorem State.modPos_op (d : Drive) (f : Positioner → Positioner) (i : Drive) : (s.modPos d f).op i = s.op i := rfl
@[simp] theorem State.modPos_share (d : Drive) (f : Positioner → Positioner) (i : Drive) : (s.modPos d f).share i = s.share i := rfl
@[simp] theorem State.modPos_queue (d : Drive) (f : Positioner → Positioner) (i : Port) : (s.modPos d f).queue i = s.queue i := rfl
@[simp] theorem State.modPos_record (d : Drive) (f : Positioner → Positioner) (i : Drive) : (s.modPos d f).record i = s.record i := rfl
@[simp] theorem State.modPos_path (d : Drive) (f : Positioner → Positioner) (i : PathNo) : (s.modPos d f).path i = s.path i := rfl
@[simp] theorem State.modPos_finish (d : Drive) (f : Positioner → Positioner) (i : Drive) : (s.modPos d f).finish i = s.finish i := rfl

/-! ## modShare -/

@[simp] theorem State.modShare_powered (d : Drive) (f : Sharing → Sharing) : (s.modShare d f).powered = s.powered := rfl
@[simp] theorem State.modShare_now (d : Drive) (f : Sharing → Sharing) : (s.modShare d f).now = s.now := rfl
@[simp] theorem State.modShare_types (d : Drive) (f : Sharing → Sharing) : (s.modShare d f).types = s.types := rfl
@[simp] theorem State.modShare_records (d : Drive) (f : Sharing → Sharing) : (s.modShare d f).records = s.records := rfl
@[simp] theorem State.modShare_positioners (d : Drive) (f : Sharing → Sharing) : (s.modShare d f).positioners = s.positioners := rfl
@[simp] theorem State.modShare_ops (d : Drive) (f : Sharing → Sharing) : (s.modShare d f).ops = s.ops := rfl
@[simp] theorem State.modShare_finishing (d : Drive) (f : Sharing → Sharing) : (s.modShare d f).finishing = s.finishing := rfl
@[simp] theorem State.modShare_paths (d : Drive) (f : Sharing → Sharing) : (s.modShare d f).paths = s.paths := rfl
@[simp] theorem State.modShare_spareMap (d : Drive) (f : Sharing → Sharing) : (s.modShare d f).spareMap = s.spareMap := rfl
@[simp] theorem State.modShare_suspects (d : Drive) (f : Sharing → Sharing) : (s.modShare d f).suspects = s.suspects := rfl
@[simp] theorem State.modShare_lastAlt (d : Drive) (f : Sharing → Sharing) : (s.modShare d f).lastAlt = s.lastAlt := rfl
@[simp] theorem State.modShare_ports (d : Drive) (f : Sharing → Sharing) : (s.modShare d f).ports = s.ports := rfl
@[simp] theorem State.modShare_queues (d : Drive) (f : Sharing → Sharing) : (s.modShare d f).queues = s.queues := rfl
@[simp] theorem State.modShare_due (d : Drive) (f : Sharing → Sharing) : (s.modShare d f).due = s.due := rfl
@[simp] theorem State.modShare_choices (d : Drive) (f : Sharing → Sharing) : (s.modShare d f).choices = s.choices := rfl
@[simp] theorem State.modShare_pending (d : Drive) (f : Sharing → Sharing) : (s.modShare d f).pending = s.pending := rfl
@[simp] theorem State.modShare_port (d : Drive) (f : Sharing → Sharing) (i : Port) : (s.modShare d f).port i = s.port i := rfl
@[simp] theorem State.modShare_op (d : Drive) (f : Sharing → Sharing) (i : Drive) : (s.modShare d f).op i = s.op i := rfl
@[simp] theorem State.modShare_pos (d : Drive) (f : Sharing → Sharing) (i : Drive) : (s.modShare d f).pos i = s.pos i := rfl
@[simp] theorem State.modShare_queue (d : Drive) (f : Sharing → Sharing) (i : Port) : (s.modShare d f).queue i = s.queue i := rfl
@[simp] theorem State.modShare_record (d : Drive) (f : Sharing → Sharing) (i : Drive) : (s.modShare d f).record i = s.record i := rfl
@[simp] theorem State.modShare_path (d : Drive) (f : Sharing → Sharing) (i : PathNo) : (s.modShare d f).path i = s.path i := rfl
@[simp] theorem State.modShare_finish (d : Drive) (f : Sharing → Sharing) (i : Drive) : (s.modShare d f).finish i = s.finish i := rfl

/-! ## The item updated, and the others -/

@[simp] theorem State.setPort_port_same (p : Port) (r : PortRec) : (s.setPort p r).port p = r := by simp [State.setPort, State.port]
theorem State.setPort_port_ne (p : Port) (r : PortRec) (j : Port) (h : p ≠ j) : (s.setPort p r).port j = s.port j := by
  have h' : (p : Nat) ≠ j := fun e => h (Fin.ext e)
  simp [State.setPort, State.port, h']
theorem State.setPort_port (p : Port) (r : PortRec) (j : Port) : (s.setPort p r).port j = if p = j then r else s.port j := by
  by_cases h : p = j
  · subst h; simp
  · rw [State.setPort_port_ne s p r j h, if_neg h]
@[simp] theorem State.modPort_port_same (p : Port) (f : PortRec → PortRec) : (s.modPort p f).port p = (f (s.port p)) := by
  unfold State.modPort; simp
theorem State.modPort_port_ne (p : Port) (f : PortRec → PortRec) (j : Port) (h : p ≠ j) : (s.modPort p f).port j = s.port j := by
  unfold State.modPort; exact State.setPort_port_ne s _ _ j h
theorem State.modPort_port (p : Port) (f : PortRec → PortRec) (j : Port) : (s.modPort p f).port j = if p = j then (f (s.port p)) else s.port j := by
  unfold State.modPort; rw [State.setPort_port]
@[simp] theorem State.setOp_op_same (d : Drive) (o : Option Operation) : (s.setOp d o).op d = o := by simp [State.setOp, State.op]
theorem State.setOp_op_ne (d : Drive) (o : Option Operation) (j : Drive) (h : d ≠ j) : (s.setOp d o).op j = s.op j := by
  have h' : (d : Nat) ≠ j := fun e => h (Fin.ext e)
  simp [State.setOp, State.op, h']
theorem State.setOp_op (d : Drive) (o : Option Operation) (j : Drive) : (s.setOp d o).op j = if d = j then o else s.op j := by
  by_cases h : d = j
  · subst h; simp
  · rw [State.setOp_op_ne s d o j h, if_neg h]
@[simp] theorem State.modOp_op_same (d : Drive) (f : Operation → Operation) : (s.modOp d f).op d = ((s.op d).map f) := by
  unfold State.modOp; simp
theorem State.modOp_op_ne (d : Drive) (f : Operation → Operation) (j : Drive) (h : d ≠ j) : (s.modOp d f).op j = s.op j := by
  unfold State.modOp; exact State.setOp_op_ne s _ _ j h
theorem State.modOp_op (d : Drive) (f : Operation → Operation) (j : Drive) : (s.modOp d f).op j = if d = j then ((s.op d).map f) else s.op j := by
  unfold State.modOp; rw [State.setOp_op]
@[simp] theorem State.setPos_pos_same (d : Drive) (q : Positioner) : (s.setPos d q).pos d = q := by simp [State.setPos, State.pos]
theorem State.setPos_pos_ne (d : Drive) (q : Positioner) (j : Drive) (h : d ≠ j) : (s.setPos d q).pos j = s.pos j := by
  have h' : (d : Nat) ≠ j := fun e => h (Fin.ext e)
  simp [State.setPos, State.pos, h']
theorem State.setPos_pos (d : Drive) (q : Positioner) (j : Drive) : (s.setPos d q).pos j = if d = j then q else s.pos j := by
  by_cases h : d = j
  · subst h; simp
  · rw [State.setPos_pos_ne s d q j h, if_neg h]
@[simp] theorem State.modPos_pos_same (d : Drive) (f : Positioner → Positioner) : (s.modPos d f).pos d = (f (s.pos d)) := by
  unfold State.modPos; simp
theorem State.modPos_pos_ne (d : Drive) (f : Positioner → Positioner) (j : Drive) (h : d ≠ j) : (s.modPos d f).pos j = s.pos j := by
  unfold State.modPos; exact State.setPos_pos_ne s _ _ j h
theorem State.modPos_pos (d : Drive) (f : Positioner → Positioner) (j : Drive) : (s.modPos d f).pos j = if d = j then (f (s.pos d)) else s.pos j := by
  unfold State.modPos; rw [State.setPos_pos]
@[simp] theorem State.setShare_share_same (d : Drive) (x : Sharing) : (s.setShare d x).share d = x := by simp [State.setShare, State.share]
theorem State.setShare_share_ne (d : Drive) (x : Sharing) (j : Drive) (h : d ≠ j) : (s.setShare d x).share j = s.share j := by
  have h' : (d : Nat) ≠ j := fun e => h (Fin.ext e)
  simp [State.setShare, State.share, h']
theorem State.setShare_share (d : Drive) (x : Sharing) (j : Drive) : (s.setShare d x).share j = if d = j then x else s.share j := by
  by_cases h : d = j
  · subst h; simp
  · rw [State.setShare_share_ne s d x j h, if_neg h]
@[simp] theorem State.modShare_share_same (d : Drive) (f : Sharing → Sharing) : (s.modShare d f).share d = (f (s.share d)) := by
  unfold State.modShare; simp
theorem State.modShare_share_ne (d : Drive) (f : Sharing → Sharing) (j : Drive) (h : d ≠ j) : (s.modShare d f).share j = s.share j := by
  unfold State.modShare; exact State.setShare_share_ne s _ _ j h
theorem State.modShare_share (d : Drive) (f : Sharing → Sharing) (j : Drive) : (s.modShare d f).share j = if d = j then (f (s.share d)) else s.share j := by
  unfold State.modShare; rw [State.setShare_share]
@[simp] theorem State.setQueue_queue_same (p : Port) (q : NoticeQueue) : (s.setQueue p q).queue p = q := by simp [State.setQueue, State.queue]
theorem State.setQueue_queue_ne (p : Port) (q : NoticeQueue) (j : Port) (h : p ≠ j) : (s.setQueue p q).queue j = s.queue j := by
  have h' : (p : Nat) ≠ j := fun e => h (Fin.ext e)
  simp [State.setQueue, State.queue, h']
theorem State.setQueue_queue (p : Port) (q : NoticeQueue) (j : Port) : (s.setQueue p q).queue j = if p = j then q else s.queue j := by
  by_cases h : p = j
  · subst h; simp
  · rw [State.setQueue_queue_ne s p q j h, if_neg h]
@[simp] theorem State.setRecord_record_same (d : Drive) (r : DriveRecord) : (s.setRecord d r).record d = r := by simp [State.setRecord, State.record]
theorem State.setRecord_record_ne (d : Drive) (r : DriveRecord) (j : Drive) (h : d ≠ j) : (s.setRecord d r).record j = s.record j := by
  have h' : (d : Nat) ≠ j := fun e => h (Fin.ext e)
  simp [State.setRecord, State.record, h']
theorem State.setRecord_record (d : Drive) (r : DriveRecord) (j : Drive) : (s.setRecord d r).record j = if d = j then r else s.record j := by
  by_cases h : d = j
  · subst h; simp
  · rw [State.setRecord_record_ne s d r j h, if_neg h]
@[simp] theorem State.setPath_path_same (n : PathNo) (x : Option PathHold) : (s.setPath n x).path n = x := by simp [State.setPath, State.path]
theorem State.setPath_path_ne (n : PathNo) (x : Option PathHold) (j : PathNo) (h : n ≠ j) : (s.setPath n x).path j = s.path j := by
  have h' : (n : Nat) ≠ j := fun e => h (Fin.ext e)
  simp [State.setPath, State.path, h']
theorem State.setPath_path (n : PathNo) (x : Option PathHold) (j : PathNo) : (s.setPath n x).path j = if n = j then x else s.path j := by
  by_cases h : n = j
  · subst h; simp
  · rw [State.setPath_path_ne s n x j h, if_neg h]
@[simp] theorem State.setFinish_finish_same (d : Drive) (f : Option Finishing) : (s.setFinish d f).finish d = f := by simp [State.setFinish, State.finish]
theorem State.setFinish_finish_ne (d : Drive) (f : Option Finishing) (j : Drive) (h : d ≠ j) : (s.setFinish d f).finish j = s.finish j := by
  have h' : (d : Nat) ≠ j := fun e => h (Fin.ext e)
  simp [State.setFinish, State.finish, h']
theorem State.setFinish_finish (d : Drive) (f : Option Finishing) (j : Drive) : (s.setFinish d f).finish j = if d = j then f else s.finish j := by
  by_cases h : d = j
  · subst h; simp
  · rw [State.setFinish_finish_ne s d f j h, if_neg h]

end Sys2Proof.Machine
end

