-- ==== Sys2Proof/Laws/Joined.lean ====
section
/-! SUPPORT. The laws that join blocks, in proofs: when a change keeps the agreement of ports, connections, offers and paths
(`State.Joined`), and when a change of the spare map keeps its entries apart. -/

namespace Sys2Proof.Machine

open Sys2Proof

/-! ## Ports and paths -/

/-- What a port takes part in: its state, its connection and its offer (R142). -/
def PortRec.stance (r : PortRec) : PortState × Option Conn × Option Offer := (r.state, r.conn, r.offer.map Prod.fst)

theorem PortRec.agrees_of_stance {r x : PortRec} (h : x.stance = r.stance) : x.agrees = r.agrees := by
  simp only [PortRec.stance, Prod.mk.injEq] at h
  have ho : x.offer.isSome = r.offer.isSome := by simpa using congrArg Option.isSome h.2.2
  rw [PortRec.agrees, PortRec.agrees, h.1, h.2.1, ho]

theorem PortRec.agrees_iff (r : PortRec) :
    r.agrees = true ↔ (r.conn.isSome = true ↔ r.state = .connected) ∧ (r.offer.isSome = true ↔ r.state = .offering) := by
  unfold PortRec.agrees
  cases r.conn <;> cases r.offer <;> cases r.state <;> simp

/-- A port in no connection and without an offer, in a state that has neither. -/
theorem PortRec.agrees_bare {r : PortRec} (hc : r.conn = none) (ho : r.offer = none) (h1 : r.state ≠ .connected)
    (h2 : r.state ≠ .offering) : r.agrees = true := by simp [PortRec.agrees, hc, ho, h1, h2]

theorem PortRec.conn_none {r : PortRec} (h : r.agrees = true) (hs : r.state ≠ .connected) : r.conn = none := by
  cases hc : r.conn with
  | none => rfl
  | some c => exact absurd ((r.agrees_iff.mp h).1.mp (by rw [hc]; rfl)) hs

theorem PortRec.offer_none {r : PortRec} (h : r.agrees = true) (hs : r.state ≠ .offering) : r.offer = none := by
  cases hc : r.offer with
  | none => rfl
  | some c => exact absurd ((r.agrees_iff.mp h).2.mp (by rw [hc]; rfl)) hs

/-- A port in no connection and with no RECONNECT offered has no path held for it. -/
theorem State.Joined.noPath {s : State} (h : s.Joined) {p : Port} (hc : (s.port p).conn = none)
    (ho : ∀ d, (s.port p).offer.map Prod.fst ≠ some (.reconnect d)) (n : PathNo) (x : PathHold) (e : s.path n = some x) :
    x.port ≠ some p := by
  intro hx
  rcases h.linked n x p e hx with h1 | h1
  · rw [hc] at h1; cases h1
  · exact ho _ h1

theorem State.usesPath_iff (s : State) (d : Drive) (n : PathNo) :
    s.usesPath d n = true ↔ ∃ x, s.path n = some x ∧ x.drive = d ∧ ∀ p, x.port = some p →
      (s.port p).offer.map Prod.fst = some (.reconnect d) ∨ (s.op d).bind Operation.conn = some p := by
  unfold State.usesPath
  cases s.path n with
  | none => simp
  | some x => cases hp : x.port <;> simp [hp]

/-- A change keeps the laws of ports and paths if no path is newly held, no operation newly connected, and each port's state,
connection and offer agree after it, as they were or with no path held for the port. -/
theorem State.Joined.of {s t : State} (h : s.Joined)
    (hp : ∀ p, (t.port p).stance = (s.port p).stance ∨ ((t.port p).agrees = true ∧
      (((t.port p).conn = (s.port p).conn ∧ (t.port p).offer.map Prod.fst = (s.port p).offer.map Prod.fst) ∨
        ∀ n x, t.path n = some x → x.port ≠ some p)))
    (ho : ∀ d p, (t.op d).bind Operation.conn = some p → (s.op d).bind Operation.conn = some p)
    (hn : ∀ n x, t.path n = some x → s.path n = some x) : t.Joined := by
  have key : ∀ p, ((t.port p).conn = (s.port p).conn ∧ (t.port p).offer.map Prod.fst = (s.port p).offer.map Prod.fst) ∨
      ∀ n x, t.path n = some x → x.port ≠ some p := by
    intro p
    rcases hp p with e | ⟨_, e⟩
    · simp only [PortRec.stance, Prod.mk.injEq] at e; exact .inl e.2
    · exact e
  refine ⟨fun p => ?_, fun n x p e hx => ?_, fun d n m hn1 hm1 => ?_⟩
  · rcases hp p with e | ⟨e, _⟩
    · rw [PortRec.agrees_of_stance e]; exact h.agree p
    · exact e
  · rcases key p with ⟨e1, e2⟩ | e1
    · rw [e1, e2]; exact h.linked n x p (hn n x e) hx
    · exact absurd hx (e1 n x e)
  · have up : ∀ n, t.usesPath d n = true → s.usesPath d n = true := by
      intro n hu
      obtain ⟨x, e, hd, hx⟩ := (State.usesPath_iff t d n).mp hu
      refine (State.usesPath_iff s d n).mpr ⟨x, hn n x e, hd, fun p hxp => ?_⟩
      rcases key p with ⟨_, e2⟩ | e1
      · rcases hx p hxp with h1 | h1
        · exact .inl (e2 ▸ h1)
        · exact .inr (ho d p h1)
      · exact absurd hxp (e1 n x e)
    exact h.onePath d n m (up n hn1) (up m hm1)

/-- A change of other blocks than ports, operations and paths. -/
theorem State.Joined.same {s t : State} (h : s.Joined) (hp : t.ports = s.ports) (ho : t.ops = s.ops) (hn : t.paths = s.paths) :
    t.Joined := by
  refine h.of (fun p => .inl ?_) (fun d p e => ?_) (fun n x e => ?_)
  · unfold State.port; rw [hp]
  · unfold State.op at e ⊢; rw [← ho]; exact e
  · unfold State.path at e ⊢; rw [← hn]; exact e

/-- A path that is held after some have become FREE was held before. -/
theorem State.freePaths_path {s : State} {held : PathHold → Bool} {n : PathNo} {x : PathHold}
    (e : (s.freePaths held).path n = some x) : s.path n = some x ∧ held x = false := by
  unfold State.path State.freePaths at e
  simp only [Fin.getElem_fin, Vector.getElem_map] at e
  unfold State.path
  split at e
  · rename_i y hy
    split at e
    · cases e
    · rename_i hh; cases e; exact ⟨hy, by simpa using hh⟩
  · cases e

theorem State.freePathOfPort_path {s : State} {p : Port} {n : PathNo} {x : PathHold}
    (e : (s.freePathOfPort p).path n = some x) : s.path n = some x ∧ x.port ≠ some p := by
  have := State.freePaths_path e
  exact ⟨this.1, by simpa using this.2⟩

/-- A port changes what it takes part in, and the path held for it becomes FREE (R74). -/
theorem State.Joined.freed {s : State} (h : s.Joined) (p : Port) (f : PortRec → PortRec) (hf : (f (s.port p)).agrees = true) :
    ((s.modPort p f).freePathOfPort p).Joined := by
  refine h.of (fun q => ?_) (fun _ _ e => e) (fun _ _ e => (State.freePathOfPort_path e).1)
  have hq : ((s.modPort p f).freePathOfPort p).port q = if p = q then f (s.port p) else s.port q := State.modPort_port s p f q
  rw [hq]
  split
  · subst_vars; exact .inr ⟨hf, .inr fun _ _ e => (State.freePathOfPort_path e).2⟩
  · exact .inl rfl

/-! ## The spare map -/

theorem SpareEntry.holds_iff (e : SpareEntry) (q : Track) : e.holds q = true ↔ q ∈ e.alternates := by
  simp only [SpareEntry.holds, SpareEntry.alternates, Bool.or_eq_true, decide_eq_true_eq, List.mem_append, Option.mem_toList]

theorem SpareEntry.isFor_iff (e : SpareEntry) (d : Drive) (t : Track) : e.isFor d t = true ↔ e.drive = d ∧ e.home = t := by
  simp [SpareEntry.isFor]

theorem SpareEntry.apart_symm {x y : SpareEntry} (h : x.apart y) : y.apart x := by
  intro e
  obtain ⟨h1, h2⟩ := h e.symm
  exact ⟨fun h => h1 h.symm, fun q hy hx => h2 q hx hy⟩

/-- One entry changed: the entries stay apart if it keeps its drive and home track and takes no alternate of another. -/
theorem apart_modEntry {l : List SpareEntry} (d : Drive) (t : Track) (f : SpareEntry → SpareEntry)
    (hf : ∀ e, (f e).drive = e.drive ∧ (f e).home = e.home)
    (ha : ∀ e ∈ l, ∀ q ∈ (f e).alternates, q ∈ e.alternates ∨ ∀ x ∈ l, x.drive = d → x.home ≠ t → q ∉ x.alternates)
    (h : l.Pairwise SpareEntry.apart) : (l.map fun e => if e.isFor d t then f e else e).Pairwise SpareEntry.apart := by
  rw [List.pairwise_map]
  refine h.imp_of_mem fun {a b} hma hmb hab => ?_
  have one : ∀ {a b : SpareEntry}, a ∈ l → b ∈ l → a.apart b → a.isFor d t = true → b.isFor d t = false → (f a).apart b := by
    intro a b hma hmb hab h1 h2
    rw [SpareEntry.isFor_iff] at h1
    intro e
    rw [(hf a).1] at e
    obtain ⟨hh, hq⟩ := hab e
    rw [(hf a).2]
    refine ⟨hh, fun q hqa => ?_⟩
    rcases ha a hma q hqa with h3 | h3
    · exact hq q h3
    · exact h3 b hmb (e ▸ h1.1) (fun hb => hh (h1.2.trans hb.symm))
  cases h1 : a.isFor d t <;> cases h2 : b.isFor d t <;> simp only [if_true, Bool.false_eq_true, if_false]
  · exact hab
  · exact SpareEntry.apart_symm (one hmb hma (SpareEntry.apart_symm hab) h2 h1)
  · exact one hma hmb hab h1 h2
  · rw [SpareEntry.isFor_iff] at h1 h2
    exact absurd (h1.2.trans h2.2.symm) (hab (h1.1.trans h2.1.symm)).1

/-- No entry but t's own holds q. -/
theorem State.heldElsewhere_false {s : State} {d : Drive} {t q : Track} (h : s.heldElsewhere d t q = false) (x : SpareEntry)
    (hx : x ∈ s.spareMap) (hd : x.drive = d) (ht : x.home ≠ t) : q ∉ x.alternates := by
  intro hq
  unfold State.heldElsewhere at h
  rw [List.any_eq_false] at h
  exact h x hx (by simp [hd, ht, (SpareEntry.holds_iff x q).mpr hq])

theorem State.entryFor_none {s : State} {d : Drive} {t : Track} (h : s.entryFor d t = none) (x : SpareEntry)
    (hx : x ∈ s.spareMap) (hd : x.drive = d) : x.home ≠ t := by
  intro ht
  have := List.find?_eq_none.mp h x hx
  exact this ((SpareEntry.isFor_iff x d t).mpr ⟨hd, ht⟩)

/-- A new entry joins: no entry of its drive has its home track or its alternates. -/
theorem apart_append {l : List SpareEntry} (e : SpareEntry) (h : l.Pairwise SpareEntry.apart)
    (hn : ∀ x ∈ l, x.apart e) : (l ++ [e]).Pairwise SpareEntry.apart := by
  refine List.pairwise_append.mpr ⟨h, by simp, ?_⟩
  intro x hx y hy
  rw [List.mem_singleton] at hy
  subst hy
  exact hn x hx

end Sys2Proof.Machine
end

