-- ==== Sys2Proof/Laws/Kept.lean ====
section
/-! SUPPORT. What the operations of the unit keep: the items that only few commands may change, and the laws of one block.
`Kept k s` says both; each shared operation has one lemma that it keeps them (Laws/Keeps.lean). -/

namespace Sys2Proof.Machine

open Sys2Proof

/-- The items that an ordinary operation of the unit leaves alone: settings of the ports, tables, spindle and write-protect
state, the queue, the timebase; with the least each cursor may be (none goes back). -/
structure Frame where
  /-- whether the laws of one block are to hold -/
  lawful : Prop
  /-- whether the laws of ports and paths are to hold -/
  joint : Prop
  powered : Bool
  pending : List Instr
  types : Vector (Option DriveType) 4
  now : Nat
  straps : Port → Straps
  group : Port → Nat
  mask : Port → Bool × Bool
  angle : Drive → Option Nat
  protect : Drive → Bool
  table : Drive → Bool × TypeNo × Bool
  cursor : Drive → Nat
  /-- the drives that are to stay without an operation in flight -/
  idle : Drive → Prop

/-- The settings of a port that only its own orders and resets change. -/
def PortRec.settings (r : PortRec) : Straps × Nat × Bool × Bool :=
  (r.straps, r.group, r.maskStateChange, r.maskSpareAdvised)

/-- The frame of a state. -/
def State.frame (s : State) : Frame :=
  { lawful := s.Sound
    joint := s.Joined
    powered := s.powered
    pending := s.pending
    types := s.types
    now := s.now
    straps := fun p => (s.port p).straps
    group := fun p => (s.port p).group
    mask := fun p => ((s.port p).maskStateChange, (s.port p).maskSpareAdvised)
    angle := fun d => (s.pos d).angle
    protect := fun d => (s.pos d).writeProtect
    table := fun d => ((s.record d).configured, (s.record d).typeNo, (s.record d).writePermitted)
    cursor := fun d => (s.record d).cursor
    idle := fun d => s.op d = none }

/-- The frame is k's, with the cursors no lower; no operation has begun on a drive that k has idle (R160); and the laws of one
block hold where k asks for them. -/
structure Kept (k : Frame) (s : State) : Prop where
  powered : s.powered = k.powered
  pending : s.pending = k.pending
  types : s.types = k.types
  now : s.now = k.now
  settings : ∀ p, (s.port p).settings = (k.straps p, k.group p, k.mask p)
  angle : ∀ d, (s.pos d).angle = k.angle d
  protect : ∀ d, (s.pos d).writeProtect = k.protect d
  table : ∀ d, ((s.record d).configured, (s.record d).typeNo, (s.record d).writePermitted) = k.table d
  cursor : ∀ d, k.cursor d ≤ (s.record d).cursor
  opened : ∀ d, k.idle d → s.op d = none
  sound : k.lawful → s.Sound
  joined : k.joint → s.Joined

/-- Every state keeps its own frame. -/
theorem State.frame_kept (s : State) : Kept s.frame s :=
  ⟨rfl, rfl, rfl, rfl, fun _ => rfl, fun _ => rfl, fun _ => rfl, fun _ => rfl, fun _ => Nat.le_refl _, fun _ h => h, fun h => h, fun h => h⟩

variable {k : Frame} {s : State}

/-! ## Primitive updates -/

/-- The frame without the laws of ports and paths, for the steps between which they do not hold. -/
def Frame.loose (k : Frame) : Frame := { k with joint := False }

theorem Kept.loosen (h : Kept k s) : Kept k.loose s :=
  ⟨h.powered, h.pending, h.types, h.now, h.settings, h.angle, h.protect, h.table, h.cursor, h.opened, h.sound, False.elim⟩

/-- The laws of ports and paths hold again. -/
theorem Kept.rejoin (h : Kept k.loose s) (hj : k.joint → s.Joined) : Kept k s :=
  ⟨h.powered, h.pending, h.types, h.now, h.settings, h.angle, h.protect, h.table, h.cursor, h.opened, h.sound, hj⟩

theorem State.modPort_loose (h : Kept k s) (p : Port) (f : PortRec → PortRec) (hf : ∀ r, (f r).settings = r.settings)
    (hv : (f (s.port p)).overflow = true → (s.port p).overflow = true ∨ (s.queue p).notices ≠ [] := by exact Or.inl)
    (hb : (s.port p).bufferSound → (f (s.port p)).bufferSound := by exact fun h => h) : Kept k.loose (s.modPort p f) := by
  refine ⟨h.powered, h.pending, h.types, h.now, fun q => ?_, h.angle, h.protect, h.table, h.cursor, h.opened,
    fun hl => { h.sound hl with overflow := fun q => ?_, buffers := fun q => ?_ }, False.elim⟩
  · rw [State.modPort_port]
    split
    · subst_vars; rw [hf]; exact h.settings _
    · exact h.settings q
  · rw [State.modPort_port]
    split
    · subst_vars; exact fun e => (hv e).elim ((h.sound hl).overflow _) id
    · exact (h.sound hl).overflow q
  · rw [State.modPort_port]
    split
    · subst_vars; exact hb ((h.sound hl).buffers _)
    · exact (h.sound hl).buffers q

/-- A port's items beside its state, its connection and its offer (R142). -/
theorem State.modPort_kept (h : Kept k s) (p : Port) (f : PortRec → PortRec) (hf : ∀ r, (f r).settings = r.settings)
    (hs : ∀ r, (f r).stance = r.stance := by intro r; rfl)
    (hv : (f (s.port p)).overflow = true → (s.port p).overflow = true ∨ (s.queue p).notices ≠ [] := by exact Or.inl)
    (hb : (s.port p).bufferSound → (f (s.port p)).bufferSound := by exact fun h => h) : Kept k (s.modPort p f) := by
  refine (State.modPort_loose h p f hf hv hb).rejoin fun hj => (h.joined hj).of (fun q => .inl ?_) (fun _ _ e => e) (fun _ _ e => e)
  rw [State.modPort_port]
  split
  · subst_vars; exact hs _
  · rfl

/-- A port whose state, connection and offer change, with no path held for it. -/
theorem State.modPort_kept_of (h : Kept k s) (p : Port) (f : PortRec → PortRec) (hf : ∀ r, (f r).settings = r.settings)
    (ha : k.joint → (f (s.port p)).agrees = true) (hn : k.joint → ∀ n x, s.path n = some x → x.port ≠ some p)
    (hv : (f (s.port p)).overflow = true → (s.port p).overflow = true ∨ (s.queue p).notices ≠ [] := by exact Or.inl)
    (hb : (s.port p).bufferSound → (f (s.port p)).bufferSound := by exact fun h => h) : Kept k (s.modPort p f) := by
  refine (State.modPort_loose h p f hf hv hb).rejoin fun hj => (h.joined hj).of (fun q => ?_) (fun _ _ e => e) (fun _ _ e => e)
  rw [State.modPort_port]
  split
  · subst_vars; exact .inr ⟨ha hj, .inr (hn hj)⟩
  · exact .inl rfl

theorem State.setOp_loose (h : Kept k s) (d : Drive) (o : Option Operation) (hm : k.lawful → missSound o)
    (ho : k.lawful → (s.share d).hold.isSome = true → o = none) (hi : k.idle d → o = none) : Kept k.loose (s.setOp d o) := by
  refine ⟨h.powered, h.pending, h.types, h.now, h.settings, h.angle, h.protect, h.table, h.cursor, fun e he => ?_,
    fun hl => { h.sound hl with miss := fun e => ?_, holds := fun e => ?_ }, False.elim⟩
  · rw [State.setOp_op]
    split
    · subst_vars; exact hi he
    · exact h.opened e he
  · rw [State.setOp_op]
    split
    · exact hm hl
    · exact (h.sound hl).miss e
  · intro hh
    rw [State.setOp_op]
    split
    · subst_vars; exact ho hl hh
    · exact (h.sound hl).holds e hh

/-- An operation that is not newly connected. -/
theorem State.setOp_kept (h : Kept k s) (d : Drive) (o : Option Operation) (hm : k.lawful → missSound o)
    (ho : k.lawful → (s.share d).hold.isSome = true → o = none)
    (hc : ∀ p, o.bind Operation.conn = some p → (s.op d).bind Operation.conn = some p) (hi : k.idle d → o = none) :
    Kept k (s.setOp d o) := by
  refine (State.setOp_loose h d o hm ho hi).rejoin fun hj => (h.joined hj).of (fun _ => .inl rfl) (fun e p he => ?_) (fun _ _ e => e)
  rw [State.setOp_op] at he
  split at he
  · subst_vars; exact hc p he
  · exact he

/-- An operation in flight stays one: no hold stands beside it. -/
theorem State.setOp_some_kept (h : Kept k s) (d : Drive) {o : Operation} (o' : Operation) (e : s.op d = some o)
    (hm : k.lawful → o'.miss ≤ 15) (hc : o'.conn = o.conn) : Kept k (s.setOp d (some o')) := by
  refine State.setOp_kept h d _ (fun hl x hx => by cases hx; exact hm hl) (fun hl hh => ?_) (fun p hp => ?_)
    (fun hi => absurd (e.symm.trans (h.opened d hi)) (by simp))
  · have := (h.sound hl).holds d hh
    rw [e] at this
    exact absurd this (by simp)
  · rw [e]
    exact hc.symm.trans hp

theorem State.discardOp_kept (h : Kept k s) (d : Drive) : Kept k (s.discardOp d) :=
  State.setOp_kept h d none (fun _ x hx => by cases hx) (fun _ _ => rfl) (fun _ hp => by cases hp) (fun _ => rfl)

theorem State.modOp_kept (h : Kept k s) (d : Drive) (f : Operation → Operation)
    (hf : ∀ o, o.miss ≤ 15 → (f o).miss ≤ 15)
    (hc : ∀ o, (f o).conn = o.conn ∨ (f o).conn = none := by exact fun _ => Or.inl rfl) : Kept k (s.modOp d f) := by
  refine State.setOp_kept h d _ ?_ (fun hl hh => by rw [(h.sound hl).holds d hh]; rfl) ?_ (fun hi => by rw [h.opened d hi]; rfl)
  · intro hl x hx
    obtain ⟨o, ho, rfl⟩ := Option.map_eq_some_iff.mp hx
    exact hf o ((h.sound hl).miss d o ho)
  · intro p hp
    cases ho : s.op d with
    | none => rw [ho] at hp; exact hp
    | some o =>
      rw [ho] at hp
      rcases hc o with e | e
      · exact e.symm.trans hp
      · have : (f o).conn = some p := hp
        rw [e] at this; cases this

theorem State.modPos_kept (h : Kept k s) (d : Drive) (f : Positioner → Positioner)
    (hf : ∀ q, (f q).angle = q.angle ∧ (f q).writeProtect = q.writeProtect ∧ (q.unanswered ≤ 2 → (f q).unanswered ≤ 2)) :
    Kept k (s.modPos d f) := by
  have hd := hf (s.pos d)
  refine ⟨h.powered, h.pending, h.types, h.now, h.settings, fun e => ?_, fun e => ?_, h.table, h.cursor, h.opened,
    fun hl => { h.sound hl with unanswered := fun e => ?_, counters := fun e hc a ha => ?_ },
    fun hj => (h.joined hj).same rfl rfl rfl⟩
  · rw [State.modPos_pos]
    split
    · subst_vars; rw [hd.1]; exact h.angle _
    · exact h.angle e
  · rw [State.modPos_pos]
    split
    · subst_vars; rw [hd.2.1]; exact h.protect _
    · exact h.protect e
  · rw [State.modPos_pos]
    split
    · exact hd.2.2 ((h.sound hl).unanswered d)
    · exact (h.sound hl).unanswered e
  · refine (h.sound hl).counters e hc a ?_
    rw [State.modPos_pos] at ha
    split at ha
    · subst_vars; rw [hd.1] at ha; exact ha
    · exact ha

theorem State.setShare_kept (h : Kept k s) (d : Drive) (x : Sharing) (hx : k.lawful → x.hold.isSome = true → s.op d = none) :
    Kept k (s.setShare d x) := by
  refine ⟨h.powered, h.pending, h.types, h.now, h.settings, h.angle, h.protect, h.table, h.cursor, h.opened,
    fun hl => { h.sound hl with holds := fun e => ?_ },
    fun hj => (h.joined hj).same rfl rfl rfl⟩
  intro hh
  rw [State.setShare_share] at hh
  split at hh
  · subst_vars; exact hx hl hh
  · exact (h.sound hl).holds e hh

theorem State.modShare_kept (h : Kept k s) (d : Drive) (f : Sharing → Sharing)
    (hf : ∀ x, (f x).hold.isSome = true → x.hold.isSome = true) : Kept k (s.modShare d f) :=
  State.setShare_kept h d _ fun hl hh => (h.sound hl).holds d (hf _ hh)

theorem State.setQueue_kept (h : Kept k s) (p : Port) (q : NoticeQueue) (hq : k.lawful → q.sound)
    (hv : k.lawful → (s.port p).overflow = true → q.notices ≠ []) : Kept k (s.setQueue p q) := by
  refine ⟨h.powered, h.pending, h.types, h.now, h.settings, h.angle, h.protect, h.table, h.cursor, h.opened,
    fun hl => { h.sound hl with queues := fun r => ?_, overflow := fun r hr => ?_ }, fun hj => (h.joined hj).same rfl rfl rfl⟩
  · rw [State.setQueue_queue]
    split
    · exact hq hl
    · exact (h.sound hl).queues r
  · rw [State.setQueue_queue]
    split
    · subst_vars; exact hv hl hr
    · exact (h.sound hl).overflow r hr

/-- The presentation hold of a queue changed. -/
theorem State.setHeld_kept (h : Kept k s) (p : Port) (b : Bool) :
    Kept k (s.setQueue p { s.queue p with held := b }) := 
  State.setQueue_kept h p _ (fun hl => (h.sound hl).queues p) fun hl => (h.sound hl).overflow p

/-- A queue is emptied when its overflow flag is CLEAR (R178). -/
theorem State.emptyQueue_kept (h : Kept k s) (p : Port) (b : Bool) (hv : (s.port p).overflow = false) :
    Kept k (s.setQueue p { notices := [], held := b }) :=
  State.setQueue_kept h p _ (fun _ => ⟨by simp, by simp⟩) fun _ e => by rw [hv] at e; cases e

theorem State.setPath_loose (h : Kept k s) (n : PathNo) (x : Option PathHold) : Kept k.loose (s.setPath n x) :=
  ⟨h.powered, h.pending, h.types, h.now, h.settings, h.angle, h.protect, h.table, h.cursor, h.opened,
    fun hl => { h.sound hl with }, False.elim⟩

theorem State.freePaths_kept (h : Kept k s) (f : PathHold → Bool) : Kept k (s.freePaths f) :=
  ⟨h.powered, h.pending, h.types, h.now, h.settings, h.angle, h.protect, h.table, h.cursor, h.opened,
    fun hl => { h.sound hl with },
    fun hj => (h.joined hj).of (fun _ => .inl rfl) (fun _ _ e => e) (fun _ _ e => (State.freePaths_path e).1)⟩

theorem State.setFinish_kept (h : Kept k s) (d : Drive) (f : Option Finishing) : Kept k (s.setFinish d f) :=
  ⟨h.powered, h.pending, h.types, h.now, h.settings, h.angle, h.protect, h.table, h.cursor, h.opened,
    fun hl => { h.sound hl with }, fun hj => (h.joined hj).same rfl rfl rfl⟩

theorem State.lastAlt_kept (h : Kept k s) (x : Option AltResult) : Kept k { s with lastAlt := x } :=
  ⟨h.powered, h.pending, h.types, h.now, h.settings, h.angle, h.protect, h.table, h.cursor, h.opened,
    fun hl => { h.sound hl with }, fun hj => (h.joined hj).same rfl rfl rfl⟩

theorem State.due_kept (h : Kept k s) (x : Option Drive) : Kept k { s with due := x } :=
  ⟨h.powered, h.pending, h.types, h.now, h.settings, h.angle, h.protect, h.table, h.cursor, h.opened,
    fun hl => { h.sound hl with }, fun hj => (h.joined hj).same rfl rfl rfl⟩

theorem State.choices_kept (h : Kept k s) (n : Nat) : Kept k { s with choices := n } :=
  ⟨h.powered, h.pending, h.types, h.now, h.settings, h.angle, h.protect, h.table, h.cursor, h.opened,
    fun hl => { h.sound hl with }, fun hj => (h.joined hj).same rfl rfl rfl⟩

/-- The frame so many milliseconds later. -/
def Frame.later (k : Frame) (n : Nat) : Frame := { k with now := k.now + n }

theorem State.now_kept (h : Kept k s) (n : Nat) : Kept (k.later n) { s with now := s.now + n } :=
  ⟨h.powered, h.pending, h.types, congrArg (· + n) h.now, h.settings, h.angle, h.protect, h.table, h.cursor, h.opened,
    fun hl => { h.sound hl with }, fun hj => (h.joined hj).same rfl rfl rfl⟩

theorem State.spareMap_kept (h : Kept k s) (m : List SpareEntry) (hm : k.lawful → m.length ≤ 96)
    (ha : k.lawful → m.Pairwise SpareEntry.apart) (hp : k.lawful → ∀ e ∈ m, s.inPlace e) : Kept k { s with spareMap := m } :=
  ⟨h.powered, h.pending, h.types, h.now, h.settings, h.angle, h.protect, h.table, h.cursor, h.opened,
    fun hl => { h.sound hl with map := hm hl, apart := ha hl, inPlace := hp hl }, fun hj => (h.joined hj).same rfl rfl rfl⟩

theorem State.suspects_kept (h : Kept k s) (l : List Suspect) (hs : k.lawful → suspectsSound l) :
    Kept k { s with suspects := l } :=
  ⟨h.powered, h.pending, h.types, h.now, h.settings, h.angle, h.protect, h.table, h.cursor, h.opened,
    fun hl => { h.sound hl with suspects := hs hl }, fun hj => (h.joined hj).same rfl rfl rfl⟩

/-- The laws of one block stand where the configured flags and the loaded types that the records name do. -/
theorem State.Sound.retable {s t : State} (h : s.Sound) (hq : t.queues = s.queues) (hs : t.suspects = s.suspects)
    (hm : t.spareMap = s.spareMap) (ho : t.ops = s.ops) (hx : t.sharing = s.sharing) (hp : t.ports = s.ports)
    (hn : t.positioners = s.positioners) (ht : t.types = s.types)
    (hc : ∀ d, (t.record d).configured = (s.record d).configured ∧ t.loadedType d = s.loadedType d) : t.Sound := by
  have hy : ∀ d, t.typeOf d = s.typeOf d := fun d => by unfold State.typeOf; rw [(hc d).2]
  refine ⟨fun p => ?_, hs ▸ h.suspects, hm ▸ h.map, hm ▸ h.apart, fun d => ?_, fun d => ?_, fun d => ?_, fun p => ?_, fun p => ?_,
    fun e he => ?_, ht ▸ h.sectors, fun d hd => ?_, fun d hd a ha => ?_⟩
  · unfold State.queue; rw [hq]; exact h.queues p
  · unfold State.op; rw [ho]; exact h.miss d
  · unfold State.pos; rw [hn]; exact h.unanswered d
  · unfold State.holdAlone State.op State.share; rw [ho, hx]; exact h.holds d
  · unfold State.queue State.port; rw [hq, hp]; exact h.overflow p
  · unfold State.port; rw [hp]; exact h.buffers p
  · obtain ⟨h1, h2, h3⟩ := h.inPlace e (hm ▸ he)
    exact ⟨(hc _).1.trans h1, (hy _).symm ▸ h2, fun q hq => (hy _).symm ▸ h3 q hq⟩
  · rw [(hc d).2]; exact h.loaded d ((hc d).1 ▸ hd)
  · rw [hy]
    refine h.counters d ((hc d).1 ▸ hd) a ?_
    unfold State.pos at ha ⊢; rw [← hn]; exact ha

/-- The cursor of a record moves up (R20). -/
theorem State.cursorUp_kept (h : Kept k s) (d : Drive) (n : Nat) (hn : (s.record d).cursor ≤ n) :
    Kept k (s.setRecord d { s.record d with cursor := n }) := by
  have hr : ∀ e, ((s.setRecord d { s.record d with cursor := n }).record e).configured = (s.record e).configured ∧
      ((s.setRecord d { s.record d with cursor := n }).record e).typeNo = (s.record e).typeNo := by
    intro e
    rw [State.setRecord_record]
    split
    · subst_vars; exact ⟨rfl, rfl⟩
    · exact ⟨rfl, rfl⟩
  refine ⟨h.powered, h.pending, h.types, h.now, h.settings, h.angle, h.protect, fun e => ?_, fun e => ?_, h.opened,
    fun hl => (h.sound hl).retable rfl rfl rfl rfl rfl rfl rfl rfl fun e => ⟨(hr e).1, ?_⟩,
    fun hj => (h.joined hj).same rfl rfl rfl⟩
  · rw [State.setRecord_record]
    split
    · subst_vars; exact h.table _
    · exact h.table e
  · rw [State.setRecord_record]
    split
    · subst_vars; exact Nat.le_trans (h.cursor _) hn
    · exact h.cursor e
  · exact congrArg (fun n : TypeNo => s.types[n]) (hr e).2

/-! ## Folds and choices -/

theorem foldl_kept {α : Type} (f : State → α → State) (hf : ∀ s x, Kept k s → Kept k (f s x)) (l : List α) :
    ∀ s, Kept k s → Kept k (l.foldl f s) := by
  induction l with
  | nil => exact fun _ h => h
  | cons x l ih => exact fun s h => ih _ (hf s x h)

theorem State.forPorts_kept (h : Kept k s) (f : State → Port → State) (hf : ∀ s p, Kept k s → Kept k (f s p)) :
    Kept k (s.forPorts f) := foldl_kept f hf _ s h

theorem State.forDrives_kept (h : Kept k s) (f : State → Drive → State) (hf : ∀ s d, Kept k s → Kept k (f s d)) :
    Kept k (s.forDrives f) := foldl_kept f hf _ s h

end Sys2Proof.Machine
end

