-- ==== Sys2Proof/Laws/Keeps.lean ====
section
/-! SUPPORT. Each shared operation of the unit keeps the frame and the laws of one block: one lemma an operation. -/

namespace Sys2Proof.Machine

open Sys2Proof

variable {K : Frame} {s : State}

/-! ## Port buffers (R152) -/

/-- A buffer and its requests that are no more than before. -/
theorem PortRec.bufferSound.le {r x : PortRec} (h : r.bufferSound) (hl : x.slots ≤ r.slots) (hh : x.held.length ≤ r.held.length)
    (hr : x.requests.length ≤ r.requests.length) : x.bufferSound := by
  unfold PortRec.bufferSound PortRec.bufferCount at *
  omega

/-- A frame other than DATA takes no slot. -/
theorem PortRec.slots_push (r : PortRec) (f : OutFrame) (hf : f.isData = false) :
    ({ r with link := r.link ++ [f] } : PortRec).slots = r.slots := by simp [PortRec.slots, List.filter_append, hf]

theorem PortRec.slots_pushData (r : PortRec) (f : OutFrame) (hf : f.isData = true) :
    ({ r with link := r.link ++ [f] } : PortRec).slots = r.slots + 1 := by simp [PortRec.slots, List.filter_append, hf]

/-- A link that is a part of another has no more DATA frames. -/
theorem slots_sublist {l m : List OutFrame} (h : l.Sublist m) :
    (l.filter OutFrame.isData).length ≤ (m.filter OutFrame.isData).length := (h.filter _).length_le

theorem dropData_slots (l : List OutFrame) : (dropData l).filter OutFrame.isData = [] := by
  simp [dropData, List.filter_filter]

theorem afterConnection_slots (l : List OutFrame) : (afterConnection l).filter OutFrame.isData = [] := by
  induction l with
  | nil => rfl
  | cons f l ih => cases f <;> simpa [afterConnection, OutFrame.isData] using ih

/-- What is left of a connection that has ended: STATUS frames with DISCONNECT that end nothing, and OFFER frames that stood. -/
theorem mem_afterConnection {l : List OutFrame} {f : OutFrame} (h : f ∈ afterConnection l) :
    (∃ a st e, .status a st e ∈ l ∧ f = .status a st.disc false) ∨ ∃ a o, .offer a o ∈ l ∧ f = .offer a o := by
  induction l with
  | nil => cases h
  | cons g l ih =>
    cases g <;> simp only [afterConnection, List.mem_cons] at h ⊢ <;> grind

/-- The oldest frame leaves. -/
theorem PortRec.slots_tail {r : PortRec} {f : OutFrame} {rest : List OutFrame} (e : r.link = f :: rest) :
    (rest.filter OutFrame.isData).length ≤ r.slots := by
  unfold PortRec.slots
  rw [e]
  exact slots_sublist (List.sublist_cons_self _ _)

/-- A buffer without frames and requests. -/
theorem PortRec.bufferSound_empty {r : PortRec} (hl : r.link.filter OutFrame.isData = []) (hh : r.held = []) (hr : r.requests = []) :
    r.bufferSound := by simp [PortRec.bufferSound, PortRec.bufferCount, PortRec.slots, hl, hh, hr]

/-! ## Notices -/

/-- R177 keeps a queue's law: at most 12 notices, all different. -/
theorem dropOldest_sublist (q q' : List Notice) (h : dropOldestSpareAdvised q = some q') :
    q'.Sublist q ∧ q'.length + 1 = q.length := by
  induction q generalizing q' with
  | nil => simp [dropOldestSpareAdvised] at h
  | cons n rest ih =>
    simp only [dropOldestSpareAdvised] at h
    split at h
    · cases h; exact ⟨List.sublist_cons_self _ _, rfl⟩
    · obtain ⟨r, hr, rfl⟩ := Option.map_eq_some_iff.mp h
      have := ih r hr
      exact ⟨this.1.cons_cons _, by simp [this.2]⟩

theorem dropForNewcomer_sublist (u : Bool) (q q' : List Notice) (h : dropForNewcomer u q = some q') :
    q'.Sublist q ∧ q'.length + 1 = q.length := by
  unfold dropForNewcomer at h
  split at h
  · obtain ⟨r, hr, rfl⟩ := Option.map_eq_some_iff.mp h
    have := dropOldest_sublist _ r hr
    exact ⟨this.1.cons_cons _, by simp [this.2]⟩
  · cases h
  · exact dropOldest_sublist _ _ h

theorem enterQueue_sound (q : List Notice) (u : Bool) (n : Notice) (h : q.length ≤ 12 ∧ q.Nodup) :
    (enterQueue q u n).1.length ≤ 12 ∧ (enterQueue q u n).1.Nodup := by
  unfold enterQueue
  split
  · exact h
  · rename_i hn
    split
    · rename_i hl
      exact ⟨by simp; omega, List.nodup_append.mpr ⟨h.2, by simp, by rintro a ha b hb rfl; simp at hb; exact hn (hb ▸ ha)⟩⟩
    · split
      · exact h
      · split
        · rename_i q' hq
          have hs := dropForNewcomer_sublist u q q' hq
          refine ⟨by simp; omega, List.nodup_append.mpr ⟨h.2.sublist hs.1, by simp, ?_⟩⟩
          rintro a ha b hb rfl
          simp at hb
          exact hn (hb ▸ hs.1.subset ha)
        · exact h

/-- A queue that is not empty stays so. -/
theorem enterQueue_ne (q : List Notice) (u : Bool) (n : Notice) (h : q ≠ []) : (enterQueue q u n).1 ≠ [] := by
  unfold enterQueue
  repeat' split
  all_goals simp [h]

/-- The overflow flag becomes SET only at a full queue (R178). -/
theorem enterQueue_full (q : List Notice) (u : Bool) (n : Notice) (h : (enterQueue q u n).2 = true) : (enterQueue q u n).1 ≠ [] := by
  refine enterQueue_ne q u n fun e => ?_
  subst e
  simp [enterQueue] at h

theorem State.post_kept (hk : Kept K s) (p : Port) (n : Notice) : Kept K (s.post p n) := by
  unfold State.post
  split
  · exact hk
  · refine State.modPort_kept (State.setQueue_kept hk p _ (by exact fun hl => enterQueue_sound _ _ _ ((hk.sound hl).queues p))
      fun hl e => enterQueue_ne _ _ _ ((hk.sound hl).overflow p e)) p _ (by intro; rfl) (by intro; rfl) fun e => ?_
    rw [State.setQueue_queue, if_pos rfl]
    rw [Bool.or_eq_true] at e
    exact e.imp_right fun e => enterQueue_full _ _ _ e

theorem State.removeHeadNotice_kept (hk : Kept K s) (p : Port) : Kept K (s.removeHeadNotice p) := by
  unfold State.removeHeadNotice
  dsimp only
  split
  · exact State.modPort_kept (State.setQueue_kept hk p { s.queue p with notices := [.rescan] } (fun _ => ⟨by simp, by simp⟩)
      fun _ _ => by simp) p _ (fun _ => rfl) (by intro; rfl) fun e => by cases e
  · rename_i hr
    refine State.setQueue_kept hk p { s.queue p with notices := (s.queue p).notices.tail }
      (fun hl => ⟨?_, ((hk.sound hl).queues p).2.sublist (List.tail_sublist _)⟩) fun _ e hn => hr ⟨hn, e⟩
    have := ((hk.sound hl).queues p).1
    simp only [List.length_tail]
    omega

theorem State.postStateChange_kept (hk : Kept K s) (before : State) (d : Drive) : Kept K (s.postStateChange before d) := by
  unfold State.postStateChange
  dsimp only
  repeat' first
    | with_reducible assumption
    | with_reducible apply State.forPorts_kept
    | with_reducible apply State.post_kept
    | (intro _ _ hh; clear hk)
    | split

theorem State.postSpareAdvised_kept (hk : Kept K s) (d : Drive) (logical : Track) : Kept K (s.postSpareAdvised d logical) := by
  unfold State.postSpareAdvised
  dsimp only
  repeat' first
    | with_reducible assumption
    | with_reducible apply State.forPorts_kept
    | with_reducible apply State.post_kept
    | (intro _ _ hh; clear hk)
    | split

theorem State.removeOwed_kept (hk : Kept K s) (d : Drive) (p : Port) : Kept K (s.removeOwed d p) := by
  unfold State.removeOwed
  repeat' first
    | with_reducible assumption
    | with_reducible apply State.modShare_kept
    | exact fun _ => rfl
    | exact fun _ h => h

theorem State.oweCommand_kept (hk : Kept K s) (d : Drive) (p : Port) : Kept K (s.oweCommand d p) := by
  unfold State.oweCommand
  repeat' first
    | with_reducible assumption
    | with_reducible apply State.modShare_kept
    | exact fun _ => rfl
    | exact fun _ h => h

theorem State.oweOrder_kept (hk : Kept K s) (d : Drive) (p : Port) : Kept K (s.oweOrder d p) := by
  unfold State.oweOrder
  repeat' first
    | with_reducible assumption
    | with_reducible apply State.modShare_kept
    | exact fun _ => rfl
    | exact fun _ h => h

theorem State.owedTest_kept (hk : Kept K s) (d : Drive) : Kept K (s.owedTest d) := by
  unfold State.owedTest
  repeat' first
    | with_reducible assumption
    | with_reducible apply State.forPorts_kept
    | with_reducible apply State.removeOwed_kept
    | with_reducible apply State.post_kept
    | (intro _ _ hh; clear hk)
    | split

theorem State.freeAllOwed_kept (hk : Kept K s) (d : Drive) (except : Option Port) : Kept K (s.freeAllOwed d except) := by
  unfold State.freeAllOwed
  dsimp only
  repeat' first
    | with_reducible assumption
    | with_reducible apply State.forPorts_kept
    | with_reducible apply State.post_kept
    | with_reducible apply State.modShare_kept
    | exact fun _ => rfl
    | exact fun _ h => h
    | (intro _ _ hh; clear hk)
    | split

/-- A hold may begin where no operation is in flight (R166). -/
theorem State.beginHold_kept (hk : Kept K s) (d : Drive) (p : Port) (r : FaultRecord) (ho : s.op d = none) :
    Kept K (s.beginHold d p r) := State.setShare_kept hk d _ fun _ _ => ho

theorem State.dropHold_kept (hk : Kept K s) (d : Drive) : Kept K (s.dropHold d) :=
  State.modShare_kept hk d _ fun x hx => by simp at hx

theorem State.endOwnHold_kept (hk : Kept K s) (d : Drive) (p : Port) : Kept K (s.endOwnHold d p) := by
  unfold State.endOwnHold
  repeat' first
    | with_reducible assumption
    | with_reducible apply State.dropHold_kept
    | with_reducible apply State.owedTest_kept
    | split

theorem State.holdExpire_kept (hk : Kept K s) (d : Drive) : Kept K (s.holdExpire d) := by
  unfold State.holdExpire
  repeat' first
    | with_reducible assumption
    | with_reducible apply State.dropHold_kept
    | with_reducible apply State.owedTest_kept
    | split

theorem State.holdTick_kept (hk : Kept K s) (d : Drive) : Kept K (s.holdTick d) :=
  State.modShare_kept hk d _ fun x hx => by simpa using hx

/-- A frame enters the link: a DATA frame only while a slot is free (R152). -/
theorem State.push_kept (hk : Kept K s) (p : Port) (f : OutFrame)
    (hf : f.isData = false ∨ (s.port p).bufferCount < 2 := by exact .inl rfl) : Kept K (s.push p f) := by
  refine State.modPort_kept hk p _ (fun _ => rfl) (by intro; rfl) (by exact Or.inl) fun h => ?_
  cases hd : f.isData with
  | false => exact h.le (le_of_eq (PortRec.slots_push _ f hd)) (Nat.le_refl _) (Nat.le_refl _)
  | true =>
    have hc : (s.port p).bufferCount < 2 := hf.resolve_left (by simp [hd])
    refine ⟨?_, h.2⟩
    unfold PortRec.bufferCount at hc ⊢
    rw [PortRec.slots_pushData _ f hd]
    show (s.port p).slots + 1 + (s.port p).held.length ≤ 2
    omega

theorem State.sendStatus_kept (hk : Kept K s) (p : Port) (c : Conn) (st : Status) (ends : Bool) : Kept K (s.sendStatus p c st ends) := by
  unfold State.sendStatus
  repeat' first
    | with_reducible assumption
    | with_reducible apply State.push_kept
    | exact .inl rfl

theorem State.freePathOfPort_kept (hk : Kept K s) (p : Port) : Kept K (s.freePathOfPort p) := by
  unfold State.freePathOfPort
  repeat' first
    | with_reducible assumption
    | with_reducible apply State.freePaths_kept

theorem State.freeInternalPath_kept (hk : Kept K s) (d : Drive) : Kept K (s.freeInternalPath d) := by
  unfold State.freeInternalPath
  repeat' first
    | with_reducible assumption
    | with_reducible apply State.freePaths_kept

theorem State.forgetDeferral_kept (hk : Kept K s) (p : Port) : Kept K (s.forgetDeferral p) := by
  unfold State.forgetDeferral
  repeat' first
    | with_reducible assumption
    | with_reducible apply State.forDrives_kept
    | with_reducible apply State.modOp_kept
    | exact fun _ => Or.inl rfl
    | exact fun _ => Or.inr rfl
    | exact fun _ => rfl
    | exact fun _ h => h
    | exact fun _ _ => Nat.zero_le _
    | (intro _ _ hh; clear hk)

theorem State.endConnectionAs_kept (hk : Kept K s) (p : Port) (st : PortState)
    (hst : st ≠ .connected ∧ st ≠ .offering := by decide) : Kept K (s.endConnectionAs p st) := by
  have h1 : Kept K ((s.modPort p fun r => r.disconnected st).freePathOfPort p) :=
    (State.freePathOfPort_kept (State.modPort_loose hk p (fun r => r.disconnected st) (fun _ => rfl) (by exact Or.inl)
      fun _ => PortRec.bufferSound_empty (afterConnection_slots _) rfl rfl) p).rejoin fun hj =>
      (hk.joined hj).freed p _ (PortRec.agrees_bare rfl rfl hst.1 hst.2)
  exact State.forgetDeferral_kept (State.setHeld_kept h1 p false) p

theorem State.endConnection_kept (hk : Kept K s) (p : Port) : Kept K (s.endConnection p) :=
  State.endConnectionAs_kept hk p .idle

/-- A port that offers is in no connection (R142). -/
theorem State.offering_conn (hk : Kept K s) {p : Port} (ho : (s.port p).offer.isSome = true) (hj : K.joint) :
    (s.port p).conn = none := by
  have ha := (hk.joined hj).agree p
  refine PortRec.conn_none ha ?_
  rw [((s.port p).agrees_iff.mp ha).2.mp ho]
  decide

/-- An offer other than a RECONNECT is dropped. -/
theorem State.dropOffer_kept (hk : Kept K s) (p : Port) (ho : (s.port p).offer.isSome = true)
    (hn : ∀ d, (s.port p).offer.map Prod.fst ≠ some (.reconnect d)) : Kept K (s.dropOffer p) :=
  State.modPort_kept_of hk p _ (fun _ => rfl)
    (fun hj => PortRec.agrees_bare (r := (s.port p).withoutOffer) (State.offering_conn hk ho hj) rfl (fun h => by cases h) (fun h => by cases h))
    (fun hj => (hk.joined hj).noPath (State.offering_conn hk ho hj) hn) (by exact Or.inl)
    fun h => h.le (slots_sublist List.filter_sublist) (Nat.le_refl _) (Nat.le_refl _)

/-- An offer is dropped, and a path held for it becomes FREE. -/
theorem State.dropOffer_free_kept (hk : Kept K s) (p : Port) (ho : (s.port p).offer.isSome = true) :
    Kept K ((s.dropOffer p).freePathOfPort p) :=
  (State.freePathOfPort_kept (State.modPort_loose hk p PortRec.withoutOffer (fun _ => rfl) (by exact Or.inl)
    fun h => h.le (slots_sublist List.filter_sublist) (Nat.le_refl _) (Nat.le_refl _)) p).rejoin fun hj =>
    (hk.joined hj).freed p _ (PortRec.agrees_bare (State.offering_conn hk ho hj) rfl (fun h => by cases h) (fun h => by cases h))

theorem State.withdrawOffersOf_kept (hk : Kept K s) (d : Drive) : Kept K (s.withdrawOffersOf d) := by
  unfold State.withdrawOffersOf
  refine State.forPorts_kept hk _ fun s p hs => ?_
  split
  · rename_i e
    split
    · exact State.dropOffer_free_kept hs p (by rw [e]; rfl)
    · exact hs
  · exact hs

theorem State.armIdle_kept (hk : Kept K s) (p : Port) : Kept K (s.armIdle p) := State.modPort_kept hk p _ fun _ => rfl

theorem State.unitStatus_kept (hk : Kept K s) (p : Port) (st : Status) : Kept K (s.unitStatus p st) := by
  unfold State.unitStatus
  repeat' first
    | with_reducible assumption
    | with_reducible apply State.sendStatus_kept
    | with_reducible apply State.armIdle_kept
    | with_reducible apply State.modPort_kept
    | exact Or.inl
    | exact fun h => h
    | exact fun h => h.le (Nat.le_refl _) (Nat.zero_le _) (Nat.zero_le _)
    | exact fun _ => PortRec.bufferSound_empty (dropData_slots _) rfl rfl
    | exact fun _ => rfl
    | exact fun _ h => h
    | split

theorem State.unitReject_kept (hk : Kept K s) (p : Port) (residual : Nat) : Kept K (s.unitReject p residual) := by
  unfold State.unitReject
  repeat' first
    | with_reducible assumption
    | with_reducible apply State.unitStatus_kept

theorem State.reply_kept (hk : Kept K s) (p : Port) (d : Drive) (st : Status) : Kept K (s.reply p d st) := by
  unfold State.reply
  repeat' first
    | with_reducible assumption
    | with_reducible apply State.sendStatus_kept

theorem State.answerData_kept (hk : Kept K s) (p : Port) (c : Conn) (bs : List Byte) : Kept K (s.answerData p c bs) := by
  refine State.modPort_kept hk p _ (fun _ => rfl) (by intro; rfl) (by exact Or.inl) fun h => ?_
  have hf : ∀ a n off l, ((answerFrames a n off l).filter OutFrame.isData).length ≤ n := by
    intro a n
    induction n with
    | zero => intro off l; simp [answerFrames]
    | succ n ih =>
      intro off l
      unfold answerFrames
      split
      · simp
      · rw [List.filter_cons_of_pos rfl, List.length_cons]
        exact Nat.succ_le_succ (ih _ _)
  refine ⟨?_, ?_⟩
  · unfold PortRec.bufferCount PortRec.slots
    simp only [List.filter_append, dropData_slots, List.nil_append, List.length_nil, Nat.add_zero]
    exact hf _ 2 0 bs
  · have := h.2
    simp only [List.length_nil, Nat.add_zero]
    omega

theorem State.answerWaiting_kept (hk : Kept K s) (d : Drive) : Kept K (s.answerWaiting d) := by
  unfold State.answerWaiting
  dsimp only
  repeat' first
    | with_reducible assumption
    | with_reducible apply State.forPorts_kept
    | with_reducible apply State.modPort_kept
    | exact Or.inl
    | exact fun h => h
    | exact fun h => h.le (Nat.le_refl _) (Nat.zero_le _) (Nat.zero_le _)
    | exact fun _ => PortRec.bufferSound_empty (dropData_slots _) rfl rfl
    | with_reducible apply State.reply_kept
    | exact fun _ => rfl
    | exact fun _ h => h
    | (intro _ _ hh; clear hk)
    | split

theorem State.endOperation_kept (hk : Kept K s) (d : Drive) : Kept K (s.endOperation d) := by
  unfold State.endOperation
  repeat' first
    | with_reducible assumption
    | with_reducible apply State.discardOp_kept
    | with_reducible apply State.owedTest_kept
    | with_reducible apply State.answerWaiting_kept

theorem State.endOperationWithHold_kept (hk : Kept K s) (d : Drive) (p : Port) (r : FaultRecord) :
    Kept K (s.endOperationWithHold d p r) :=
  State.answerWaiting_kept (State.owedTest_kept (State.beginHold_kept (State.discardOp_kept hk d) d p r
    (by simp [State.discardOp])) d) d

theorem State.faultInConnection_kept (hk : Kept K s) (d : Drive) (p : Port) (o : Operation) (k : FaultKind) (det : Detail) (residual : Nat) (found : Option Condition) : Kept K (s.faultInConnection d p o k det residual found) := by
  unfold State.faultInConnection
  dsimp only
  repeat' first
    | with_reducible assumption
    | with_reducible apply State.modPort_kept
    | exact Or.inl
    | exact fun h => h
    | exact fun h => h.le (Nat.le_refl _) (Nat.zero_le _) (Nat.zero_le _)
    | exact fun _ => PortRec.bufferSound_empty (dropData_slots _) rfl rfl
    | with_reducible apply State.sendStatus_kept
    | with_reducible apply State.endOperation_kept
    | with_reducible apply State.endOperationWithHold_kept
    | exact fun _ => rfl
    | exact fun _ h => h
    | split

theorem State.orderMotion_kept (hk : Kept K s) (d : Drive) (kind : Actuator) (cyl dist : Nat) {s' : State} {y : Reach} (e : s.orderMotion d kind cyl dist = (s', y)) : Kept K s' := by
  unfold State.orderMotion at e
  revert e
  repeat' first
    | with_reducible assumption
    | with_reducible apply State.modPos_kept
    | exact fun _ => rfl
    | exact fun _ h => h
    | exact fun _ => ⟨rfl, rfl, fun h => h⟩
    | (intro e; cases e)
    | exact fun _ => ⟨rfl, rfl, fun h => h⟩
    | split

theorem State.orderRecalibrate_kept (hk : Kept K s) (d : Drive) {s' : State} {y : Reach} (e : s.orderRecalibrate d = (s', y)) : Kept K s' := by
  unfold State.orderRecalibrate at e
  dsimp only at e
  revert e
  repeat' first
    | with_reducible assumption
    | refine State.orderMotion_kept ?_ _ _ _ _ (by with_reducible assumption)
    | (intro e; cases e)
    | (intro e; exact State.orderMotion_kept hk _ _ _ _ e)

theorem State.selectHead_kept (hk : Kept K s) (d : Drive) (h : Nat) : Kept K (s.selectHead d h) := by
  unfold State.selectHead
  repeat' first
    | with_reducible assumption
    | with_reducible apply State.modPos_kept
    | exact fun _ => rfl
    | exact fun _ h => h
    | exact fun _ => ⟨rfl, rfl, fun h => h⟩
    | split

theorem State.moveTo_kept (hk : Kept K s) (d : Drive) (t : Track) {s' : State} {y : Reach} (e : s.moveTo d t = (s', y)) : Kept K s' := by
  unfold State.moveTo at e
  revert e
  repeat' first
    | with_reducible assumption
    | with_reducible apply State.selectHead_kept
    | refine State.orderMotion_kept ?_ _ _ _ _ (by with_reducible assumption)
    | refine State.orderRecalibrate_kept ?_ _ (by with_reducible assumption)
    | (intro e; cases e)
    | (intro e; exact State.orderMotion_kept hk _ _ _ _ e)
    | exact fun _ => ⟨rfl, rfl, fun h => h⟩
    | split

theorem State.places_iff (s : State) (d : Drive) (t p : Track) : s.places d t p = true ↔
    (s.record d).configured = true ∧ (s.typeOf d).isHome t = true ∧ (s.typeOf d).isAlternate p = true := by
  simp [State.places, and_assoc]

/-- An entry changed in its place, its alternates no more than before. -/
theorem State.modEntry_kept (hk : Kept K s) (d : Drive) (t : Track) (f : SpareEntry → SpareEntry)
    (hf : ∀ e, (f e).drive = e.drive ∧ (f e).home = e.home := by exact fun _ => ⟨rfl, rfl⟩)
    (ha : ∀ e, ∀ q ∈ (f e).alternates, q ∈ e.alternates := by exact fun _ _ h => h) : Kept K (s.modEntry d t f) :=
  State.spareMap_kept hk _ (fun hl => by rw [List.length_map]; exact (hk.sound hl).map) (fun hl =>
    apart_modEntry d t f hf (fun e _ q h => .inl (ha e q h)) (hk.sound hl).apart) fun hl e he => by
    obtain ⟨x, hx, rfl⟩ := List.mem_map.mp he
    have h := (hk.sound hl).inPlace x hx
    split
    · exact ⟨(hf x).1 ▸ h.1, by rw [(hf x).1, (hf x).2]; exact h.2.1, fun q hq => by rw [(hf x).1]; exact h.2.2 q (ha x q hq)⟩
    · exact h

/-- An entry changed in its place takes an alternate that no other entry holds. -/
theorem State.modEntry_takes (hk : Kept K s) (d : Drive) (t p : Track) (f : SpareEntry → SpareEntry)
    (hf : ∀ e, (f e).drive = e.drive ∧ (f e).home = e.home) (ha : ∀ e, ∀ q ∈ (f e).alternates, q ∈ e.alternates ∨ q = p)
    (hp : s.heldElsewhere d t p = false) (hq : s.places d t p = true) : Kept K (s.modEntry d t f) :=
  State.spareMap_kept hk _ (fun hl => by rw [List.length_map]; exact (hk.sound hl).map) (fun hl =>
    apart_modEntry d t f hf (fun e _ q h => (ha e q h).imp_right fun (h : q = p) x hx hd ht =>
      h ▸ State.heldElsewhere_false hp x hx hd ht) (hk.sound hl).apart) fun hl e he => by
    obtain ⟨x, hx, rfl⟩ := List.mem_map.mp he
    have h := (hk.sound hl).inPlace x hx
    split
    · rename_i hx
      rw [SpareEntry.isFor_iff] at hx
      rw [State.places_iff] at hq
      refine ⟨(hf x).1 ▸ h.1, by rw [(hf x).1, (hf x).2]; exact h.2.1, fun q hq' => ?_⟩
      rw [(hf x).1]
      rcases ha x q hq' with e | rfl
      · exact h.2.2 q e
      · rw [hx.1]; exact hq.2.2
    · exact h

/-- Entries deleted. -/
theorem State.filterMap_kept (hk : Kept K s) (g : SpareEntry → Bool) : Kept K { s with spareMap := s.spareMap.filter g } :=
  State.spareMap_kept hk _ (fun hl => Nat.le_trans (List.length_filter_le _ _) (hk.sound hl).map)
    (fun hl => (hk.sound hl).apart.sublist List.filter_sublist)
    fun hl e he => (hk.sound hl).inPlace e (List.mem_of_mem_filter he)

theorem State.deleteEntry_kept (hk : Kept K s) (d : Drive) (t : Track) : Kept K (s.deleteEntry d t) :=
  State.filterMap_kept hk _

/-- An entry may join a map with room (R107). -/
theorem State.addEntry_kept (hk : Kept K s) (e : SpareEntry) (hr : s.spareMap.length < 96) (p : Track)
    (he : e.alternates = [p]) (hn : s.entryFor e.drive e.home = none) (hp : s.heldElsewhere e.drive e.home p = false)
    (hq : s.places e.drive e.home p = true) : Kept K (s.addEntry e) :=
  State.spareMap_kept hk _ (fun _ => by simp; omega) (fun hl => apart_append e (hk.sound hl).apart fun x hx hd =>
    have hh := State.entryFor_none hn x hx hd
    ⟨hh, fun q hq hqe => by
      rw [he, List.mem_singleton] at hqe
      exact State.heldElsewhere_false hp x hx hd hh (hqe ▸ hq)⟩) fun hl x hx => by
    rcases List.mem_append.mp hx with h | h
    · exact (hk.sound hl).inPlace x h
    · rw [List.mem_singleton] at h
      subst h
      rw [State.places_iff] at hq
      exact ⟨hq.1, hq.2.1, fun q h => by rw [he, List.mem_singleton] at h; exact h ▸ hq.2.2⟩

theorem State.staleEntries_kept (hk : Kept K s) (d : Drive) : Kept K (s.staleEntries d) := by
  refine State.spareMap_kept hk _ (fun hl => by rw [List.length_map]; exact (hk.sound hl).map) (fun hl => ?_) fun hl e he => ?_
  · rw [List.pairwise_map]
    refine (hk.sound hl).apart.imp fun {a b} hab => ?_
    split <;> split <;> exact hab
  · obtain ⟨x, hx, rfl⟩ := List.mem_map.mp he
    have h := (hk.sound hl).inPlace x hx
    split <;> exact h

theorem State.deleteEntriesOf_kept (hk : Kept K s) (d : Drive) : Kept K (s.deleteEntriesOf d) :=
  State.filterMap_kept hk _

theorem State.undoPending_kept (hk : Kept K s) (d : Drive) (home : Track) (fresh : Bool) : Kept K (s.undoPending d home fresh) := by
  unfold State.undoPending
  split
  · exact State.deleteEntry_kept hk d home
  · refine State.modEntry_kept hk d home _ (fun _ => ⟨rfl, rfl⟩) fun e q h => ?_
    simp only [SpareEntry.alternates, Option.toList_none, List.append_nil] at h
    exact List.mem_append_left _ h

/-- Learning a pointer that no other entry holds keeps the entries apart (R111). -/
theorem State.learn_kept (hk : Kept K s) (d : Drive) (t p : Track) (hp : s.heldElsewhere d t p = false)
    (hq : s.places d t p = true) : Kept K (s.learn d t p) := by
  unfold State.learn
  split
  · refine State.modEntry_takes hk d t p _ (fun _ => ⟨rfl, rfl⟩) (fun e q h => ?_) hp hq
    simp only [SpareEntry.alternates, Option.toList_some, List.singleton_append, List.mem_cons] at h
    exact h.symm.imp_left fun h => List.mem_append_right _ h
  · rename_i hn
    split
    · exact State.addEntry_kept hk _ ‹_› p rfl hn hp hq
    · exact hk

/-- Only a pointer that no other entry holds is learned (R111, step 2). -/
theorem State.verdict_learn {d : Drive} {t p : Track} {expected found : Condition} (h : s.verdict d t expected found = .learn p) :
    s.heldElsewhere d t p = false := by
  unfold State.verdict at h
  split at h
  · split at h <;> cases h
  all_goals
    split at h
    · cases h
    · split at h
      · cases h
      · split at h
        · cases h
        · cases h; simpa using ‹¬ s.heldElsewhere _ _ _ = true›
    all_goals cases h

theorem State.confirmGood_kept (hk : Kept K s) (d : Drive) (t : Track) : Kept K (s.confirmGood d t) := by
  unfold State.confirmGood
  repeat' first
    | with_reducible assumption
    | with_reducible apply State.deleteEntry_kept
    | split

theorem Suspect.isFor_iff (e : Suspect) (d : Drive) (phys : Track) : e.isFor d phys = true ↔ e.key = (d, phys) := by
  simp [Suspect.isFor, Suspect.key]

theorem suspectsSound_filter (l : List Suspect) (f : Suspect → Bool) (h : suspectsSound l) : suspectsSound (l.filter f) :=
  ⟨Nat.le_trans (List.length_filter_le _ _) h.1, h.2.1.sublist (List.filter_sublist.map _),
    fun e he => h.2.2 e (List.mem_filter.mp he).1⟩

theorem suspectFront_key (l : List Suspect) (d : Drive) (phys logical : Track) (k : FaultKind) :
    (suspectFront l d phys logical k).key = (d, phys) := by
  unfold suspectFront
  split
  · rename_i e he
    exact (Suspect.isFor_iff e d phys).mp (List.find?_some (p := fun x : Suspect => x.isFor d phys) he)
  · rfl

/-- The list after an update obeys R135. -/
theorem suspects_updated (l : List Suspect) (d : Drive) (phys logical : Track) (k : FaultKind) (b : Bool)
    (h : suspectsSound l) :
    suspectsSound ({ suspectFront l d phys logical k with advised := b } :: suspectRest l d phys) := by
  have hkey := suspectFront_key l d phys logical k
  have hcount : 1 ≤ (suspectFront l d phys logical k).count ∧ (suspectFront l d phys logical k).count ≤ 15 := by
    unfold suspectFront
    split
    · rename_i e he
      have := h.2.2 e (List.mem_of_find?_eq_some he)
      simp only
      omega
    · simp
  have hrest : (suspectRest l d phys).length + 1 ≤ 32 ∧ ((suspectRest l d phys).map Suspect.key).Nodup ∧
      (∀ e ∈ suspectRest l d phys, e ∈ l) ∧ (d, phys) ∉ (suspectRest l d phys).map Suspect.key := by
    unfold suspectRest
    split
    · rename_i e he
      have hin := List.mem_of_find?_eq_some he
      have hfor := List.find?_some (p := fun x : Suspect => x.isFor d phys) he
      refine ⟨?_, h.2.1.sublist (List.filter_sublist.map _), fun x hx => (List.mem_filter.mp hx).1, ?_⟩
      · have : (l.filter fun x => !x.isFor d phys).length < l.length :=
          List.length_filter_lt_length_iff_exists.mpr ⟨e, hin, by simp [hfor]⟩
        have := h.1
        omega
      · intro hm
        obtain ⟨x, hx, hxk⟩ := List.mem_map.mp hm
        have := (List.mem_filter.mp hx).2
        rw [(Suspect.isFor_iff x d phys).mpr hxk] at this
        simp at this
    · rename_i hn
      refine ⟨by simp only [List.length_take]; omega, h.2.1.sublist ((List.take_sublist _ _).map _),
        fun x hx => List.mem_of_mem_take hx, ?_⟩
      intro hm
      obtain ⟨x, hx, hxk⟩ := List.mem_map.mp hm
      have := List.find?_eq_none.mp hn x (List.mem_of_mem_take hx)
      exact this ((Suspect.isFor_iff x d phys).mpr hxk)
  refine ⟨by simpa using hrest.1, ?_, ?_⟩
  · rw [List.map_cons, List.nodup_cons]
    refine ⟨?_, hrest.2.1⟩
    have : ({ suspectFront l d phys logical k with advised := b } : Suspect).key = (d, phys) := hkey
    rw [this]
    exact hrest.2.2.2
  · intro e he
    rcases List.mem_cons.mp he with rfl | he
    · exact hcount
    · exact h.2.2 e (hrest.2.2.1 e he)

theorem State.suspectUpdate_kept (hk : Kept K s) (d : Drive) (phys logical : Track) (k : FaultKind) :
    Kept K (s.suspectUpdate d phys logical k) := by
  unfold State.suspectUpdate
  dsimp only
  split
  · exact State.postSpareAdvised_kept (State.suspects_kept hk _ (fun hl => suspects_updated _ _ _ _ _ _ (hk.sound hl).suspects)) d logical
  · exact State.suspects_kept hk _ fun hl => suspects_updated _ _ _ _ _ (suspectFront s.suspects d phys logical k).advised (hk.sound hl).suspects

theorem State.removeSuspects_kept (hk : Kept K s) (d : Drive) (tracks : List Track) : Kept K (s.removeSuspects d tracks) :=
  State.suspects_kept hk _ fun hl => suspectsSound_filter _ _ (hk.sound hl).suspects

theorem State.removeSuspectsOf_kept (hk : Kept K s) (d : Drive) : Kept K (s.removeSuspectsOf d) :=
  State.suspects_kept hk _ fun hl => suspectsSound_filter _ _ (hk.sound hl).suspects

theorem State.reportCheck_kept (hk : Kept K s) (d : Drive) (k : FaultKind) : Kept K (s.reportCheck d k) := by
  unfold State.reportCheck
  repeat' first
    | with_reducible assumption
    | with_reducible apply State.modOp_kept
    | exact fun _ => Or.inl rfl
    | exact fun _ => Or.inr rfl
    | with_reducible apply State.suspectUpdate_kept
    | exact fun _ => rfl
    | exact fun _ h => h
    | exact fun _ _ => Nat.zero_le _
    | split

theorem State.handHomeRead_kept (hk : Kept K s) (d : Drive) : Kept K (s.handHomeRead d) := by
  unfold State.handHomeRead
  repeat' first
    | with_reducible assumption
    | with_reducible apply State.modOp_kept
    | exact fun _ => Or.inl rfl
    | exact fun _ => Or.inr rfl
    | exact fun _ => rfl
    | exact fun _ h => h

theorem State.handHomeWrite_kept (hk : Kept K s) (d : Drive) (f : HomeField) : Kept K (s.handHomeWrite d f) := by
  unfold State.handHomeWrite
  repeat' first
    | with_reducible assumption
    | with_reducible apply State.modOp_kept
    | exact fun _ => Or.inl rfl
    | exact fun _ => Or.inr rfl
    | exact fun _ => rfl
    | exact fun _ h => h

theorem State.handReconnect_kept (hk : Kept K s) (d : Drive) : Kept K (s.handReconnect d) := by
  unfold State.handReconnect
  repeat' first
    | with_reducible assumption
    | with_reducible apply State.modOp_kept
    | exact fun _ => Or.inl rfl
    | exact fun _ => Or.inr rfl
    | exact fun _ => rfl
    | exact fun _ h => h

theorem State.keepPending_kept (hk : Kept K s) (d : Drive) (st : Status) (r : Option FaultRecord) : Kept K (s.keepPending d st r) := by
  unfold State.keepPending
  repeat' first
    | with_reducible assumption
    | with_reducible apply State.modOp_kept
    | exact fun _ => Or.inl rfl
    | exact fun _ => Or.inr rfl
    | with_reducible apply State.freeInternalPath_kept
    | exact fun _ => rfl
    | exact fun _ h => h

theorem State.pendingFault_kept (hk : Kept K s) (d : Drive) (k : FaultKind) (det : Detail) (found : Option Condition) : Kept K (s.pendingFault d k det found) := by
  unfold State.pendingFault
  dsimp only
  repeat' first
    | with_reducible assumption
    | with_reducible apply State.keepPending_kept
    | split

theorem State.dropUnclaimed_kept (hk : Kept K s) (d : Drive) : Kept K (s.dropUnclaimed d) := by
  unfold State.dropUnclaimed
  repeat' first
    | with_reducible assumption
    | with_reducible apply State.withdrawOffersOf_kept
    | with_reducible apply State.endOperation_kept
    | split

theorem State.modAlt_kept (hk : Kept K s) (d : Drive) (f : AltOp → AltOp) : Kept K (s.modAlt d f) := by
  unfold State.modAlt
  repeat' first
    | with_reducible assumption
    | with_reducible apply State.modOp_kept
    | exact fun _ => Or.inl rfl
    | exact fun _ => Or.inr rfl
    | exact fun _ => rfl
    | exact fun _ h => h

theorem State.endAlternate_kept (hk : Kept K s) (d : Drive) (out : AltOutcome) : Kept K (s.endAlternate d out) := by
  unfold State.endAlternate
  split
  · split
    · exact State.dropUnclaimed_kept (State.keepPending_kept (State.modAlt_kept (State.lastAlt_kept hk _) d _) d _ _) d
    · exact hk
  · exact hk

theorem State.finishAlternate_kept (hk : Kept K s) (d : Drive) : Kept K (s.finishAlternate d) := by
  unfold State.finishAlternate
  dsimp only
  repeat' first
    | with_reducible assumption
    | with_reducible apply State.removeSuspects_kept
    | with_reducible apply State.deleteEntry_kept
    | with_reducible apply State.endAlternate_kept
    | split

theorem State.noteFirstFault_kept (hk : Kept K s) (d : Drive) (k : FaultKind) (det : Detail) : Kept K (s.noteFirstFault d k det) := by
  unfold State.noteFirstFault
  repeat' first
    | with_reducible assumption
    | with_reducible apply State.modAlt_kept

theorem State.goRetire_kept (hk : Kept K s) (d : Drive) (q : Track) : Kept K (s.goRetire d q) := by
  unfold State.goRetire
  dsimp only
  repeat' first
    | with_reducible assumption
    | with_reducible apply State.modOp_kept
    | exact fun _ => Or.inl rfl
    | exact fun _ => Or.inr rfl
    | with_reducible apply State.handHomeRead_kept
    | with_reducible apply State.noteFirstFault_kept
    | with_reducible apply State.modAlt_kept
    | with_reducible apply State.finishAlternate_kept
    | refine State.moveTo_kept ?_ _ _ (by with_reducible assumption)
    | exact fun _ => rfl
    | exact fun _ h => h
    | exact fun _ _ => Nat.zero_le _
    | split

/-- The pending alternate becomes the current one (R129). -/
theorem State.commitEntry_kept (hk : Kept K s) (d : Drive) (t : Track) :
    Kept K (s.modEntry d t fun e => { e with current := e.pending, pending := none, origin := .assigned, active := true }) := by
  refine State.modEntry_kept hk d t _ (fun _ => ⟨rfl, rfl⟩) fun e q h => ?_
  simp only [SpareEntry.alternates, Option.toList_none, List.append_nil] at h
  exact List.mem_append_right _ h

theorem State.commit_kept (hk : Kept K s) (d : Drive) : Kept K (s.commit d) := by
  unfold State.commit
  dsimp only
  repeat' first
    | with_reducible assumption
    | with_reducible apply State.commitEntry_kept
    | with_reducible apply State.modAlt_kept
    | with_reducible apply State.finishAlternate_kept
    | with_reducible apply State.goRetire_kept
    | split

theorem State.homeUnmarked_kept (hk : Kept K s) (d : Drive) (k : FaultKind) (det : Detail) : Kept K (s.homeUnmarked d k det) := by
  unfold State.homeUnmarked
  repeat' first
    | with_reducible assumption
    | with_reducible apply State.noteFirstFault_kept
    | with_reducible apply State.modAlt_kept
    | with_reducible apply State.commit_kept

theorem State.requestMarkHome_kept (hk : Kept K s) (d : Drive) : Kept K (s.requestMarkHome d) := by
  unfold State.requestMarkHome
  repeat' first
    | with_reducible assumption
    | with_reducible apply State.handHomeWrite_kept
    | split

theorem State.markHome_kept (hk : Kept K s) (d : Drive) : Kept K (s.markHome d) := by
  unfold State.markHome
  dsimp only
  repeat' first
    | with_reducible assumption
    | with_reducible apply State.modAlt_kept
    | with_reducible apply State.modOp_kept
    | exact fun _ => Or.inl rfl
    | exact fun _ => Or.inr rfl
    | with_reducible apply State.handHomeRead_kept
    | with_reducible apply State.requestMarkHome_kept
    | with_reducible apply State.homeUnmarked_kept
    | refine State.moveTo_kept ?_ _ _ (by with_reducible assumption)
    | exact fun _ => rfl
    | exact fun _ h => h
    | exact fun _ _ => Nat.zero_le _
    | split

theorem State.altPositioningFault_kept (hk : Kept K s) (d : Drive) (det : Detail) : Kept K (s.altPositioningFault d det) := by
  unfold State.altPositioningFault
  repeat' first
    | with_reducible assumption
    | with_reducible apply State.endAlternate_kept
    | with_reducible apply State.markHome_kept
    | with_reducible apply State.homeUnmarked_kept
    | with_reducible apply State.commit_kept
    | with_reducible apply State.noteFirstFault_kept
    | with_reducible apply State.modAlt_kept
    | with_reducible apply State.finishAlternate_kept
    | split

theorem State.equipmentCheck_kept (hk : Kept K s) (d : Drive) (det : Detail) : Kept K (s.equipmentCheck d det) := by
  unfold State.equipmentCheck
  repeat' first
    | with_reducible assumption
    | with_reducible apply State.altPositioningFault_kept
    | with_reducible apply State.pendingFault_kept
    | split

/-- A candidate becomes pending only where that keeps the entries apart (R107, R127). -/
theorem State.takePending_kept (hk : Kept K s) (d : Drive) (home c : Track) (hasEntry : Bool)
    (hr : hasEntry = false → s.spareMap.length < 96) : Kept K (s.takePending d home c hasEntry) := by
  unfold State.takePending
  split
  · exact hk
  · rename_i hh
    rw [not_or, Bool.not_eq_true, Bool.not_eq_false] at hh
    obtain ⟨hp, hq⟩ := hh
    split
    · refine State.modEntry_takes hk d home c _ (fun _ => ⟨rfl, rfl⟩) (fun e q h => ?_) hp hq
      simp only [SpareEntry.alternates, Option.toList_some, List.mem_append, List.mem_singleton] at h
      exact h.imp_left fun h => List.mem_append_left _ (Option.mem_toList.mpr (Option.mem_toList.mp h))
    · rename_i hf
      split
      · exact hk
      · rename_i hn
        exact State.addEntry_kept hk _ (hr (by simpa using hf)) c rfl (by simpa using hn) hp hq

theorem State.markAlt_kept (hk : Kept K s) (d : Drive) : Kept K (s.markAlt d) := by
  unfold State.markAlt
  split
  · rename_i o ho
    split
    · rename_i a c ha hc
      split
      · exact State.endAlternate_kept (State.modAlt_kept hk d _) d _
      · rename_i hroom
        have hup := State.cursorUp_kept hk d ((s.record d).cursor + 1) (Nat.le_succ _)
        refine State.handHomeWrite_kept (State.modAlt_kept (State.takePending_kept hup d _ _ _ fun hf => ?_) d _) d _
        simp only [hf, true_and, Nat.not_le] at hroom
        simpa using hroom
    · exact hk
  · exact hk

theorem State.skipCandidate_kept (hk : Kept K s) (d : Drive) : Kept K (s.skipCandidate d) :=
  State.modAlt_kept (State.cursorUp_kept hk d _ (Nat.le_succ _)) d _

theorem State.pick_kept (hk : Kept K s) (d : Drive) (n : Nat) : Kept K (s.pick d n) := by
  induction n generalizing s with
  | zero => exact State.endAlternate_kept hk d _
  | succ n ih =>
    unfold State.pick
    dsimp only
    repeat' first
      | with_reducible assumption
      | with_reducible apply ih
      | with_reducible apply State.endAlternate_kept
      | with_reducible apply State.skipCandidate_kept
      | with_reducible apply State.handHomeRead_kept
      | with_reducible apply State.markAlt_kept
      | refine State.moveTo_kept ?_ _ _ (by with_reducible assumption)
      | with_reducible apply State.modAlt_kept
      | with_reducible apply State.modOp_kept
      | exact fun _ => Or.inl rfl
      | exact fun _ => Or.inr rfl
      | exact fun _ h => h
      | split

theorem State.beginPick_kept (hk : Kept K s) (d : Drive) : Kept K (s.beginPick d) := by
  unfold State.beginPick
  repeat' first
    | with_reducible assumption
    | with_reducible apply State.modAlt_kept
    | with_reducible apply State.pick_kept

theorem State.probe_kept (hk : Kept K s) (d : Drive) (found : Option Condition) : Kept K (s.probe d found) := by
  unfold State.probe
  repeat' first
    | with_reducible assumption
    | with_reducible apply State.markAlt_kept
    | with_reducible apply State.skipCandidate_kept
    | with_reducible apply State.beginPick_kept
    | split

theorem State.rewriteHome_kept (hk : Kept K s) (d : Drive) : Kept K (s.rewriteHome d) := by
  unfold State.rewriteHome
  repeat' first
    | with_reducible assumption
    | with_reducible apply State.modAlt_kept
    | with_reducible apply State.handHomeWrite_kept
    | split

theorem State.retireAlt_kept (hk : Kept K s) (d : Drive) : Kept K (s.retireAlt d) := by
  unfold State.retireAlt
  dsimp only
  repeat' first
    | with_reducible assumption
    | with_reducible apply State.modAlt_kept
    | with_reducible apply State.goRetire_kept
    | with_reducible apply State.finishAlternate_kept
    | split

theorem State.judgeRetire_kept (hk : Kept K s) (d : Drive) (found : Option Condition) : Kept K (s.judgeRetire d found) := by
  unfold State.judgeRetire
  repeat' first
    | with_reducible assumption
    | with_reducible apply State.handHomeWrite_kept
    | with_reducible apply State.modAlt_kept
    | with_reducible apply State.finishAlternate_kept
    | split

theorem State.altWritten_kept (hk : Kept K s) (d : Drive) (good : Bool) : Kept K (s.altWritten d good) := by
  unfold State.altWritten
  repeat' first
    | with_reducible assumption
    | with_reducible apply State.markAlt_kept
    | with_reducible apply State.markHome_kept
    | with_reducible apply State.undoPending_kept
    | with_reducible apply State.endAlternate_kept
    | with_reducible apply State.modAlt_kept
    | with_reducible apply State.commit_kept
    | with_reducible apply State.homeUnmarked_kept
    | with_reducible apply State.rewriteHome_kept
    | with_reducible apply State.retireAlt_kept
    | with_reducible apply State.finishAlternate_kept
    | with_reducible apply State.pick_kept
    | with_reducible apply State.probe_kept
    | split

theorem State.altHomeRead_kept (hk : Kept K s) (d : Drive) (found : Option Condition) : Kept K (s.altHomeRead d found) := by
  unfold State.altHomeRead
  repeat' first
    | with_reducible assumption
    | with_reducible apply State.pick_kept
    | with_reducible apply State.probe_kept
    | with_reducible apply State.markHome_kept
    | with_reducible apply State.requestMarkHome_kept
    | with_reducible apply State.commit_kept
    | with_reducible apply State.retireAlt_kept
    | with_reducible apply State.judgeRetire_kept
    | with_reducible apply State.rewriteHome_kept
    | with_reducible apply State.markAlt_kept
    | split

theorem State.reposition_kept (hk : Kept K s) (d : Drive) (t : Track) : Kept K (s.reposition d t) := by
  unfold State.reposition
  dsimp only
  repeat' first
    | with_reducible assumption
    | with_reducible apply State.modOp_kept
    | exact fun _ => Or.inl rfl
    | exact fun _ => Or.inr rfl
    | with_reducible apply State.handHomeRead_kept
    | with_reducible apply State.equipmentCheck_kept
    | refine State.moveTo_kept ?_ _ _ (by with_reducible assumption)
    | exact fun _ => rfl
    | exact fun _ h => h
    | exact fun _ _ => Nat.zero_le _
    | split

theorem State.opVerdict_learn {d : Drive} {o : Operation} {found : Condition} {p : Track}
    (h : s.opVerdict d o found = .learn p) : s.heldElsewhere d o.home p = false := State.verdict_learn h

theorem State.learnInOp_kept (hk : Kept K s) (d : Drive) (t p : Track) (hp : s.heldElsewhere d t p = false) :
    Kept K (s.learnInOp d t p) := by
  refine State.modOp_kept ?_ d _ (fun _ h => h)
  split
  · exact State.learn_kept hk d t p hp ‹_›
  · exact hk

theorem State.noteConflict_kept (hk : Kept K s) (d : Drive) (det : Detail) : Kept K (s.noteConflict d det) := by
  unfold State.noteConflict
  repeat' first
    | with_reducible assumption
    | with_reducible apply State.modEntry_kept
    | exact fun _ => ⟨rfl, rfl⟩
    | exact fun _ _ h => h
    | split

theorem State.judgeHome_kept (hk : Kept K s) (d : Drive) (found : Condition) : Kept K (s.judgeHome d found) := by
  unfold State.judgeHome
  repeat' first
    | with_reducible assumption
    | with_reducible apply State.confirmGood_kept
    | with_reducible apply State.handReconnect_kept
    | with_reducible apply State.learnInOp_kept
    | with_reducible apply State.reposition_kept
    | with_reducible apply State.noteConflict_kept
    | with_reducible apply State.pendingFault_kept
    | exact State.opVerdict_learn (by with_reducible assumption)
    | split

theorem State.arrive_kept (hk : Kept K s) (d : Drive) : Kept K (s.arrive d) := by
  unfold State.arrive
  repeat' first
    | with_reducible assumption
    | with_reducible apply State.handHomeRead_kept
    | with_reducible apply State.judgeHome_kept
    | with_reducible apply State.commit_kept
    | with_reducible apply State.retireAlt_kept
    | with_reducible apply State.altHomeRead_kept
    | split

theorem State.position_kept (hk : Kept K s) (d : Drive) : Kept K (s.position d) := by
  unfold State.position
  dsimp only
  repeat' first
    | with_reducible assumption
    | with_reducible apply State.modOp_kept
    | exact fun _ => Or.inl rfl
    | exact fun _ => Or.inr rfl
    | with_reducible apply State.arrive_kept
    | with_reducible apply State.equipmentCheck_kept
    | refine State.moveTo_kept ?_ _ _ (by with_reducible assumption)
    | exact fun _ => rfl
    | exact fun _ h => h
    | exact fun _ _ => Nat.zero_le _
    | split

theorem State.beginRecalibrate_kept (hk : Kept K s) (d : Drive) : Kept K (s.beginRecalibrate d) := by
  unfold State.beginRecalibrate
  repeat' first
    | with_reducible assumption
    | with_reducible apply State.equipmentCheck_kept
    | refine State.orderRecalibrate_kept ?_ _ (by with_reducible assumption)
    | split

theorem State.afterMotion_kept (hk : Kept K s) (d : Drive) : Kept K (s.afterMotion d) := by
  unfold State.afterMotion
  repeat' first
    | with_reducible assumption
    | with_reducible apply State.position_kept
    | with_reducible apply State.beginRecalibrate_kept
    | split

theorem State.recover_kept (hk : Kept K s) (d : Drive) : Kept K (s.recover d) := by
  unfold State.recover
  dsimp only
  repeat' first
    | with_reducible assumption
    | with_reducible apply State.modOp_kept
    | exact fun _ => Or.inl rfl
    | exact fun _ => Or.inr rfl
    | with_reducible apply State.equipmentCheck_kept
    | refine State.orderRecalibrate_kept ?_ _ (by with_reducible assumption)
    | exact fun _ => rfl
    | exact fun _ h => h
    | exact fun _ _ => Nat.zero_le _
    | split

theorem State.misposition_kept (hk : Kept K s) (d : Drive) : Kept K (s.misposition d) := by
  unfold State.misposition
  dsimp only
  repeat' first
    | with_reducible assumption
    | with_reducible apply State.modPos_kept
    | with_reducible apply State.equipmentCheck_kept
    | with_reducible apply State.recover_kept
    | exact fun _ => rfl
    | exact fun _ h => h
    | exact fun _ => ⟨rfl, rfl, fun h => h⟩
    | split

theorem State.seekFailure_kept (hk : Kept K s) (d : Drive) : Kept K (s.seekFailure d) := by
  unfold State.seekFailure
  dsimp only
  repeat' first
    | with_reducible assumption
    | with_reducible apply State.modPos_kept
    | with_reducible apply State.afterMotion_kept
    | with_reducible apply State.equipmentCheck_kept
    | with_reducible apply State.recover_kept
    | exact fun _ => rfl
    | exact fun _ h => h
    | exact fun _ => ⟨rfl, rfl, fun h => h⟩
    | split

theorem State.recalibrateFailure_kept (hk : Kept K s) (d : Drive) : Kept K (s.recalibrateFailure d) := by
  unfold State.recalibrateFailure
  dsimp only
  repeat' first
    | with_reducible assumption
    | with_reducible apply State.modPos_kept
    | with_reducible apply State.equipmentCheck_kept
    | with_reducible apply State.afterMotion_kept
    | exact fun _ => rfl
    | exact fun _ h => h
    | exact fun _ => ⟨rfl, rfl, fun h => h⟩
    | split

theorem State.motionFailure_kept (hk : Kept K s) (d : Drive) : Kept K (s.motionFailure d) := by
  unfold State.motionFailure
  repeat' first
    | with_reducible assumption
    | with_reducible apply State.seekFailure_kept
    | with_reducible apply State.recalibrateFailure_kept
    | split

theorem Positioner.motionDone_keeps (q : Positioner) :
    q.motionDone.angle = q.angle ∧ q.motionDone.writeProtect = q.writeProtect ∧ q.motionDone.unanswered = q.unanswered := by
  unfold Positioner.motionDone
  dsimp only
  split <;> exact ⟨rfl, rfl, rfl⟩

theorem State.motionSuccess_kept (hk : Kept K s) (d : Drive) : Kept K (s.motionSuccess d) := by
  have h1 := State.modPos_kept hk d Positioner.motionDone fun q =>
    ⟨q.motionDone_keeps.1, q.motionDone_keeps.2.1, fun h => by rw [q.motionDone_keeps.2.2]; exact h⟩
  unfold State.motionSuccess
  dsimp only
  split
  · split
    · exact State.keepPending_kept h1 d _ _
    · exact State.afterMotion_kept h1 d
  · exact h1

theorem State.releaseOp_kept (hk : Kept K s) (d : Drive) : Kept K (s.releaseOp d) := by
  unfold State.releaseOp
  repeat' first
    | with_reducible assumption
    | with_reducible apply State.withdrawOffersOf_kept
    | with_reducible apply State.freeInternalPath_kept
    | with_reducible apply State.modPos_kept
    | exact fun _ => rfl
    | exact fun _ h => h
    | exact fun _ => ⟨rfl, rfl, fun h => h⟩

theorem State.undoAlternate_kept (hk : Kept K s) (d : Drive) : Kept K (s.undoAlternate d) := by
  unfold State.undoAlternate
  repeat' first
    | with_reducible assumption
    | with_reducible apply State.undoPending_kept
    | split

theorem State.abortQuietly_kept (hk : Kept K s) (d : Drive) : Kept K (s.abortQuietly d) := by
  unfold State.abortQuietly
  split
  · have hr := State.releaseOp_kept hk d
    dsimp only
    split
    · exact State.discardOp_kept (State.lastAlt_kept hr _) d
    · exact State.discardOp_kept hr d
  · exact hk

theorem State.abort_kept (hk : Kept K s) (d : Drive) : Kept K (s.abort d) := by
  unfold State.abort
  repeat' first
    | with_reducible assumption
    | with_reducible apply State.abortQuietly_kept
    | with_reducible apply State.owedTest_kept
    | with_reducible apply State.answerWaiting_kept

theorem State.commandDone_kept (hk : Kept K s) (d : Drive) (p : Port) (st : Status) (resets : Bool) : Kept K (s.commandDone d p st resets) := by
  unfold State.commandDone
  repeat' first
    | with_reducible assumption
    | with_reducible apply State.sendStatus_kept
    | with_reducible apply State.modOp_kept
    | exact fun _ => Or.inl rfl
    | exact fun _ => Or.inr rfl
    | exact fun _ => rfl
    | exact fun _ h => h

theorem State.produce_kept (hk : Kept K s) (p : Port) (a : Answer) : Kept K (s.produce p a) := by
  unfold State.produce
  dsimp only
  repeat' first
    | with_reducible assumption
    | with_reducible apply State.modPort_kept
    | exact Or.inl
    | exact fun h => h
    | exact fun h => h.le (Nat.le_refl _) (Nat.zero_le _) (Nat.zero_le _)
    | exact fun _ => PortRec.bufferSound_empty (dropData_slots _) rfl rfl
    | with_reducible apply State.unitStatus_kept
    | with_reducible apply State.faultInConnection_kept
    | with_reducible apply State.commandDone_kept
    | with_reducible apply State.reply_kept
    | exact fun _ => rfl
    | exact fun _ h => h
    | split

theorem State.complete_kept (hk : Kept K s) (p : Port) (a : Answer) : Kept K (s.complete p a) := by
  unfold State.complete
  repeat' first
    | with_reducible assumption
    | with_reducible apply State.produce_kept
    | with_reducible apply State.modPort_kept
    | exact Or.inl
    | exact fun h => h
    | exact fun h => h.le (Nat.le_refl _) (Nat.zero_le _) (Nat.zero_le _)
    | exact fun _ => PortRec.bufferSound_empty (dropData_slots _) rfl rfl
    | exact fun _ => rfl
    | exact fun _ h => h
    | split

theorem State.setCmd_kept (hk : Kept K s) (d : Drive) (c : Cmd) : Kept K (s.setCmd d c) := by
  unfold State.setCmd
  repeat' first
    | with_reducible assumption
    | with_reducible apply State.modOp_kept
    | exact fun _ => Or.inl rfl
    | exact fun _ => Or.inr rfl
    | exact fun _ => rfl
    | exact fun _ h => h

theorem State.commandFault_kept (hk : Kept K s) (p : Port) (k : FaultKind) (det : Detail) (residual : Nat) (found : Option Condition) : Kept K (s.commandFault p k det residual found) := by
  unfold State.commandFault
  repeat' first
    | with_reducible assumption
    | with_reducible apply State.complete_kept

theorem State.finishStopped_kept (hk : Kept K s) (d : Drive) (p : Port) (e : StopEnd) (residual : Nat) : Kept K (s.finishStopped d p e residual) := by
  unfold State.finishStopped
  repeat' first
    | with_reducible assumption
    | with_reducible apply State.modPort_kept
    | exact Or.inl
    | exact fun h => h
    | exact fun h => h.le (Nat.le_refl _) (Nat.zero_le _) (Nat.zero_le _)
    | exact fun _ => PortRec.bufferSound_empty (dropData_slots _) rfl rfl
    | with_reducible apply State.sendStatus_kept
    | with_reducible apply State.endOperation_kept
    | with_reducible apply State.faultInConnection_kept
    | with_reducible apply State.endConnection_kept
    | exact fun _ => rfl
    | exact fun _ h => h
    | split

theorem State.stopCommand_kept (hk : Kept K s) (d : Drive) (p : Port) (e : StopEnd) : Kept K (s.stopCommand d p e) := by
  unfold State.stopCommand
  dsimp only
  repeat' first
    | with_reducible assumption
    | with_reducible apply State.modPort_kept
    | exact Or.inl
    | exact fun h => h
    | exact fun h => h.le (Nat.le_refl _) (Nat.zero_le _) (Nat.zero_le _)
    | exact fun _ => PortRec.bufferSound_empty (dropData_slots _) rfl rfl
    | with_reducible apply State.setCmd_kept
    | with_reducible apply State.finishStopped_kept
    | exact fun _ => rfl
    | exact fun _ h => h
    | split

theorem State.setAside_kept (hk : Kept K s) (d : Drive) (p : Port) : Kept K (s.setAside d p) := by
  unfold State.setAside
  dsimp only
  repeat' first
    | with_reducible assumption
    | with_reducible apply State.modOp_kept
    | exact fun _ => Or.inl rfl
    | exact fun _ => Or.inr rfl
    | with_reducible apply State.freePathOfPort_kept
    | with_reducible apply State.endConnection_kept
    | with_reducible apply State.modPort_kept
    | exact Or.inl
    | exact fun h => h
    | exact fun h => h.le (Nat.le_refl _) (Nat.zero_le _) (Nat.zero_le _)
    | exact fun _ => PortRec.bufferSound_empty (dropData_slots _) rfl rfl
    | exact fun _ => rfl
    | exact fun _ h => h
    | exact fun _ _ => Nat.zero_le _
    | split

theorem State.mispositionConnected_kept (hk : Kept K s) (d : Drive) (p : Port) : Kept K (s.mispositionConnected d p) := by
  unfold State.mispositionConnected
  repeat' first
    | with_reducible assumption
    | with_reducible apply State.setAside_kept
    | with_reducible apply State.misposition_kept
    | with_reducible apply State.modOp_kept
    | exact fun _ => Or.inl rfl
    | exact fun _ => Or.inr rfl
    | exact fun _ h => h

theorem State.relocate_kept (hk : Kept K s) (d : Drive) (p : Port) : Kept K (s.relocate d p) := by
  unfold State.relocate
  repeat' first
    | with_reducible assumption
    | with_reducible apply State.setAside_kept
    | with_reducible apply State.position_kept

theorem State.reread_kept (hk : Kept K s) (d : Drive) : Kept K (s.reread d) := by
  unfold State.reread
  repeat' first
    | with_reducible assumption
    | with_reducible apply State.modOp_kept
    | exact fun _ => Or.inl rfl
    | exact fun _ => Or.inr rfl
    | exact fun _ => rfl
    | exact fun _ h => h

theorem State.makeCurrent_kept (hk : Kept K s) (d : Drive) (r : RecordAt) : Kept K (s.makeCurrent d r) := by
  unfold State.makeCurrent
  dsimp only
  repeat' first
    | with_reducible assumption
    | with_reducible apply State.modOp_kept
    | exact fun _ => Or.inl rfl
    | exact fun _ => Or.inr rfl
    | exact fun _ => rfl
    | exact fun _ h => h

theorem State.compareKey_kept (hk : Kept K s) (d : Drive) (p : Port) (c : SearchCond) (arg key : List Byte) : Kept K (s.compareKey d p c arg key) := by
  unfold State.compareKey
  dsimp only
  repeat' first
    | with_reducible assumption
    | with_reducible apply State.commandDone_kept
    | with_reducible apply State.modOp_kept
    | exact fun _ => Or.inl rfl
    | exact fun _ => Or.inr rfl
    | exact fun _ => rfl
    | exact fun _ h => h

theorem State.readOver_kept (hk : Kept K s) (d : Drive) : Kept K (s.readOver d) :=
  State.modOp_kept hk d _ fun _ h => h

theorem State.searchRecord_kept (hk : Kept K s) (d : Drive) (p : Port) (c : SearchCond) (arg : List Byte) (x : RecordAt) :
    Kept K (s.searchRecord d p c arg x) := by
  unfold State.searchRecord
  dsimp only
  split
  · exact State.compareKey_kept (State.makeCurrent_kept hk d x) d p c arg []
  · exact State.setCmd_kept (State.makeCurrent_kept hk d x) d _

theorem State.enterRecord_kept (hk : Kept K s) (d : Drive) (r : ReadCmd) (x : RecordAt) : Kept K (s.enterRecord d r x) :=
  State.setCmd_kept (State.makeCurrent_kept hk d x) d _

theorem State.badId_kept (hk : Kept K s) (d : Drive) : Kept K (s.badId d) :=
  State.modOp_kept (State.reportCheck_kept hk d _) d _ fun _ h => h

theorem State.idCheck_kept (hk : Kept K s) (d : Drive) (p : Port) (o : Operation) (start : Nat) :
    Kept K (s.idCheck d p o start) := by
  unfold State.idCheck
  dsimp only
  repeat' first
    | with_reducible apply State.readOver_kept
    | with_reducible apply State.modOp_kept
    | exact fun _ => Or.inl rfl
    | exact fun _ => Or.inr rfl
    | exact fun _ h => h
    | with_reducible assumption
    | with_reducible apply State.badId_kept
    | with_reducible apply State.reread_kept
    | with_reducible apply State.commandFault_kept
    | split

theorem State.soughtCheck_kept (hk : Kept K s) (d : Drive) (g : Finding) (c : Finding → Cmd) : Kept K (s.soughtCheck d g c) := by
  unfold State.soughtCheck
  split
  · exact hk
  · exact State.setCmd_kept (State.reportCheck_kept hk d _) d _

theorem State.soughtId_kept (hk : Kept K s) (d : Drive) (p : Port) (g : Finding) (wrong : Bool) {t : State} (ht : Kept K t) :
    Kept K (s.soughtId d p g wrong t) := by
  unfold State.soughtId
  split
  · exact hk
  · split
    · exact State.mispositionConnected_kept hk d p
    · exact ht

theorem State.idReadCheck_kept (hk : Kept K s) (d : Drive) (p : Port) (o : Operation) (x : IdRead) :
    Kept K (s.idReadCheck d p o x) := by
  unfold State.idReadCheck
  repeat' first
    | with_reducible assumption
    | with_reducible apply State.soughtCheck_kept
    | with_reducible apply State.badId_kept
    | with_reducible apply State.idCheck_kept
    | split

theorem State.idReadGood_kept (hk : Kept K s) (d : Drive) (p : Port) (o : Operation) (x : IdRead) (f : IdField) :
    Kept K (s.idReadGood d p o x f) := by
  unfold State.idReadGood
  dsimp only
  repeat' first
    | with_reducible assumption
    | with_reducible apply State.soughtId_kept
    | with_reducible apply State.setCmd_kept
    | with_reducible apply State.mispositionConnected_kept
    | with_reducible apply State.makeCurrent_kept
    | with_reducible apply State.commandDone_kept
    | with_reducible apply State.searchRecord_kept
    | with_reducible apply State.enterRecord_kept
    | split

theorem State.idRead_kept (hk : Kept K s) (d : Drive) (p : Port) (o : Operation) (x : IdRead) : Kept K (s.idRead d p o x) := by
  unfold State.idRead
  split
  · exact State.idReadCheck_kept hk d p o x
  · exact State.idReadGood_kept hk d p o x _

theorem State.idArrives_kept (hk : Kept K s) (d : Drive) (p : Port) (o : Operation) (x : IdRead) :
    Kept K (s.idArrives d p o x) := by
  unfold State.idArrives
  split
  · exact State.idRead_kept hk d p o x
  · exact hk

theorem State.formFrames_kept (hk : Kept K s) (p : Port) (address off : Nat) (fs : List (List Byte)) {s' : State}
    {y : Nat × Bool} (e : s.formFrames p address off fs = (s', y)) : Kept K s' := by
  induction fs generalizing s off with
  | nil => cases e; exact hk
  | cons f fs ih =>
    unfold State.formFrames at e
    split at e
    · cases e; exact hk
    · exact ih (State.push_kept hk p _ (.inr (by omega))) _ e

theorem State.dataPasses_kept (hk : Kept K s) (d : Drive) (p : Port) (o : Operation) (r : ReadCmd) (bs : List Byte) {s' : State} {y : Option ReadCmd} (e : s.dataPasses d p o r bs = (s', y)) : Kept K s' := by
  unfold State.dataPasses at e
  dsimp only at e
  revert e
  repeat' first
    | with_reducible assumption
    | with_reducible apply State.setCmd_kept
    | with_reducible apply State.commandFault_kept
    | refine State.formFrames_kept ?_ _ _ _ _ (by with_reducible assumption)
    | (intro e; cases e)
    | exact fun _ => ⟨rfl, rfl, fun h => h⟩
    | split

theorem State.fieldGood_kept (hk : Kept K s) (d : Drive) (p : Port) (o : Operation) (r : ReadCmd) : Kept K (s.fieldGood d p o r) := by
  unfold State.fieldGood
  dsimp only
  repeat' first
    | with_reducible assumption
    | with_reducible apply State.modOp_kept
    | exact fun _ => Or.inl rfl
    | exact fun _ => Or.inr rfl
    | with_reducible apply State.setCmd_kept
    | with_reducible apply State.complete_kept
    | exact fun _ => rfl
    | exact fun _ h => h
    | exact fun _ _ => Nat.zero_le _
    | split

theorem State.fieldCheck_kept (hk : Kept K s) (d : Drive) (p : Port) (o : Operation) (r : ReadCmd) : Kept K (s.fieldCheck d p o r) := by
  unfold State.fieldCheck
  dsimp only
  repeat' first
    | with_reducible assumption
    | with_reducible apply State.reportCheck_kept
    | with_reducible apply State.reread_kept
    | with_reducible apply State.setCmd_kept
    | with_reducible apply State.commandFault_kept
    | split

theorem State.keyCheckOutcome_kept (hk : Kept K s) (d : Drive) (good : Bool) : Kept K (s.keyCheckOutcome d good) := by
  unfold State.keyCheckOutcome
  dsimp only
  repeat' first
    | with_reducible assumption
    | with_reducible apply State.modOp_kept
    | exact fun _ => Or.inl rfl
    | exact fun _ => Or.inr rfl
    | with_reducible apply State.reportCheck_kept
    | exact fun _ => rfl
    | exact fun _ h => h
    | exact fun _ _ => Nat.zero_le _
    | split

theorem State.dataRead_kept (hk : Kept K s) (d : Drive) (p : Port) (o : Operation) (bs : List Byte) (outcome : Option Bool) : Kept K (s.dataRead d p o bs outcome) := by
  unfold State.dataRead
  dsimp only
  repeat' first
    | with_reducible assumption
    | with_reducible apply State.modOp_kept
    | exact fun _ => Or.inl rfl
    | exact fun _ => Or.inr rfl
    | with_reducible apply State.setCmd_kept
    | with_reducible apply State.fieldGood_kept
    | with_reducible apply State.fieldCheck_kept
    | with_reducible apply State.keyCheckOutcome_kept
    | refine State.dataPasses_kept ?_ _ _ _ _ _ (by with_reducible assumption)
    | exact fun _ => rfl
    | exact fun _ h => h
    | exact fun _ _ => Nat.zero_le _
    | split

theorem State.endOfTrack_kept (hk : Kept K s) (d : Drive) (p : Port) (o : Operation) (r : ReadCmd) : Kept K (s.endOfTrack d p o r) := by
  unfold State.endOfTrack
  dsimp only
  repeat' first
    | with_reducible assumption
    | with_reducible apply State.modOp_kept
    | exact fun _ => Or.inl rfl
    | exact fun _ => Or.inr rfl
    | with_reducible apply State.selectHead_kept
    | with_reducible apply State.setCmd_kept
    | with_reducible apply State.relocate_kept
    | with_reducible apply State.complete_kept
    | exact fun _ => rfl
    | exact fun _ h => h
    | exact fun _ _ => Nat.zero_le _
    | split

theorem State.judgeInline_kept (hk : Kept K s) (d : Drive) (p : Port) (o : Operation) (r : ReadCmd) (found : Condition) : Kept K (s.judgeInline d p o r found) := by
  unfold State.judgeInline
  dsimp only
  repeat' first
    | with_reducible assumption
    | with_reducible apply State.confirmGood_kept
    | with_reducible apply State.modOp_kept
    | exact fun _ => Or.inl rfl
    | exact fun _ => Or.inr rfl
    | with_reducible apply State.setCmd_kept
    | with_reducible apply State.learnInOp_kept
    | with_reducible apply State.relocate_kept
    | with_reducible apply State.noteConflict_kept
    | with_reducible apply State.commandFault_kept
    | exact fun _ => rfl
    | exact fun _ h => h
    | exact fun _ _ => Nat.zero_le _
    | exact State.opVerdict_learn (by with_reducible assumption)
    | split

theorem State.indexAtCommand_kept (hk : Kept K s) (d : Drive) (p : Port) (o : Operation) : Kept K (s.indexAtCommand d p o) := by
  unfold State.indexAtCommand
  repeat' first
    | with_reducible assumption
    | with_reducible apply State.setCmd_kept
    | with_reducible apply State.endOfTrack_kept
    | split

theorem State.indexAtConnection_kept (hk : Kept K s) (d : Drive) : Kept K (s.indexAtConnection d) := by
  unfold State.indexAtConnection
  repeat' first
    | with_reducible assumption
    | with_reducible apply State.modOp_kept
    | exact fun _ => Or.inl rfl
    | exact fun _ => Or.inr rfl
    | with_reducible apply State.indexAtCommand_kept
    | exact fun _ => rfl
    | exact fun _ h => h
    | exact fun _ _ => Nat.zero_le _
    | split

theorem State.idleExpire_kept (hk : Kept K s) (d : Drive) : Kept K (s.idleExpire d) := by
  unfold State.idleExpire
  repeat' first
    | with_reducible assumption
    | with_reducible apply State.endConnection_kept
    | with_reducible apply State.endOperation_kept
    | split

theorem State.searchBound_kept (hk : Kept K s) (d : Drive) : Kept K (s.searchBound d) := by
  unfold State.searchBound
  repeat' first
    | with_reducible apply State.readOver_kept
    | with_reducible assumption
    | with_reducible apply State.commandFault_kept
    | with_reducible apply State.idCheck_kept
    | split

theorem State.searchLimit_kept (hk : Kept K s) (d : Drive) : Kept K (s.searchLimit d) := by
  unfold State.searchLimit
  repeat' first
    | with_reducible assumption
    | with_reducible apply State.commandFault_kept
    | split

theorem State.requestBytes_kept (hk : Kept K s) (d : Drive) (p : Port) (n : Nat) : Kept K (s.requestBytes d p n) := by
  induction n generalizing s with
  | zero => exact hk
  | succ n ih =>
    unfold State.requestBytes
    dsimp only
    split
    · split
      · exact hk
      · split
        · exact hk
        · rename_i hr
          refine ih (State.modPort_kept (State.push_kept (State.setCmd_kept hk d _) p _ (.inl rfl)) p _ (fun _ => rfl)
            (by intro; rfl) (by exact Or.inl) fun h => ?_)
          refine ⟨h.1, ?_⟩
          have h2 := h.2
          have hq : ∀ f x, (((s.setCmd d x).push p f).port p).requests = (s.port p).requests ∧
              (((s.setCmd d x).push p f).port p).held = (s.port p).held := by
            intro f x
            constructor <;> simp [State.push, State.setCmd]
          simp only [List.length_append, List.length_singleton, hq]
          omega
    all_goals exact hk

theorem State.proceed_kept (hk : Kept K s) (d : Drive) (p : Port) : Kept K (s.proceed d p) := by
  unfold State.proceed
  dsimp only
  repeat' first
    | with_reducible apply State.modOp_kept
    | exact fun _ => Or.inl rfl
    | exact fun _ => Or.inr rfl
    | exact fun _ h => h
    | with_reducible assumption
    | with_reducible apply State.setCmd_kept
    | with_reducible apply State.commandDone_kept
    | with_reducible apply State.requestBytes_kept
    | split

theorem State.hostBytes_kept (hk : Kept K s) (d : Drive) (p : Port) (w : WriteCmd) (off : Nat) (bs : List Byte) :
    Kept K (s.hostBytes d p w off bs) := by
  unfold State.hostBytes
  dsimp only
  split
  · rename_i o n rest hr
    split
    · rename_i hc
      refine State.requestBytes_kept (State.setCmd_kept (State.modPort_kept hk p
        (fun r => { r with requests := rest, held := r.held ++ [{ offset := o, bytes := bs.take n }] }) (fun _ => rfl) (by intro; rfl)
        (by exact Or.inl) fun h => ?_) d _) d p 2
      have h1 := h.1
      have h2 := h.2
      have hb := hc.2
      rw [hr, List.length_cons] at h2
      unfold PortRec.bufferCount at h1 hb
      constructor
      · show (s.port p).slots + ((s.port p).held ++ _).length ≤ 2
        rw [List.length_append, List.length_singleton]
        omega
      · show rest.length + ((s.port p).held ++ _).length ≤ 2
        rw [List.length_append, List.length_singleton]
        omega
    · exact hk
  · exact hk

theorem State.drawNext_kept (hk : Kept K s) (d : Drive) (p : Port) (w : WriteCmd) {s' : State} {w' : WriteCmd}
    (e : s.drawNext d p w = some (s', w')) : Kept K s' := by
  unfold State.drawNext at e
  split at e
  · cases e
    exact State.setCmd_kept (State.modPort_kept hk p _ (by intro; rfl) (by intro; rfl) (by exact Or.inl)
      fun h => h.le (Nat.le_refl _) (List.length_filter_le _ _) (Nat.le_refl _)) d _
  · cases e

theorem State.drawBytes_kept (hk : Kept K s) (d : Drive) (p : Port) (w : WriteCmd) : Kept K (s.drawBytes d p w) := by
  unfold State.drawBytes
  have h1 := State.modOp_kept (State.setCmd_kept hk d (.write { w with begun := true })) d
    (fun o => { o with keyCheck := false }) (fun _ h => h)
  dsimp only
  split
  · exact h1
  · split
    · rename_i e
      exact State.requestBytes_kept (State.drawNext_kept h1 d p _ e) d p 2
    · exact State.setCmd_kept h1 d _

theorem State.drawRest_kept (hk : Kept K s) (d : Drive) (p : Port) (w : WriteCmd) (n : Nat) {s' : State} {y : WriteCmd}
    (e : s.drawRest d p w n = (s', y)) : Kept K s' := by
  induction n generalizing s w with
  | zero => cases e; exact hk
  | succ n ih =>
    unfold State.drawRest at e
    split at e
    · cases e; exact hk
    · split at e
      · rename_i e'
        exact ih (State.drawNext_kept hk d p w e') _ e
      · cases e; exact hk

theorem State.writeDone_kept (hk : Kept K s) (d : Drive) (p : Port) (o : Operation) (w : WriteCmd) (good : Bool) :
    Kept K (s.writeDone d p o w good) := by
  have h1 := State.drawRest_kept hk d p w 2 (s' := (s.drawRest d p w 2).1) (y := (s.drawRest d p w 2).2) rfl
  unfold State.writeDone
  dsimp only
  repeat' first
    | with_reducible assumption
    | with_reducible apply State.finishStopped_kept
    | with_reducible apply State.commandFault_kept
    | with_reducible apply State.complete_kept
    | with_reducible apply State.reportCheck_kept
    | with_reducible apply State.modPort_kept
    | exact Or.inl
    | exact fun h => h
    | exact fun h => h.le (Nat.le_refl _) (Nat.zero_le _) (Nat.zero_le _)
    | exact fun _ => PortRec.bufferSound_empty (dropData_slots _) rfl rfl
    | with_reducible apply State.modOp_kept
    | exact fun _ => Or.inl rfl
    | exact fun _ => Or.inr rfl
    | exact fun _ => rfl
    | exact fun _ h => h
    | split

theorem State.homeWritten_kept (hk : Kept K s) (d : Drive) (f : HomeField) (good : Bool) :
    Kept K (s.modPos d fun q => q.homeWritten f good) :=
  State.modPos_kept hk d _ fun q => by
    unfold Positioner.homeWritten
    split
    · exact ⟨rfl, rfl, fun h => h⟩
    · exact ⟨rfl, rfl, fun h => h⟩

theorem State.formatDone_kept (hk : Kept K s) (d : Drive) (p : Port) (f : FormatCmd) (good : Bool) : Kept K (s.formatDone d p f good) := by
  unfold State.formatDone
  dsimp only
  repeat' first
    | with_reducible apply State.homeWritten_kept
    | with_reducible assumption
    | with_reducible apply State.modPos_kept
    | with_reducible apply State.reportCheck_kept
    | with_reducible apply State.finishStopped_kept
    | with_reducible apply State.setCmd_kept
    | with_reducible apply State.modOp_kept
    | exact fun _ => Or.inl rfl
    | exact fun _ => Or.inr rfl
    | with_reducible apply State.complete_kept
    | with_reducible apply State.commandFault_kept
    | exact fun _ => rfl
    | exact fun _ h => h
    | exact fun _ => ⟨rfl, rfl, fun h => h⟩
    | exact fun _ _ => Nat.zero_le _
    | split

theorem State.leaveWrite_kept (hk : Kept K s) (d : Drive) (port : Option Port) : Kept K (s.leaveWrite d port) := by
  unfold State.leaveWrite
  dsimp only
  repeat' first
    | with_reducible assumption
    | with_reducible apply State.setFinish_kept
    | split

theorem State.endReset_kept (hk : Kept K s) (p : Port) : Kept K (s.endReset p) := by
  refine (State.modPort_loose hk p _ (fun r => by split <;> rfl) (by split <;> exact Or.inl)
    (by split <;> exact fun h => h)).rejoin fun hj => (hk.joined hj).of (fun q => ?_) (fun _ _ e => e) (fun _ _ e => e)
  rw [State.modPort_port]
  split
  · subst_vars
    have ha := (hk.joined hj).agree q
    split
    · rename_i hr
      have hc : (s.port q).conn = none := PortRec.conn_none ha (by rw [hr]; exact fun h => by cases h)
      have ho : (s.port q).offer = none := PortRec.offer_none ha (by rw [hr]; exact fun h => by cases h)
      exact .inr ⟨PortRec.agrees_bare hc ho (fun h => by cases h) (fun h => by cases h), .inl ⟨rfl, rfl⟩⟩
    · exact .inl rfl
  · exact .inl rfl

theorem State.finishWritten_kept (hk : Kept K s) (d : Drive) (f : Finishing) (good : Bool) : Kept K (s.finishWritten d f good) := by
  unfold State.finishWritten
  dsimp only
  repeat' first
    | with_reducible apply State.homeWritten_kept
    | with_reducible assumption
    | with_reducible apply State.setFinish_kept
    | with_reducible apply State.modPos_kept
    | with_reducible apply State.suspectUpdate_kept
    | with_reducible apply State.endReset_kept
    | exact fun _ => rfl
    | exact fun _ h => h
    | exact fun _ => ⟨rfl, rfl, fun h => h⟩
    | split

theorem Operation.lapse_miss (o : Operation) (x : Orientation) : (o.lapse x).miss ≤ 15 := Nat.min_le_left _ _

theorem Operation.closeWindow_miss (o : Operation) (x : Orientation) (h : o.miss ≤ 15) : (o.closeWindow x).miss ≤ 15 := by
  unfold Operation.closeWindow
  split
  · exact Operation.lapse_miss o x
  · exact h
  · exact h

theorem Operation.deferredBy_miss (o : Operation) (p : Port) (h : o.miss ≤ 15) : (o.deferredBy p).miss ≤ 15 := by
  unfold Operation.deferredBy
  split
  · split
    · exact h
    · exact Operation.lapse_miss o _
  · exact h

theorem Operation.closeWindow_conn (o : Operation) (x : Orientation) : (o.closeWindow x).conn = o.conn := by
  unfold Operation.closeWindow
  split <;> rfl

theorem Operation.deferredBy_conn (o : Operation) (p : Port) : (o.deferredBy p).conn = o.conn := by
  unfold Operation.deferredBy
  split
  · split <;> rfl
  · rfl

theorem State.requestLapse_kept (hk : Kept K s) (d : Drive) : Kept K (s.requestLapse d) := by
  unfold State.requestLapse
  split
  · rename_i o ho
    split
    · split
      · split
        · exact State.setOp_some_kept hk d _ ho (fun hl => Operation.closeWindow_miss o _ ((hk.sound hl).miss d o ho)) (Operation.closeWindow_conn o _)
        · exact hk
      · exact hk
    · exact hk
  · exact hk

theorem State.requestRaise_kept (hk : Kept K s) (d : Drive) : Kept K (s.requestRaise d) := by
  unfold State.requestRaise
  split
  · rename_i o ho
    split
    · split
      · split
        · exact State.setOp_some_kept hk d _ ho (fun hl => (hk.sound hl).miss d o ho) rfl
        · exact hk
      · exact hk
    · exact hk
  · exact hk

/-! ### The arbiter's decision and the claims on a port (R63, R64, R150) -/

theorem firstContender_mem (l : List Contender) (c : Contender) (h : firstContender l = some c) : c ∈ l := by
  induction l generalizing c with
  | nil => cases h
  | cons a l ih =>
    unfold firstContender at h
    split at h
    · rename_i b hb
      split at h
      · cases h; exact List.mem_cons_of_mem _ (ih _ hb)
      · cases h; exact List.mem_cons_self ..
    · cases h; exact List.mem_cons_self ..

theorem issuerFirst_ok {issuer p : Port} {ok : Port → Bool} (h : issuerFirst issuer ok = some p) : ok p = true := by
  unfold issuerFirst at h
  split at h
  · cases h; assumption
  · exact List.find?_some h

/-- A contender's operation holds no path, and the port that its request would go to is IDLE (R63, R64). -/
theorem State.contender_free {d : Drive} {c : Contender} (h : s.contender d = some c) :
    c.drive = d ∧ (∀ n, s.usesPath d n = false) ∧ ∀ p, c.port = some p → (s.port p).state = .idle := by
  unfold State.contender at h
  split at h
  · split at h
    · split at h
      · dsimp only at h
        split at h
        · cases h
        · rename_i hu
          have hn : ∀ n, s.usesPath d n = false := by
            intro n
            have h0 : s.usesPath d 0 = false := by
              cases e : s.usesPath d 0 with
              | false => rfl
              | true => exact absurd (.inr (.inr (.inl e))) hu
            have h1 : s.usesPath d 1 = false := by
              cases e : s.usesPath d 1 with
              | false => rfl
              | true => exact absurd (.inr (.inr (.inr e))) hu
            match n with
            | 0 => exact h0
            | 1 => exact h1
          split at h
          · obtain ⟨q, hq, rfl⟩ := Option.map_eq_some_iff.mp h
            refine ⟨rfl, hn, fun p hp => ?_⟩
            cases hp
            have := issuerFirst_ok hq
            simp only [State.eligible, Bool.and_eq_true, decide_eq_true_eq] at this
            exact this.1.1
          · cases h
            exact ⟨rfl, hn, fun p hp => by cases hp⟩
      · cases h
    · cases h
  · cases h

theorem State.decision_free {n : PathNo} {c : Contender} (h : s.decision = some (n, c)) :
    (∀ m, s.usesPath c.drive m = false) ∧ ∀ p, c.port = some p → (s.port p).state = .idle := by
  unfold State.decision at h
  split at h
  · rename_i hc
    cases h
    obtain ⟨d, _, hd⟩ := List.mem_filterMap.mp (firstContender_mem _ _ hc)
    have := State.contender_free hd
    exact ⟨this.1 ▸ this.2.1, this.2.2⟩
  · cases h

/-- A port that a claim reaches is IDLE, and an operation whose reconnection claims it holds no path (R64, R150). -/
theorem State.claims_free {p : Port} {c : Claim} (h : c ∈ s.claims p) :
    (s.port p).state = .idle ∧ ∀ n d, c = .reconnect n d → ∀ m, s.usesPath d m = false := by
  unfold State.claims at h
  rcases List.mem_append.mp h with h | h
  · rcases List.mem_append.mp h with h | h
    · unfold State.grantClaim at h
      split at h
      · rename_i hd
        split at h
        · rw [List.mem_singleton] at h
          subst h
          have := State.decision_free hd
          exact ⟨this.2 p ‹_›, fun n d e m => by cases e; exact this.1 m⟩
        · cases h
      · cases h
    · obtain ⟨d, hd, rfl⟩ := List.mem_map.mp h
      refine ⟨?_, fun _ _ e => by cases e⟩
      have := (List.mem_filter.mp hd).2
      rw [decide_eq_true_eq] at this
      unfold State.statusPort at this
      split at this
      · split at this
        · have := issuerFirst_ok this
          simp only [Bool.and_eq_true, decide_eq_true_eq] at this
          exact this.1.1
        · cases this
      · cases this
  · obtain ⟨n, hn, rfl⟩ := List.mem_map.mp h
    refine ⟨?_, fun _ _ e => by cases e⟩
    rw [Option.mem_toList] at hn
    unfold State.noticeClaim at hn
    split at hn
    · rename_i hi; exact hi.1
    · cases hn

/-- A path granted to an operation that held none, for no port or for one that is offered its reconnection (R64). -/
theorem State.Joined.grant {u : State} (h : u.Joined) (n : PathNo) (x : PathHold) (hu : ∀ m, u.usesPath x.drive m = false)
    (hl : ∀ p, x.port = some p → (u.port p).offer.map Prod.fst = some (.reconnect x.drive)) : (u.setPath n (some x)).Joined := by
  have hpath : ∀ m y, (u.setPath n (some x)).path m = some y → m = n ∧ y = x ∨ m ≠ n ∧ u.path m = some y := by
    intro m y e
    rw [State.setPath_path] at e
    split at e
    · cases e; exact .inl ⟨by symm; assumption, rfl⟩
    · exact .inr ⟨fun h => by simp_all, e⟩
  refine ⟨h.agree, fun m y p e hp => ?_, fun d m m' e e' => ?_⟩
  · rcases hpath m y e with ⟨_, rfl⟩ | ⟨_, e⟩
    · exact .inr (hl p hp)
    · exact h.linked m y p e hp
  · have up : ∀ m, (u.setPath n (some x)).usesPath d m = true → (m = n ∧ d = x.drive) ∨ u.usesPath d m = true := by
      intro m e
      obtain ⟨y, e1, e2, e3⟩ := (State.usesPath_iff _ _ _).mp e
      rcases hpath m y e1 with ⟨e4, rfl⟩ | ⟨_, e4⟩
      · exact .inl ⟨e4, e2.symm⟩
      · exact .inr ((State.usesPath_iff _ _ _).mpr ⟨y, e4, e2, e3⟩)
    rcases up m e with ⟨h1, h2⟩ | h1 <;> rcases up m' e' with ⟨h3, h4⟩ | h3
    · exact h1.trans h3.symm
    · rw [h2, hu] at h3; cases h3
    · rw [h4, hu] at h1; cases h1
    · exact h.onePath d m m' h1 h3

theorem State.grantInternal_kept (hk : Kept K s) (n : PathNo) (d : Drive) (hu : ∀ m, s.usesPath d m = false) :
    Kept K (s.grantInternal n d) := by
  have h0 : Kept K (s.setPath n (some { drive := d, port := none })) :=
    (State.setPath_loose hk n _).rejoin fun hj => (hk.joined hj).grant n _ hu (fun _ e => by cases e)
  have h1 := State.modOp_kept h0 d (fun o => { o.arm with orient := none, miss := 0 }) (fun _ _ => Nat.zero_le _)
  unfold State.grantInternal
  dsimp only
  split
  · split
    · exact State.altWritten_kept (State.freeInternalPath_kept h1 d) d false
    · exact h1
  all_goals exact h1

/-- An IDLE port makes an offer (R150). -/
theorem State.makeOffer_kept (hk : Kept K s) (p : Port) (address : Nat) (o : Offer) (hi : (s.port p).state = .idle) :
    Kept K (s.makeOffer p address o) := by
  have hc : K.joint → (s.port p).conn = none := fun hj =>
    PortRec.conn_none ((hk.joined hj).agree p) (by rw [hi]; exact fun h => by cases h)
  have ho : K.joint → (s.port p).offer = none := fun hj =>
    PortRec.offer_none ((hk.joined hj).agree p) (by rw [hi]; exact fun h => by cases h)
  refine State.modPort_kept_of hk p _ (fun _ => rfl) (fun hj => ?_)
    (fun hj => (hk.joined hj).noPath (hc hj) (fun d => by rw [ho hj]; exact fun h => by cases h)) (by exact Or.inl)
    fun h => h.le (le_of_eq (PortRec.slots_push (s.port p) _ rfl)) (Nat.le_refl _) (Nat.le_refl _)
  rw [PortRec.agrees_iff]
  simp [hc hj]

/-- A reconnection offered at an IDLE port, with the path granted for it (R69). -/
theorem State.grantExternal_kept (hk : Kept K s) (n : PathNo) (d : Drive) (p : Port) (hi : (s.port p).state = .idle)
    (hu : ∀ m, s.usesPath d m = false) : Kept K (s.grantExternal n d p) := by
  have h1 : Kept K ((s.modOp d fun o =>
      { o with orient := o.orient.map fun x => { x with req := .granted } }).makeOffer p ((s.port p).addressOf (.drive d)) (.reconnect d)) :=
    State.makeOffer_kept (State.modOp_kept hk d _ (by exact fun _ h => h)) p _ _ hi
  refine (State.setPath_loose h1 n (some { drive := d, port := some p })).rejoin fun hj =>
    (h1.joined hj).grant n _ (fun m => ?_) (fun q e => ?_)
  · rw [Bool.eq_false_iff]
    intro e
    obtain ⟨x, e1, e2, e3⟩ := (State.usesPath_iff _ _ _).mp e
    have hno : x.port ≠ some p := by
      refine (hk.joined hj).noPath ?_ ?_ m x e1
      · exact PortRec.conn_none ((hk.joined hj).agree p) (by rw [hi]; exact fun h => by cases h)
      · intro e; rw [PortRec.offer_none ((hk.joined hj).agree p) (by rw [hi]; exact fun h => by cases h)]
        exact fun h => by cases h
    have hd := hu m
    rw [Bool.eq_false_iff] at hd
    refine hd ((State.usesPath_iff _ _ _).mpr ⟨x, e1, e2, fun q hq => ?_⟩)
    have hqp : p ≠ q := fun h => hno (h ▸ hq)
    rcases e3 q hq with h2 | h2
    · refine .inl ?_
      unfold State.makeOffer at h2
      rw [State.modPort_port, if_neg hqp] at h2
      exact h2
    · refine .inr ?_
      have h3 : ((s.modOp d fun o => { o with orient := o.orient.map fun x => { x with req := .granted } }).op d).bind
          Operation.conn = some q := h2
      rw [State.modOp_op, if_pos rfl] at h3
      cases ho : s.op d with
      | none => rw [ho] at h3; cases h3
      | some o => rw [ho] at h3; exact h3
  · cases e
    unfold State.makeOffer
    rw [State.modPort_port, if_pos rfl]
    rfl

theorem State.takeClaim_kept (hk : Kept K s) (p : Port) (c : Claim) (h : c ∈ s.claims p) : Kept K (s.takeClaim p c) := by
  have hf := State.claims_free h
  unfold State.takeClaim
  split
  · exact State.grantExternal_kept hk _ _ p hf.1 (hf.2 _ _ rfl)
  · exact State.makeOffer_kept hk p _ _ hf.1
  · exact State.makeOffer_kept hk p _ _ hf.1

theorem State.serveOne_kept (hk : Kept K s) (p : Port) : Kept K (s.serveOne p) := by
  unfold State.serveOne
  split
  · exact hk
  · rename_i c e
    exact State.takeClaim_kept hk p c (by rw [e]; exact List.mem_singleton_self c)
  · rename_i c rest _ e
    refine State.choices_kept (State.takeClaim_kept hk p _ ?_) _
    rw [e]
    have : Config.claimChoice s.choices % (c :: rest).length < (c :: rest).length := Nat.mod_lt _ (by simp)
    rw [List.getD_eq_getElem _ _ this]
    exact List.getElem_mem this

theorem State.serveRounds_kept (hk : Kept K s) (n : Nat) : Kept K (s.serveRounds n) := by
  induction n generalizing s with
  | zero => exact hk
  | succ n ih =>
    unfold State.serveRounds
    split
    · rename_i e
      refine ih (State.grantInternal_kept hk _ _ ?_)
      unfold State.internalDecision at e
      split at e
      · rename_i hd
        split at e
        · cases e; exact (State.decision_free hd).1
        · cases e
      · cases e
    · split
      · exact ih (State.serveOne_kept hk _)
      · exact hk

theorem State.serveClaims_kept (hk : Kept K s) : Kept K s.serveClaims := State.serveRounds_kept hk 12

theorem State.deferOffer_kept (hk : Kept K s) (p : Port) : Kept K (s.deferOffer p) := by
  unfold State.deferOffer
  split
  · rename_i e
    exact State.modOp_kept (State.dropOffer_free_kept hk p (by rw [e]; rfl)) _ _ (fun o h => Operation.deferredBy_miss o p h)
      (fun o => .inl (Operation.deferredBy_conn o p))
  · rename_i e
    exact State.modOp_kept (State.dropOffer_kept hk p (by rw [e]; rfl) (by rw [e]; exact fun _ h => by cases h)) _ _ (fun _ h => h)
  · rename_i e
    exact State.setHeld_kept (State.dropOffer_kept hk p (by rw [e]; rfl) (by rw [e]; exact fun _ h => by cases h)) p true
  · exact hk

theorem State.consequences_kept (hk : Kept K s) (d : Drive) : Kept K (s.consequences d) := by
  unfold State.consequences
  repeat' first
    | with_reducible assumption
    | with_reducible apply State.requestLapse_kept
    | with_reducible apply State.requestRaise_kept
    | with_reducible apply State.holdExpire_kept
    | with_reducible apply State.idleExpire_kept
    | with_reducible apply State.searchBound_kept
    | with_reducible apply State.searchLimit_kept

theorem State.settle_kept (hk : Kept K s) : Kept K s.settle := by
  unfold State.settle
  split
  · exact State.serveClaims_kept (State.consequences_kept (State.due_kept hk none) _)
  · exact hk

theorem State.marked_kept (hk : Kept K s) (d : Drive) : Kept K (s.marked d) := by
  unfold State.marked
  dsimp only
  repeat' first
    | with_reducible assumption
    | with_reducible apply State.modOp_kept
    | exact fun _ => Or.inl rfl
    | exact fun _ => Or.inr rfl
    | with_reducible apply State.due_kept
    | exact fun _ => rfl
    | exact fun _ h => h

theorem State.unitIdleExpire_kept (hk : Kept K s) (p : Port) : Kept K (s.unitIdleExpire p) := by
  unfold State.unitIdleExpire
  split
  · exact State.endConnection_kept hk p
  · exact hk

theorem State.deadlineExpire_kept (hk : Kept K s) (d : Drive) : Kept K (s.deadlineExpire d) := by
  unfold State.deadlineExpire
  split
  · exact State.motionFailure_kept (State.modPos_kept hk d _
      (by exact fun _ => ⟨rfl, rfl, fun _ => Nat.min_le_left _ _⟩)) d
  · exact hk

/-- An IDLE port opens a connection (R146). -/
theorem State.openConnection_kept (hk : Kept K s) (p : Port) (c : Conn) (hi : K.joint → (s.port p).state = .idle) :
    Kept K (s.openConnection p c) := by
  have ho : K.joint → (s.port p).offer = none := fun hj =>
    PortRec.offer_none ((hk.joined hj).agree p) (by rw [hi hj]; exact fun h => by cases h)
  refine State.modPort_kept_of hk p _ (fun _ => rfl) (fun hj => ?_) (fun hj => (hk.joined hj).noPath ?_ (fun d => ?_))
  · rw [PortRec.agrees_iff]
    simp [ho hj]
  · exact PortRec.conn_none ((hk.joined hj).agree p) (by rw [hi hj]; exact fun h => by cases h)
  · rw [ho hj]; exact fun h => by cases h

/-- A port that has deferred its offer is IDLE (R151). -/
theorem State.deferOffer_idle (s : State) (p : Port) (h : (s.port p).offer.isSome = true) :
    ((s.deferOffer p).port p).state = .idle := by
  have hd : ((s.dropOffer p).port p).state = .idle := by
    unfold State.dropOffer
    rw [State.modPort_port, if_pos rfl]
    rfl
  unfold State.deferOffer
  split
  · exact hd
  · exact hd
  · exact hd
  · rename_i e; rw [e] at h; cases h

theorem State.portBusy_kept (hk : Kept K s) (p : Port) (c : Conn) (disconnected : Bool) : Kept K (s.portBusy p c disconnected) := by
  unfold State.portBusy
  dsimp only
  repeat' first
    | with_reducible assumption
    | with_reducible apply State.sendStatus_kept

theorem State.busyConnected_kept (hk : Kept K s) (p : Port) (c : Conn) : Kept K (s.busyConnected p c) := by
  unfold State.busyConnected
  dsimp only
  repeat' first
    | with_reducible assumption
    | with_reducible apply State.armIdle_kept
    | with_reducible apply State.portBusy_kept
    | with_reducible apply State.modOp_kept
    | exact fun _ => Or.inl rfl
    | exact fun _ => Or.inr rfl
    | exact fun _ h => h
    | split

theorem State.noConnection_kept (hk : Kept K s) (p : Port) (c : Conn) : Kept K (s.noConnection p c) := by
  unfold State.noConnection
  repeat' first
    | with_reducible assumption
    | with_reducible apply State.sendStatus_kept

theorem State.unitRefuse_kept (hk : Kept K s) (p : Port) : Kept K (s.unitRefuse p) := by
  unfold State.unitRefuse
  repeat' first
    | with_reducible assumption
    | with_reducible apply State.sendStatus_kept
    | with_reducible apply State.unitReject_kept
    | split

theorem State.bareReject_kept (hk : Kept K s) (p : Port) (d : Drive) : Kept K (s.bareReject p d) := by
  unfold State.bareReject
  dsimp only
  repeat' first
    | with_reducible assumption
    | with_reducible apply State.modPort_kept
    | exact Or.inl
    | exact fun h => h
    | exact fun h => h.le (Nat.le_refl _) (Nat.zero_le _) (Nat.zero_le _)
    | exact fun _ => PortRec.bufferSound_empty (dropData_slots _) rfl rfl
    | with_reducible apply State.reply_kept
    | exact fun _ => rfl

theorem State.refuseWithin_kept (hk : Kept K s) (d : Drive) (p : Port) (e : StopEnd) : Kept K (s.refuseWithin d p e) := by
  unfold State.refuseWithin
  repeat' first
    | with_reducible assumption
    | with_reducible apply State.stopCommand_kept
    | with_reducible apply State.bareReject_kept
    | split

theorem State.rejectWithin_kept (hk : Kept K s) (d : Drive) (p : Port) (hold : Bool) : Kept K (s.rejectWithin d p hold) :=
  State.refuseWithin_kept hk d p _

theorem State.refuseEnding_kept (hk : Kept K s) (p : Port) (c : Conn) : Kept K (s.refuseEnding p c) := by
  unfold State.refuseEnding
  repeat' first
    | with_reducible assumption
    | with_reducible apply State.sendStatus_kept

theorem State.commandAt_kept (hk : Kept K s) (p : Port) (c : Conn) {s' : State} {y : Place} (e : s.commandAt p c = (s', y)) : Kept K s' := by
  unfold State.commandAt at e
  revert e
  repeat' first
    | with_reducible assumption
    | with_reducible apply State.refuseEnding_kept
    | with_reducible apply State.rejectWithin_kept
    | with_reducible apply State.unitRefuse_kept
    | (intro e; cases e)
    | exact fun _ => ⟨rfl, rfl, fun h => h⟩
    | split

theorem State.selectAt_kept (hk : Kept K s) (p : Port) (c : Conn) {s' : State} {y : Place} (e : s.selectAt p c = (s', y)) : Kept K s' := by
  unfold State.selectAt at e
  split at e
  · cases e; exact hk
  · cases e; exact State.openConnection_kept hk p c fun _ => ‹_›
  · cases e; exact State.busyConnected_kept hk p c
  · rename_i ho
    split at e
    · cases e; exact State.portBusy_kept hk p c true
    · cases e
      refine State.openConnection_kept (State.deferOffer_kept hk p) p c fun hj => State.deferOffer_idle s p ?_
      exact ((s.port p).agrees_iff.mp ((hk.joined hj).agree p)).2.mpr ho
  · cases e; exact State.portBusy_kept hk p c true

theorem State.receive_kept (hk : Kept K s) (h : Hdr) {s' : State} {y : Place} (e : s.receive h = (s', y)) :
    Kept K s' := by
  unfold State.receive at e
  split at e
  · cases e; exact hk
  · split at e
    · cases e; exact hk
    · split at e
      · exact State.selectAt_kept hk _ _ e
      · split at e
        · cases e; exact State.noConnection_kept hk _ _
        · cases e; exact State.noConnection_kept hk _ _
        · exact State.commandAt_kept hk _ _ e
        · cases e; exact hk
        · cases e; exact hk

/-- A command that passes admission keeps what it is given; a refusal keeps all. -/
theorem State.passAdmission_kept (hk : Kept K s) (d : Drive) (p : Port) (st : Steps) (f : State → State)
    (hf : s.admission d p st = .admitted → Kept K (f s)) : Kept K (s.passAdmission d p st f) := by
  unfold State.passAdmission
  split
  · exact hf ‹_›
  · exact State.reply_kept hk p d _
  · exact State.reply_kept (State.oweCommand_kept hk d p) p d _

/-- Admission at every step leaves no operation, and no hold but the port's own (R160). -/
theorem State.admission_admitted (d : Drive) (p : Port) (h : s.admission d p .all = .admitted) :
    s.op d = none ∧ s.heldByOther d p = false := by
  unfold State.admission at h
  split at h
  · cases h
  · split at h
    · cases h
    · split at h
      · cases h
      · rename_i h3
        split at h
        · cases h
        · split at h
          · cases h
          · rename_i h5
            exact ⟨by simpa using h5, by simpa using h3⟩

/-- A fold that keeps a reading at every step keeps it. -/
theorem foldl_keeps {α β : Type} (g : State → β) (f : State → α → State) (hf : ∀ s x, g (f s x) = g s) (l : List α) :
    ∀ s : State, g (l.foldl f s) = g s := by
  induction l with
  | nil => exact fun _ => rfl
  | cons x l ih => exact fun s => (ih _).trans (hf s x)

/-- Posting a notice changes its port's queue and overflow flag only. -/
theorem State.post_ops (s : State) (p : Port) (n : Notice) : (s.post p n).ops = s.ops := by
  unfold State.post
  split <;> rfl

theorem State.post_sharing (s : State) (p : Port) (n : Notice) : (s.post p n).sharing = s.sharing := by
  unfold State.post
  split <;> rfl

theorem State.post_share (s : State) (p : Port) (n : Notice) (d : Drive) : (s.post p n).share d = s.share d := by
  unfold State.share
  rw [State.post_sharing]

/-- The test of R170 changes no operation, no hold and no owner. -/
theorem State.owedTest_ops (s : State) (d : Drive) : (s.owedTest d).ops = s.ops := by
  refine foldl_keeps State.ops _ (fun s p => ?_) _ s
  split
  · split
    · exact (State.post_ops _ _ _).trans rfl
    · rfl
  · rfl

theorem State.owedTest_hold (s : State) (d e : Drive) : ((s.owedTest d).share e).hold = (s.share e).hold := by
  refine foldl_keeps (fun s => (s.share e).hold) _ (fun s p => ?_) _ s
  split
  · split
    · rw [State.post_share, State.removeOwed, State.modShare_share]
      split
      · subst_vars; rfl
      · rfl
    · rfl
  · rfl

theorem State.endOwnHold_ops (s : State) (d : Drive) (p : Port) : (s.endOwnHold d p).ops = s.ops := by
  unfold State.endOwnHold
  split
  · exact (State.owedTest_ops _ d).trans rfl
  · rfl

/-- The holding port's command leaves no hold (R168). -/
theorem State.endOwnHold_hold (s : State) (d : Drive) (p : Port) (h : s.heldByOther d p = false) :
    ((s.endOwnHold d p).share d).hold = none := by
  unfold State.endOwnHold
  split
  · rw [State.owedTest_hold, State.dropHold, State.modShare_share_same]
  · rename_i hb
    unfold State.heldByOther at h
    unfold State.heldBy at hb
    cases hh : (s.share d).hold with
    | none => rfl
    | some x =>
      rw [hh] at h hb
      simp_all

theorem State.op_of_ops {s t : State} (h : s.ops = t.ops) (d : Drive) : s.op d = t.op d := by
  unfold State.op
  rw [h]

theorem State.admitEnding_kept (hk : Kept K s) (d : Drive) (p : Port) (f : State → State)
    (hf : ∀ t, Kept K t → t.op d = none → (t.share d).hold = none → Kept K (f t)) : Kept K (s.admitEnding d p f) :=
  State.passAdmission_kept hk d p .all _ fun ha =>
    hf _ (State.endOwnHold_kept hk d p)
      ((State.op_of_ops (State.endOwnHold_ops s d p) d).trans (State.admission_admitted d p ha).1)
      (State.endOwnHold_hold s d p (State.admission_admitted d p ha).2)

theorem State.rejectHolding_kept (hk : Kept K s) (d : Drive) (p : Port) (record : Nat) (ho : s.op d = none) :
    Kept K (s.rejectHolding d p record) :=
  State.beginHold_kept (State.reply_kept hk p d _) d p _ ho

theorem State.neverFirst_kept (hk : Kept K s) (d : Drive) (p : Port) : Kept K (s.neverFirst d p) :=
  State.admitEnding_kept hk d p _ fun _ ht ho _ => State.rejectHolding_kept ht d p 0 ho

/-- A drive command keeps all, if each of its three places does. -/
theorem State.driveCommand_kept (hk : Kept K s) (h : Hdr) (hold : Bool) (first : State → Drive → State)
    (within : State → Drive → Operation → State) (bare : State → Drive → State)
    (h1 : ∀ t d, Kept K t → Kept K (first t d)) (h2 : ∀ t d o, Kept K t → Kept K (within t d o))
    (h3 : ∀ t d, Kept K t → Kept K (bare t d)) : Kept K (s.driveCommand h hold first within bare) := by
  unfold State.driveCommand
  split
  · rename_i e; exact State.receive_kept hk h e
  · rename_i e; exact State.unitRefuse_kept (State.receive_kept hk h e) _
  · rename_i e; exact State.unitRefuse_kept (State.receive_kept hk h e) _
  · rename_i e; exact h1 _ _ (State.receive_kept hk h e)
  · rename_i e
    have hr := State.receive_kept hk h e
    split
    · split
      · exact State.rejectWithin_kept hr _ _ _
      · exact h2 _ _ _ hr
    · split
      · exact State.bareReject_kept hr _ _
      · exact h3 _ _ hr

theorem State.selectOnly_kept (hk : Kept K s) (h : Hdr) (first : State → Drive → State)
    (h1 : ∀ t d, Kept K t → Kept K (first t d)) : Kept K (s.selectOnly h first) :=
  State.driveCommand_kept hk h true _ _ _ h1 (fun _ _ _ ht => State.rejectWithin_kept ht _ _ _)
    (fun _ _ ht => State.bareReject_kept ht _ _)

theorem State.operationOnly_kept (hk : Kept K s) (h : Hdr) (within : State → Drive → Operation → State)
    (h2 : ∀ t d o, Kept K t → Kept K (within t d o)) : Kept K (s.operationOnly h within) :=
  State.driveCommand_kept hk h true _ _ _ (fun _ _ ht => State.neverFirst_kept ht _ _) h2
    (fun _ _ ht => State.bareReject_kept ht _ _)

theorem State.sharingCommand_kept (hk : Kept K s) (h : Hdr) (hold : Bool) (take : State → Drive → State)
    (h1 : ∀ t d, Kept K t → Kept K (take t d)) : Kept K (s.sharingCommand h hold take) :=
  State.driveCommand_kept hk h hold _ _ _ h1 (fun _ _ _ ht => State.rejectWithin_kept ht _ _ _) h1

/-- A unit order keeps all, if its own effect does. -/
theorem State.unitOrderAs_kept (hk : Kept K s) (h : Hdr) (e : StopEnd) (take : State → State) (h1 : ∀ t, Kept K t → Kept K (take t)) :
    Kept K (s.unitOrderAs h e take) := by
  unfold State.unitOrderAs
  split
  · rename_i e; exact State.receive_kept hk h e
  · rename_i e; exact State.neverFirst_kept (State.receive_kept hk h e) _ _
  · rename_i e; exact State.refuseWithin_kept (State.receive_kept hk h e) _ _ _
  · rename_i e; exact h1 _ (State.modPort_kept (State.receive_kept hk h e) _ _ (by intro; rfl))
  · rename_i e
    have hr := State.receive_kept hk h e
    split
    · exact State.unitRefuse_kept hr _
    · exact h1 _ (State.modPort_kept hr _ _ (by intro; rfl))

theorem State.unitOrder_kept (hk : Kept K s) (h : Hdr) (take : State → State) (h1 : ∀ t, Kept K t → Kept K (take t)) :
    Kept K (s.unitOrder h take) := State.unitOrderAs_kept hk h _ take h1

theorem State.controlOrder_kept (hk : Kept K s) (h : Hdr) (take : State → State) (h1 : ∀ t, Kept K t → Kept K (take t)) :
    Kept K (s.controlOrder h take) :=
  State.unitOrder_kept hk h _ fun t ht => by
    split
    · exact h1 t ht
    · exact State.unitReject_kept ht _ 0

theorem State.unitHeld_kept (hk : Kept K s) (p : Port) (r : Reason) (ds : List Drive) : Kept K (s.unitHeld p r ds) :=
  State.unitStatus_kept (foldl_kept _ (fun _ x h => State.oweOrder_kept h x p) ds s hk) p _

theorem State.unitDone_kept (hk : Kept K s) (p : Port) : Kept K (s.unitDone p) := by
  unfold State.unitDone
  repeat' first
    | with_reducible assumption
    | with_reducible apply State.unitStatus_kept

theorem State.takeLocate_kept (hk : Kept K s) (d : Drive) (p : Port) (t : Track) (record sector : Nat)
    (ho : s.op d = none) (hf : (s.share d).hold = none) (hi : ¬ K.idle d) : Kept K (s.takeLocate d p t record sector) := by
  unfold State.takeLocate
  split
  · exact State.rejectHolding_kept hk d p record ho
  · refine State.position_kept (State.sendStatus_kept (State.setOp_kept hk d (some _) ?_ ?_ (fun _ h => by cases h) (absurd · hi)) p _ _ _) d
    · intro _ x hx; cases hx; exact Nat.zero_le _
    · intro _ hh; rw [hf] at hh; cases hh

theorem State.takeRecalibrate_kept (hk : Kept K s) (d : Drive) (p : Port) (hf : (s.share d).hold = none) (hi : ¬ K.idle d) :
    Kept K (s.takeRecalibrate d p) := by
  refine State.beginRecalibrate_kept (State.sendStatus_kept (State.setOp_kept hk d (some _) ?_ ?_ (fun _ h => by cases h) (absurd · hi)) p _ _ _) d
  · intro _ x hx; cases hx; exact Nat.zero_le _
  · intro _ hh; rw [hf] at hh; cases hh

theorem State.takeSearch_kept (hk : Kept K s) (d : Drive) (p : Port) (o : Operation) (condition : Nat) (argument : List Byte) : Kept K (s.takeSearch d p o condition argument) := by
  unfold State.takeSearch
  repeat' first
    | with_reducible assumption
    | with_reducible apply State.faultInConnection_kept
    | with_reducible apply State.modOp_kept
    | exact fun _ => Or.inl rfl
    | exact fun _ => Or.inr rfl
    | with_reducible apply State.setCmd_kept
    | exact fun _ => rfl
    | exact fun _ h => h
    | exact fun _ _ => Nat.zero_le _
    | split

theorem State.takeRead_kept (hk : Kept K s) (d : Drive) (p : Port) (o : Operation) (count span : Nat) : Kept K (s.takeRead d p o count span) := by
  unfold State.takeRead
  dsimp only
  repeat' first
    | with_reducible assumption
    | with_reducible apply State.faultInConnection_kept
    | with_reducible apply State.modOp_kept
    | exact fun _ => Or.inl rfl
    | exact fun _ => Or.inr rfl
    | exact fun _ => rfl
    | exact fun _ h => h
    | exact fun _ _ => Nat.zero_le _
    | split

theorem State.takeWrite_kept (hk : Kept K s) (d : Drive) (p : Port) (o : Operation) (count : Nat) :
    Kept K (s.takeWrite d p o count) := by
  unfold State.takeWrite
  split
  · exact State.faultInConnection_kept hk d p o _ _ _ _
  · split
    · exact State.faultInConnection_kept hk d p o _ _ _ _
    · split
      · exact State.faultInConnection_kept hk d p o _ _ _ _
      · exact State.requestBytes_kept (State.modOp_kept hk d _ (by exact fun _ h => h)) d p 2

theorem State.takeFormat_kept (hk : Kept K s) (d : Drive) (p : Port) (o : Operation) (ds : List Descriptor) : Kept K (s.takeFormat d p o ds) := by
  unfold State.takeFormat
  dsimp only
  repeat' first
    | with_reducible assumption
    | with_reducible apply State.faultInConnection_kept
    | with_reducible apply State.modOp_kept
    | exact fun _ => Or.inl rfl
    | exact fun _ => Or.inr rfl
    | with_reducible apply State.setCmd_kept
    | exact fun _ => rfl
    | exact fun _ h => h
    | exact fun _ _ => Nat.zero_le _
    | split

theorem State.driveStateAnswer_kept (hk : Kept K s) (d : Drive) (p : Port) : Kept K (s.driveStateAnswer d p) := by
  unfold State.driveStateAnswer
  repeat' first
    | with_reducible assumption
    | with_reducible apply State.answerData_kept

theorem State.takeFaultRecord_kept (hk : Kept K s) (d : Drive) (p : Port) : Kept K (s.takeFaultRecord d p) := by
  unfold State.takeFaultRecord
  dsimp only
  repeat' first
    | with_reducible assumption
    | with_reducible apply State.endOwnHold_kept
    | with_reducible apply State.answerData_kept

theorem State.setOwner_kept (hk : Kept K s) (d : Drive) (g : Option Nat) : Kept K (s.setOwner d g) := by
  unfold State.setOwner
  repeat' first
    | with_reducible assumption
    | with_reducible apply State.modShare_kept
    | exact fun _ => rfl
    | exact fun _ h => h

theorem State.takeReserve_kept (hk : Kept K s) (d : Drive) (p : Port) (ho : s.op d = none) :
    Kept K (s.takeReserve d p) := by
  unfold State.takeReserve
  dsimp only
  split
  · exact State.rejectHolding_kept hk d p 0 ho
  · exact State.reply_kept (State.setOwner_kept hk d _) p d _

theorem State.takeRelease_kept (hk : Kept K s) (d : Drive) (p : Port) : Kept K (s.takeRelease d p) := by
  unfold State.takeRelease
  dsimp only
  repeat' first
    | with_reducible assumption
    | with_reducible apply State.setOwner_kept
    | with_reducible apply State.dropHold_kept
    | with_reducible apply State.owedTest_kept
    | with_reducible apply State.reply_kept
    | split

theorem State.breakOperation_kept (hk : Kept K s) (d : Drive) : Kept K (s.breakOperation d) := by
  unfold State.breakOperation
  repeat' first
    | with_reducible assumption
    | with_reducible apply State.stopCommand_kept
    | with_reducible apply State.abortQuietly_kept
    | with_reducible apply State.answerWaiting_kept
    | split

theorem State.breakHold_kept (hk : Kept K s) (d : Drive) (p : Port) : Kept K (s.breakHold d p) := by
  unfold State.breakHold
  repeat' first
    | with_reducible assumption
    | with_reducible apply State.dropHold_kept
    | split

theorem State.postBroken_kept (hk : Kept K s) (d : Drive) (previous : Option Nat) (group : Nat) : Kept K (s.postBroken d previous group) := by
  unfold State.postBroken
  dsimp only
  repeat' first
    | with_reducible assumption
    | with_reducible apply State.forPorts_kept
    | with_reducible apply State.post_kept
    | (intro _ _ hh; clear hk)
    | split

theorem State.breakReservation_kept (hk : Kept K s) (d : Drive) (p : Port) : Kept K (s.breakReservation d p) := by
  unfold State.breakReservation
  have h1 := State.modShare_kept hk d (fun x => { x with owed := Vector.replicate 4 none }) (fun _ h => h)
  have h2 := State.postBroken_kept (State.setOwner_kept (State.breakHold_kept (State.breakOperation_kept h1 d) d p) d
    (some (s.port p).group)) d (s.share d).owner (s.port p).group
  have h3 := State.freeAllOwed_kept (State.modShare_kept h2 d (fun x => { x with owed := (s.share d).owed }) (fun _ h => h)) d (some p)
  revert h3
  dsimp only
  generalize State.freeAllOwed _ d (some p) = u
  intro h3
  split
  · exact State.modPort_kept h3 p _ (fun _ => rfl)
  · exact State.reply_kept h3 p d _

theorem State.takeReserveUnconditional_kept (hk : Kept K s) (d : Drive) (p : Port) :
    Kept K (s.takeReserveUnconditional d p) := by
  unfold State.takeReserveUnconditional
  split
  · exact State.reply_kept hk p d _
  · split
    · exact State.breakReservation_kept hk d p
    · exact State.reply_kept (State.oweCommand_kept hk d p) p d _

theorem State.unknownFirst_kept (hk : Kept K s) (d : Drive) (p : Port) (code : Nat) : Kept K (s.unknownFirst d p code) := by
  unfold State.unknownFirst
  dsimp only
  split
  · exact State.reply_kept hk p d _
  · exact State.passAdmission_kept hk d p _ _ fun _ => State.reply_kept (State.endOwnHold_kept hk d p) p d _
  · exact State.passAdmission_kept hk d p _ _ fun _ => State.reply_kept hk p d _
  · exact State.passAdmission_kept hk d p _ _ fun _ => State.reply_kept (State.endOwnHold_kept hk d p) p d _
  · exact State.neverFirst_kept hk d p

/-- The entries of an order in which R121 step 5 finds no clash. -/
theorem State.firstClash_none (es : List SpareItem) (earlier : List SpareItem) (n : Nat) (h : s.firstClash earlier n es = none) :
    es.Pairwise (fun x y => y.clashes x = false) ∧ ∀ e ∈ es, s.clashes e = false ∧ ∀ x ∈ earlier, e.clashes x = false := by
  induction es generalizing earlier n with
  | nil => exact ⟨List.Pairwise.nil, fun _ h => by cases h⟩
  | cons e es ih =>
    unfold State.firstClash at h
    split at h
    · cases h
    · rename_i hc
      have hc' : s.clashes e = false ∧ ∀ x ∈ earlier, e.clashes x = false := by
        simp only [Bool.or_eq_true, not_or, Bool.not_eq_true, List.any_eq_false] at hc
        exact ⟨hc.1, fun x hx => by simpa using hc.2 x hx⟩
      obtain ⟨h1, h2⟩ := ih _ _ h
      refine ⟨List.pairwise_cons.mpr ⟨fun y hy => (h2 y hy).2 e (List.mem_cons_self ..), h1⟩, fun x hx => ?_⟩
      rcases List.mem_cons.mp hx with rfl | hx
      · exact hc'
      · exact ⟨(h2 x hx).1, fun y hy => (h2 x hx).2 y (List.mem_cons_of_mem _ hy)⟩

theorem firstBad_none {α : Type} {ok : α → Bool} {l : List α} (h : firstBad ok l = none) : ∀ x ∈ l, ok x = true := by
  intro x hx
  have h1 := Option.map_eq_none_iff.mp h
  rw [List.findIdx?_eq_none_iff] at h1
  simpa using h1 x hx

/-- Entries loaded past their range checks lie in their places (R107, R121). -/
theorem State.loaded_inPlace (es : List SpareItem) (hd : firstBad s.itemDrive es = none) (ht : firstBad s.itemTracks es = none)
    (hm : ∀ e ∈ s.spareMap, s.inPlace e) :
    ∀ e ∈ s.spareMap ++ es.filterMap fun e => (driveOf e.drive).map e.entry, s.inPlace e := by
  intro e he
  rcases List.mem_append.mp he with h | h
  · exact hm e h
  · obtain ⟨x, hx, hxe⟩ := List.mem_filterMap.mp h
    obtain ⟨d, hdr, rfl⟩ := Option.map_eq_some_iff.mp hxe
    have h1 := firstBad_none hd x hx
    have h2 := firstBad_none ht x hx
    unfold State.itemDrive at h1
    unfold State.itemTracks at h2
    rw [hdr] at h1 h2
    simp only [Bool.and_eq_true] at h2
    refine ⟨h1, h2.1, fun q hq => ?_⟩
    simp only [SpareItem.entry, SpareEntry.alternates, Option.toList_some, Option.toList_none, List.append_nil,
      List.mem_singleton] at hq
    exact hq ▸ h2.2

/-- Entries loaded without a clash keep the entries apart (R107, R121). -/
theorem State.loaded_apart (es : List SpareItem) (h : s.firstClash [] 1 es = none) (hm : s.spareMap.Pairwise SpareEntry.apart) :
    (s.spareMap ++ es.filterMap fun e => (driveOf e.drive).map e.entry).Pairwise SpareEntry.apart := by
  obtain ⟨h1, h2⟩ := State.firstClash_none es [] 1 h
  have hdr : ∀ {n : Nat} {d : Drive}, driveOf n = some d → d.val = n := by
    intro n d e
    unfold driveOf at e
    split at e <;> cases e
    rfl
  refine List.pairwise_append.mpr ⟨hm, ?_, fun x hx y hy hd => ?_⟩
  · refine List.pairwise_filterMap.mpr (h1.imp fun {a b} hab x hx y hy hd => ?_)
    obtain ⟨da, ha, rfl⟩ := Option.map_eq_some_iff.mp hx
    obtain ⟨db, hb, rfl⟩ := Option.map_eq_some_iff.mp hy
    have hd : da = db := hd
    have hdd : b.drive = a.drive := by rw [← hdr ha, ← hdr hb, hd]
    simp only [SpareItem.clashes, hdd, decide_true, Bool.true_and, Bool.or_eq_false_iff, decide_eq_false_iff_not] at hab
    refine ⟨fun h => hab.1.1.1 h.symm, fun q hq hq' => ?_⟩
    simp only [SpareItem.entry, SpareEntry.alternates, Option.toList_some, Option.toList_none, List.append_nil,
      List.mem_singleton] at hq hq'
    exact hab.2 (hq'.symm.trans hq)
  · obtain ⟨e, he, hy⟩ := List.mem_filterMap.mp hy
    obtain ⟨d, hde, rfl⟩ := Option.map_eq_some_iff.mp hy
    have hc := (h2 e he).1
    unfold State.clashes at hc
    rw [List.any_eq_false] at hc
    have hc := hc x hx
    have hd : x.drive = d := hd
    have hdd : x.drive.val = e.drive := by rw [hd]; exact hdr hde
    simp only [hdd, decide_true, Bool.true_and, Bool.or_eq_true, not_or, SpareEntry.mentions, decide_eq_true_eq] at hc
    refine ⟨hc.1.1, fun q hq hq' => ?_⟩
    simp only [SpareItem.entry, SpareEntry.alternates, Option.toList_some, Option.toList_none, List.append_nil,
      List.mem_singleton] at hq'
    exact hc.2.2 ((SpareEntry.holds_iff x e.alternate).mpr (hq' ▸ hq))

theorem State.takeSpareEntries_kept (hk : Kept K s) (p : Port) (es : List SpareItem) : Kept K (s.takeSpareEntries p es) := by
  unfold State.takeSpareEntries
  split
  · exact State.unitReject_kept hk p _
  · split
    · exact State.unitReject_kept hk p _
    · exact State.unitReject_kept hk p _
    · exact State.unitReject_kept hk p _
    · rename_i hdrv htrk hclash
      split
      · exact State.unitReject_kept hk p _
      · split
        · rename_i hroom _
          refine State.unitDone_kept (State.spareMap_kept hk _ (fun _ => ?_)
            (fun hl => State.loaded_apart es hclash (hk.sound hl).apart) fun hl => State.loaded_inPlace es hdrv htrk (hk.sound hl).inPlace) p
          have := List.length_filterMap_le (fun e : SpareItem => (driveOf e.drive).map e.entry) es
          rw [List.length_append]
          omega
        · exact State.unitHeld_kept hk p _ _

theorem State.takeDelete_kept (hk : Kept K s) (p : Port) (drive : Nat) (home : Track) : Kept K (s.takeDelete p drive home) := by
  unfold State.takeDelete
  repeat' first
    | with_reducible assumption
    | with_reducible apply State.unitReject_kept
    | with_reducible apply State.unitHeld_kept
    | with_reducible apply State.deleteEntry_kept
    | with_reducible apply State.unitDone_kept
    | split

theorem State.takeReadMap_kept (hk : Kept K s) (p : Port) (start : Nat) : Kept K (s.takeReadMap p start) := by
  unfold State.takeReadMap
  repeat' first
    | with_reducible assumption
    | with_reducible apply State.unitReject_kept
    | with_reducible apply State.answerData_kept
    | split

theorem State.unitFault_kept (hk : Kept K s) (p : Port) (k : FaultKind) : Kept K (s.unitFault p k) := by
  unfold State.unitFault
  repeat' first
    | with_reducible assumption
    | with_reducible apply State.unitStatus_kept

/-- Either alternate operation keeps all, if its beginning on a drive without operation and hold does. -/
theorem State.takeAlternate_kept (hk : Kept K s) (p : Port) (drive : Nat) (home : Track)
    (step9 : Drive → Option FaultKind) (start : Drive → State)
    (hs : ∀ d, (s.share d).hold = none → Kept K (start d)) :
    Kept K (s.takeAlternate p drive home step9 start) := by
  unfold State.takeAlternate
  split
  · exact State.unitFault_kept hk p _
  · exact State.unitHeld_kept hk p _ _
  · rename_i d hc
    split
    · exact State.unitFault_kept hk p _
    · split
      · exact State.unitFault_kept hk p _
      · refine hs d ?_
        unfold State.altCheck at hc
        split at hc
        · cases hc
        · split at hc
          · cases hc
          · split at hc
            · cases hc
            · split at hc
              · cases hc
              · split at hc
                · cases hc
                · split at hc
                  · cases hc
                  · split at hc
                    · cases hc
                    · cases hc
                      simpa using ‹¬(s.share d).hold.isSome = true›

theorem State.unitAccept_kept (hk : Kept K s) (p : Port) : Kept K (s.unitAccept p) := by
  unfold State.unitAccept
  repeat' first
    | with_reducible assumption
    | with_reducible apply State.sendStatus_kept

theorem State.startAssign_kept (hk : Kept K s) (d : Drive) (p : Port) (home : Track) (hf : (s.share d).hold = none)
    (hi : ¬ K.idle d) :
    Kept K (s.startAssign d p home) := by
  refine State.beginPick_kept (State.unitAccept_kept (State.setOp_kept hk d (some _) ?_ ?_ (fun _ h => by cases h) (absurd · hi)) p) d
  · intro _ x hx; cases hx; exact Nat.zero_le _
  · intro _ hh; rw [hf] at hh; cases hh

theorem State.startRestore_kept (hk : Kept K s) (d : Drive) (p : Port) (home : Track) (hf : (s.share d).hold = none)
    (hi : ¬ K.idle d) :
    Kept K (s.startRestore d p home) := by
  refine State.position_kept (State.unitAccept_kept (State.setOp_kept hk d (some _) ?_ ?_ (fun _ h => by cases h) (absurd · hi)) p) d
  · intro _ x hx; cases hx; exact Nat.zero_le _
  · intro _ hh; rw [hf] at hh; cases hh

theorem Positioner.clear_keeps (q : Positioner) :
    q.clear.angle = q.angle ∧ q.clear.writeProtect = q.writeProtect ∧ (q.unanswered ≤ 2 → q.clear.unanswered ≤ 2) := by
  unfold Positioner.clear
  dsimp only
  split
  · exact ⟨rfl, rfl, fun _ => Nat.min_le_left _ _⟩
  · exact ⟨rfl, rfl, fun h => h⟩

theorem PortRec.cleared_settings (r : PortRec) (sender : Bool) : (r.cleared sender).settings = r.settings := by
  unfold PortRec.cleared
  dsimp only
  split
  · split <;> rfl
  · rfl
  · rfl
  · rfl
  · rfl

theorem PortRec.cleared_overflow (r : PortRec) (sender : Bool) : (r.cleared sender).overflow = false := by
  unfold PortRec.cleared
  dsimp only
  split
  · split <;> rfl
  all_goals rfl

theorem PortRec.cleared_buffer (r : PortRec) (sender : Bool) (h : r.bufferSound) : (r.cleared sender).bufferSound := by
  unfold PortRec.cleared
  dsimp only
  split
  · split
    · exact PortRec.bufferSound_empty (dropData_slots _) rfl rfl
    · exact PortRec.bufferSound_empty (afterConnection_slots _) rfl rfl
  · exact h.le (slots_sublist List.filter_sublist) (Nat.le_refl _) (Nat.le_refl _)
  all_goals exact h

theorem PortRec.cleared_agrees {r : PortRec} (sender : Bool) (h : r.agrees = true) : (r.cleared sender).agrees = true := by
  unfold PortRec.cleared
  dsimp only
  split
  · split
    · rw [← h]; exact PortRec.agrees_of_stance rfl
    · exact PortRec.agrees_bare rfl rfl (fun h => by cases h) (fun h => by cases h)
  · rename_i hs
    exact PortRec.agrees_bare (PortRec.conn_none (r := r) h (by rw [hs]; exact fun h => by cases h)) rfl (fun h => by cases h) (fun h => by cases h)
  all_goals exact (PortRec.agrees_of_stance rfl).trans h

theorem State.clearUnit_kept (hk : Kept K s) (p : Port) : Kept K (s.clearUnit p) := by
  unfold State.clearUnit
  have h1 : Kept K (s.forDrives fun s d => (s.leaveWrite d none).undoAlternate d) :=
    State.forDrives_kept hk _ fun _ _ h => State.undoAlternate_kept (State.leaveWrite_kept h _ _) _
  revert h1
  generalize (s.forDrives fun s d => (s.leaveWrite d none).undoAlternate d) = u
  intro h1
  refine ⟨h1.powered, h1.pending, h1.types, h1.now, fun q => ?_, fun d => ?_, fun d => ?_, h1.table, h1.cursor, fun d _ => ?_,
    fun hl => { h1.sound hl with queues := fun q => ?_, suspects := ⟨by simp, by simp, by simp⟩, miss := fun d => ?_,
                                 unanswered := fun d => ?_, holds := fun d => ?_, overflow := fun q => ?_, buffers := fun q => ?_,
                                 counters := fun d hc a ha => ?_ },
    fun hj => ?_⟩
  · have : (Vector.ofFn fun q => (u.port q).cleared (decide (q = p)))[q] = (u.port q).cleared (decide (q = p)) := by simp
    show PortRec.settings ((Vector.ofFn fun q => (u.port q).cleared (decide (q = p)))[q]) = _
    rw [this, PortRec.cleared_settings]
    exact h1.settings q
  · have : (u.positioners.map Positioner.clear)[d] = (u.pos d).clear := by simp [State.pos]
    show ((u.positioners.map Positioner.clear)[d]).angle = _
    rw [this, (Positioner.clear_keeps _).1]
    exact h1.angle d
  · have : (u.positioners.map Positioner.clear)[d] = (u.pos d).clear := by simp [State.pos]
    show ((u.positioners.map Positioner.clear)[d]).writeProtect = _
    rw [this, (Positioner.clear_keeps _).2.1]
    exact h1.protect d
  · show (Vector.replicate 8 (none : Option Operation))[d] = none
    simp
  · have : (Vector.replicate 4 ({ notices := [], held := false } : NoticeQueue))[q] = { notices := [], held := false } := by simp
    show NoticeQueue.sound ((Vector.replicate 4 ({ notices := [], held := false } : NoticeQueue))[q])
    rw [this]
    exact ⟨by simp, by simp⟩
  · have : (Vector.replicate 8 (none : Option Operation))[d] = none := by simp
    intro x hx
    have : (Vector.replicate 8 (none : Option Operation))[d] = some x := hx
    simp at this
  · have : (u.positioners.map Positioner.clear)[d] = (u.pos d).clear := by simp [State.pos]
    show ((u.positioners.map Positioner.clear)[d]).unanswered ≤ 2
    rw [this]
    exact (Positioner.clear_keeps _).2.2 ((h1.sound hl).unanswered d)
  · intro _
    show (Vector.replicate 8 (none : Option Operation))[d] = none
    simp
  · have : (Vector.ofFn fun q => (u.port q).cleared (decide (q = p)))[q] = (u.port q).cleared (decide (q = p)) := by simp
    show ((Vector.ofFn fun q => (u.port q).cleared (decide (q = p)))[q]).overflow = true → _
    rw [this, PortRec.cleared_overflow]
    exact fun h => by cases h
  · have : (Vector.ofFn fun q => (u.port q).cleared (decide (q = p)))[q] = (u.port q).cleared (decide (q = p)) := by simp
    show PortRec.bufferSound ((Vector.ofFn fun q => (u.port q).cleared (decide (q = p)))[q])
    rw [this]
    exact PortRec.cleared_buffer _ _ ((h1.sound hl).buffers q)
  · refine (h1.sound hl).counters d hc a ?_
    have : (u.positioners.map Positioner.clear)[d] = (u.pos d).clear := by simp [State.pos]
    have h2 : ((u.positioners.map Positioner.clear)[d]).angle = some a := ha
    rw [this, (Positioner.clear_keeps _).1] at h2
    exact h2
  · refine (h1.joined hj).of (fun q => .inr ⟨?_, .inr fun n x e => ?_⟩) (fun d q e => ?_) (fun n x e => ?_)
    · have : (Vector.ofFn fun q => (u.port q).cleared (decide (q = p)))[q] = (u.port q).cleared (decide (q = p)) := by simp
      show PortRec.agrees ((Vector.ofFn fun q => (u.port q).cleared (decide (q = p)))[q]) = true
      rw [this]
      exact PortRec.cleared_agrees _ ((h1.joined hj).agree q)
    · have : (Vector.replicate 2 (none : Option PathHold))[n] = some x := e
      simp at this
    · have : ((Vector.replicate 8 (none : Option Operation))[d]).bind Operation.conn = some q := e
      simp at this
    · have : (Vector.replicate 2 (none : Option PathHold))[n] = some x := e
      simp at this

theorem State.dataIn_kept (hk : Kept K s) (p : Port) (address offset count : Nat) (bytes : List Byte) : Kept K (s.dataIn p address offset count bytes) := by
  unfold State.dataIn
  repeat' first
    | with_reducible assumption
    | with_reducible apply State.hostBytes_kept
    | split

theorem State.closePort_kept (hk : Kept K s) (p : Port) (address : Nat) : Kept K (s.closePort p address) := by
  unfold State.closePort
  repeat' first
    | with_reducible assumption
    | with_reducible apply State.modPort_kept
    | exact Or.inl
    | exact fun h => h
    | exact fun h => h.le (Nat.le_refl _) (Nat.zero_le _) (Nat.zero_le _)
    | exact fun _ => PortRec.bufferSound_empty (dropData_slots _) rfl rfl
    | with_reducible apply State.endConnection_kept
    | with_reducible apply State.stopCommand_kept
    | exact fun _ => rfl
    | exact fun _ h => h
    | split

theorem State.haltUnit_kept (hk : Kept K s) (p : Port) : Kept K (s.haltUnit p) := by
  unfold State.haltUnit
  repeat' first
    | with_reducible assumption
    | with_reducible apply State.forDrives_kept
    | with_reducible apply State.abort_kept
    | (intro _ _ hh; clear hk)
    | split

theorem State.haltElsewhere_kept (hk : Kept K s) (d : Drive) (p : Port) : Kept K (s.haltElsewhere d p) := by
  unfold State.haltElsewhere
  repeat' first
    | with_reducible assumption
    | with_reducible apply State.abort_kept
    | split

theorem State.haltConnected_kept (hk : Kept K s) (d : Drive) (p : Port) : Kept K (s.haltConnected d p) := by
  unfold State.haltConnected
  dsimp only
  repeat' first
    | with_reducible assumption
    | with_reducible apply State.stopCommand_kept
    | with_reducible apply State.haltElsewhere_kept
    | with_reducible apply State.modPort_kept
    | exact Or.inl
    | exact fun h => h
    | exact fun h => h.le (Nat.le_refl _) (Nat.zero_le _) (Nat.zero_le _)
    | exact fun _ => PortRec.bufferSound_empty (dropData_slots _) rfl rfl
    | with_reducible apply State.reply_kept
    | exact fun _ => rfl
    | exact fun _ h => h
    | split

theorem State.haltPort_kept (hk : Kept K s) (p : Port) (address : Nat) : Kept K (s.haltPort p address) := by
  unfold State.haltPort
  repeat' first
    | with_reducible assumption
    | with_reducible apply State.haltUnit_kept
    | with_reducible apply State.haltConnected_kept
    | with_reducible apply State.haltElsewhere_kept
    | split

theorem State.leavePortWrite_kept (hk : Kept K s) (d : Drive) (p : Port) : Kept K (s.leavePortWrite d p) := by
  unfold State.leavePortWrite
  repeat' first
    | with_reducible assumption
    | with_reducible apply State.leaveWrite_kept
    | split

theorem State.endOtherConnection_kept (hk : Kept K s) (d : Drive) (o : Operation) (p : Port) : Kept K (s.endOtherConnection d o p) := by
  unfold State.endOtherConnection
  repeat' first
    | with_reducible assumption
    | with_reducible apply State.leaveWrite_kept
    | with_reducible apply State.endConnection_kept
    | split

theorem State.resetOperation_kept (hk : Kept K s) (d : Drive) (p : Port) {s' : State} {y : Bool} (e : s.resetOperation d p = (s', y)) : Kept K s' := by
  unfold State.resetOperation at e
  revert e
  repeat' first
    | with_reducible assumption
    | with_reducible apply State.endOtherConnection_kept
    | with_reducible apply State.abortQuietly_kept
    | with_reducible apply State.modAlt_kept
    | (intro e; cases e)
    | exact fun _ => ⟨rfl, rfl, fun h => h⟩
    | split

theorem State.resetSharing_kept (hk : Kept K s) (d : Drive) (p : Port) (g : Nat) : Kept K (s.resetSharing d p g) := by
  unfold State.resetSharing
  dsimp only
  have h1 : Kept K ((if s.heldBy d p then s.dropHold d else s).removeOwed d p) := by
    refine State.removeOwed_kept ?_ d p
    split
    · exact State.dropHold_kept hk d
    · exact hk
  revert h1
  generalize ((if s.heldBy d p then s.dropHold d else s).removeOwed d p) = u
  intro h1
  have h2 : Kept K (if (decide (g ≠ 0) && decide ((u.share d).owner = some g) && !u.groupStands p g) = true then
      u.modShare d fun x => { x with owner := none } else u) := by
    split
    · exact State.modShare_kept h1 d _ (by exact fun _ h => h)
    · exact h1
  revert h2
  generalize (if (decide (g ≠ 0) && decide ((u.share d).owner = some g) && !u.groupStands p g) = true then
      u.modShare d fun x => { x with owner := none } else u) = v
  intro h2
  have h3 := State.resetOperation_kept h2 d p (s' := (v.resetOperation d p).1) (y := (v.resetOperation d p).2) rfl
  have h4 : Kept K (if (s.heldBy d p || (decide (g ≠ 0) && decide ((u.share d).owner = some g) && !u.groupStands p g) ||
      (v.resetOperation d p).2) = true then (v.resetOperation d p).1.owedTest d else (v.resetOperation d p).1) := by
    split
    · exact State.owedTest_kept h3 d
    · exact h3
  refine State.dropUnclaimed_kept ?_ d
  split
  · exact State.answerWaiting_kept h4 d
  · exact h4

/-- A port that is offered d's reconnection forms a connection with d, and d's operation with it (R70). -/
theorem State.Joined.connect {s t : State} (hs : s.Joined) {d : Drive} {p : Port} (hc : (s.port p).conn = none)
    (ho : (s.port p).offer.map Prod.fst = some (.reconnect d)) (hp : (t.port p).agrees = true)
    (hpc : (t.port p).conn = some (.drive d)) (hq : ∀ q, p ≠ q → t.port q = s.port q)
    (hop : ∀ c q, (t.op c).bind Operation.conn = some q → (c = d ∧ q = p) ∨ (s.op c).bind Operation.conn = some q)
    (hn : ∀ n, t.path n = s.path n) : t.Joined := by
  have held : ∀ n x, s.path n = some x → x.port = some p → x.drive = d := by
    intro n x h hx
    rcases hs.linked n x p h hx with h1 | h1
    · rw [hc] at h1; cases h1
    · rw [ho] at h1; cases h1; rfl
  refine ⟨fun q => ?_, fun n x q h hx => ?_, fun c n m hn1 hm1 => ?_⟩
  · by_cases hqp : p = q
    · exact hqp ▸ hp
    · rw [hq q hqp]; exact hs.agree q
  · rw [hn] at h
    by_cases hqp : p = q
    · subst hqp
      exact .inl (by rw [hpc, held n x h hx])
    · rw [hq q hqp]; exact hs.linked n x q h hx
  · have up : ∀ n, t.usesPath c n = true → s.usesPath c n = true := by
      intro n hu
      obtain ⟨x, h1, h2, h3⟩ := (State.usesPath_iff _ _ _).mp hu
      rw [hn] at h1
      refine (State.usesPath_iff s c n).mpr ⟨x, h1, h2, fun q hxq => ?_⟩
      by_cases hqp : p = q
      · subst hqp
        rw [← h2, held n x h1 hxq]
        exact .inl ho
      · rcases h3 q hxq with h4 | h4
        · exact .inl (hq q hqp ▸ h4)
        · rcases hop c q h4 with ⟨_, h5⟩ | h5
          · exact absurd h5.symm hqp
          · exact .inr h5
    exact hs.onePath c n m (up n hn1) (up m hm1)

theorem State.takeReconnect_kept (hk : Kept K s) (d : Drive) (p : Port) (e : ∃ b, (s.port p).offer = some (.reconnect d, b)) :
    Kept K (s.takeReconnect d p) := by
  obtain ⟨b, e⟩ := e
  unfold State.takeReconnect
  dsimp only
  have h1 := State.modPort_loose hk p (fun r => { r.withoutOffer with state := .connected, conn := some (.drive d) }) (fun _ => rfl)
    (by exact Or.inl) fun h => h.le (slots_sublist List.filter_sublist) (Nat.le_refl _) (Nat.le_refl _)
  refine State.proceed_kept (Kept.rejoin (k := K) (State.setOp_loose h1 d _ (fun hl x hx => ?_) (fun hl hh => ?_) fun hi => ?_) fun hj => ?_) d p
  · obtain ⟨o, _, rfl⟩ := Option.map_eq_some_iff.mp hx
    exact Nat.zero_le _
  · have := (h1.sound hl).holds d hh
    rw [this]
    rfl
  · rw [h1.opened d hi]
    rfl
  · have hsame : ∀ f : PortRec → PortRec, ∀ o, ((s.modPort p f).setOp d o).port p = f (s.port p) := fun f o =>
      (State.modPort_port s p f p).trans (if_pos rfl)
    refine (hk.joined hj).connect (d := d) (p := p) (State.offering_conn hk (by rw [e]; rfl) hj) (by rw [e]; rfl) ?_ ?_ (fun q h => ?_)
      (fun c q h => ?_) (fun _ => rfl)
    · rw [hsame, PortRec.agrees_iff]; simp [PortRec.withoutOffer]
    · rw [hsame]
    · rw [State.setOp_port, State.modPort_port, if_neg h]
    · rw [State.setOp_op] at h
      split at h
      · rename_i hc
        rw [State.modPort_op] at h
        cases ho : s.op d with
        | none => rw [ho] at h; cases h
        | some o => rw [ho] at h; cases h; exact .inl ⟨hc.symm, rfl⟩
      · exact .inr h

theorem State.takeStatus_kept (hk : Kept K s) (d : Drive) (p : Port) (e : ∃ b, (s.port p).offer = some (.status d, b)) :
    Kept K (s.takeStatus d p) := by
  obtain ⟨b, e⟩ := e
  have h1 := State.dropOffer_kept hk p (by rw [e]; rfl) (by rw [e]; exact fun _ h => by cases h)
  unfold State.takeStatus
  dsimp only
  split
  · split
    · exact State.endOperationWithHold_kept (State.sendStatus_kept h1 p _ _ _) d p _
    · exact State.endOperation_kept (State.sendStatus_kept h1 p _ _ _) d
  · exact h1

theorem State.answered_offer {p : Port} {address : Nat} {o : Offer} (h : s.answered p address = some o) :
    (s.port p).offer = some (o, true) := by
  unfold State.answered at h
  split at h
  · rename_i e
    split at h
    · cases h; exact e
    · cases h
  · cases h

theorem State.removeHeadNotice_offer (s : State) (p : Port) : ((s.removeHeadNotice p).port p).offer = (s.port p).offer := by
  unfold State.removeHeadNotice
  dsimp only
  split
  · rw [State.modPort_port, if_pos rfl]; rfl
  · rfl

theorem State.takeOffer_kept (hk : Kept K s) (p : Port) (address : Nat) : Kept K (s.takeOffer p address) := by
  unfold State.takeOffer
  split
  · rename_i e; exact State.takeReconnect_kept hk _ p ⟨_, State.answered_offer e⟩
  · rename_i e; exact State.takeStatus_kept hk _ p ⟨_, State.answered_offer e⟩
  · rename_i e
    have ho := (State.removeHeadNotice_offer s p).trans (State.answered_offer e)
    exact State.dropOffer_kept (State.removeHeadNotice_kept hk p) p (by rw [ho]; rfl) (by rw [ho]; exact fun _ h => by cases h)
  · exact hk

theorem Operation.noteSent_miss (o : Operation) (n : Nat) : (o.noteSent n).miss = o.miss := by
  unfold Operation.noteSent
  split <;> rfl

theorem Operation.noteSent_conn (o : Operation) (n : Nat) : (o.noteSent n).conn = o.conn := by
  unfold Operation.noteSent
  split <;> rfl

theorem State.dataLeft_kept (hk : Kept K s) (p : Port) (upTo : Nat) : Kept K (s.dataLeft p upTo) := by
  unfold State.dataLeft
  dsimp only
  repeat' first
    | with_reducible assumption
    | with_reducible apply State.endConnection_kept
    | with_reducible apply State.produce_kept
    | with_reducible apply State.modOp_kept
    | exact fun _ => Or.inl rfl
    | exact fun _ => Or.inr rfl
    | exact fun o h => by rw [Operation.noteSent_miss]; exact h
    | exact fun o => .inl (Operation.noteSent_conn o _)
    | split

theorem State.frameLeft_kept (hk : Kept K s) (p : Port) : Kept K (s.frameLeft p) := by
  unfold State.frameLeft
  dsimp only
  repeat' first
    | with_reducible assumption
    | with_reducible apply State.modPort_kept
    | exact Or.inl
    | exact fun h => h
    | exact fun h => h.le (PortRec.slots_tail (by with_reducible assumption)) (Nat.le_refl _) (Nat.le_refl _)
    | with_reducible apply State.endConnection_kept
    | with_reducible apply State.dataLeft_kept
    | exact fun _ => rfl
    | exact fun _ h => h
    | exact fun r => by simp [PortRec.stance, Function.comp_def]
    | split

theorem State.fromReady_kept (hk : Kept K s) (d : Drive) (f : State → State) (hf : Kept K (f s)) : Kept K (s.fromReady d f) := by
  unfold State.fromReady
  split
  · exact hk
  · exact hf

theorem State.motionAnswer_kept (hk : Kept K s) (d : Drive) (f : State → State) (hf : Kept K (f s)) :
    Kept K (s.motionAnswer d f) := by
  unfold State.motionAnswer
  split
  · exact State.modPos_kept hk d _ (by exact fun q => ⟨rfl, rfl, fun h => by dsimp only; omega⟩)
  · split
    · exact hf
    · exact hk

theorem State.dropFinishing_kept (hk : Kept K s) (d : Drive) : Kept K (s.dropFinishing d) := by
  unfold State.dropFinishing
  dsimp only
  repeat' first
    | with_reducible assumption
    | with_reducible apply State.setFinish_kept
    | with_reducible apply State.endReset_kept
    | split

theorem State.losePort_kept (hk : Kept K s) (d : Drive) (p : Port) : Kept K (s.losePort d p) := by
  unfold State.losePort
  dsimp only
  split
  · exact State.reply_kept (State.modPort_kept hk p _ (by intro; rfl) (by intro; rfl) (by exact Or.inl)
      fun _ => PortRec.bufferSound_empty (dropData_slots _) rfl rfl) p d _
  · exact hk

theorem State.loseOperation_kept (hk : Kept K s) (d : Drive) : Kept K (s.loseOperation d) := by
  unfold State.loseOperation
  repeat' first
    | with_reducible assumption
    | with_reducible apply State.finishStopped_kept
    | with_reducible apply State.modPort_kept
    | exact Or.inl
    | exact fun h => h
    | exact fun h => h.le (Nat.le_refl _) (Nat.zero_le _) (Nat.zero_le _)
    | exact fun _ => PortRec.bufferSound_empty (dropData_slots _) rfl rfl
    | with_reducible apply State.faultInConnection_kept
    | with_reducible apply State.undoAlternate_kept
    | with_reducible apply State.endAlternate_kept
    | with_reducible apply State.withdrawOffersOf_kept
    | with_reducible apply State.keepPending_kept
    | exact fun _ => rfl
    | exact fun _ h => h
    | split

theorem Positioner.homeRead_keeps (q : Positioner) (c : Option HomeField) :
    (q.homeRead c).angle = q.angle ∧ (q.homeRead c).writeProtect = q.writeProtect ∧
    (q.homeRead c).unanswered = q.unanswered := by
  unfold Positioner.homeRead
  split <;> exact ⟨rfl, rfl, rfl⟩

theorem State.homeRead_kept (hk : Kept K s) (d : Drive) (c : Option HomeField) :
    Kept K (s.modPos d fun q => q.homeRead c) :=
  State.modPos_kept hk d _ fun q =>
    ⟨(q.homeRead_keeps c).1, (q.homeRead_keeps c).2.1, fun h => by rw [(q.homeRead_keeps c).2.2]; exact h⟩

theorem State.homeReadInternal_kept (hk : Kept K s) (d : Drive) (o : Operation) (content : Option HomeField) :
    Kept K (s.homeReadInternal d o content) := by
  have h1 := State.homeRead_kept hk d content
  unfold State.homeReadInternal
  dsimp only
  repeat' first
    | with_reducible assumption
    | with_reducible apply State.misposition_kept
    | with_reducible apply State.altHomeRead_kept
    | with_reducible apply State.judgeHome_kept
    | with_reducible apply State.pendingFault_kept
    | with_reducible apply State.freeInternalPath_kept
    | with_reducible apply State.reread_kept
    | with_reducible apply State.reportCheck_kept
    | split

theorem State.homeReadInline_kept (hk : Kept K s) (d : Drive) (p : Port) (o : Operation) (r : ReadCmd)
    (content : Option HomeField) : Kept K (s.homeReadInline d p o r content) := by
  have h1 := State.homeRead_kept hk d content
  unfold State.homeReadInline
  dsimp only
  repeat' first
    | with_reducible assumption
    | with_reducible apply State.mispositionConnected_kept
    | with_reducible apply State.judgeInline_kept
    | with_reducible apply State.commandFault_kept
    | with_reducible apply State.setCmd_kept
    | with_reducible apply State.reread_kept
    | with_reducible apply State.reportCheck_kept
    | split

theorem State.homeFieldArrives_kept (hk : Kept K s) (d : Drive) (content : Option HomeField) : Kept K (s.homeFieldArrives d content) := by
  unfold State.homeFieldArrives
  repeat' first
    | with_reducible assumption
    | with_reducible apply State.homeReadInternal_kept
    | with_reducible apply State.homeReadInline_kept
    | split

theorem State.connected_kept (hk : Kept K s) (d : Drive) (f : Port → Operation → State) (hf : ∀ p o, Kept K (f p o)) :
    Kept K (s.connected d f) := by
  unfold State.connected
  split
  · split
    · exact hf _ _
    · exact hk
  · exact hk

theorem State.keyRead_kept (hk : Kept K s) (d : Drive) (p : Port) (o : Operation) (key : List Byte) : Kept K (s.keyRead d p o key) := by
  unfold State.keyRead
  repeat' first
    | with_reducible assumption
    | with_reducible apply State.compareKey_kept
    | split

theorem State.homeWrittenInternal_kept (hk : Kept K s) (d : Drive) (f : HomeField) (good : Bool) : Kept K (s.homeWrittenInternal d f good) := by
  unfold State.homeWrittenInternal
  repeat' first
    | with_reducible apply State.homeWritten_kept
    | with_reducible assumption
    | with_reducible apply State.modPos_kept
    | with_reducible apply State.freeInternalPath_kept
    | with_reducible apply State.altWritten_kept

theorem State.fieldWritten_kept (hk : Kept K s) (d : Drive) (good : Bool) : Kept K (s.fieldWritten d good) := by
  unfold State.fieldWritten
  repeat' first
    | with_reducible assumption
    | with_reducible apply State.finishWritten_kept
    | with_reducible apply State.homeWrittenInternal_kept
    | with_reducible apply State.writeDone_kept
    | with_reducible apply State.formatDone_kept
    | split

theorem State.bytesDrawn_kept (hk : Kept K s) (d : Drive) : Kept K (s.bytesDrawn d) := by
  unfold State.bytesDrawn
  repeat' first
    | with_reducible assumption
    | with_reducible apply State.drawBytes_kept
    | split

end Sys2Proof.Machine
end

