-- ==== Sys2Proof/Laws/Updates.lean ====
section
/-! SUPPORT. Updates upon updates: the last one of an item stands, writing back what an item holds changes nothing, and updates
of different items commute. The commuting lemmas bring every chain to one order, the operation innermost and the port
outermost. -/

namespace Sys2Proof.Machine

open Sys2Proof

variable (s : State)

@[simp] theorem State.setOp_setOp (d : Drive) (o o' : Option Operation) : (s.setOp d o).setOp d o' = s.setOp d o' := by
  simp [State.setOp]
theorem State.setOp_self (d : Drive) {o : Option Operation} (h : s.op d = o) : s.setOp d o = s := by
  subst h; simp [State.setOp, State.op]
theorem State.modOp_some (d : Drive) (f : Operation → Operation) {o : Operation} (h : s.op d = some o) :
    s.modOp d f = s.setOp d (some (f o)) := by
  simp [State.modOp, h]
theorem State.modOp_none (d : Drive) (f : Operation → Operation) (h : s.op d = none) : s.modOp d f = s := by
  simp only [State.modOp, h, Option.map_none]; exact s.setOp_self d h

@[simp] theorem State.setPos_setPos (d : Drive) (q q' : Positioner) : (s.setPos d q).setPos d q' = s.setPos d q' := by
  simp [State.setPos]
theorem State.setPos_self (d : Drive) {q : Positioner} (h : s.pos d = q) : s.setPos d q = s := by
  subst h; simp [State.setPos, State.pos]
theorem State.modPos_modPos (d : Drive) (f f' : Positioner → Positioner) :
    (s.modPos d f).modPos d f' = s.modPos d fun x => f' (f x) := by
  simp [State.modPos]

@[simp] theorem State.setShare_setShare (d : Drive) (x x' : Sharing) : (s.setShare d x).setShare d x' = s.setShare d x' := by
  simp [State.setShare]
theorem State.setShare_self (d : Drive) {x : Sharing} (h : s.share d = x) : s.setShare d x = s := by
  subst h; simp [State.setShare, State.share]
theorem State.modShare_modShare (d : Drive) (f f' : Sharing → Sharing) :
    (s.modShare d f).modShare d f' = s.modShare d fun x => f' (f x) := by
  simp [State.modShare]

@[simp] theorem State.setQueue_setQueue (p : Port) (q q' : NoticeQueue) : (s.setQueue p q).setQueue p q' = s.setQueue p q' := by
  simp [State.setQueue]
theorem State.setQueue_self (p : Port) {q : NoticeQueue} (h : s.queue p = q) : s.setQueue p q = s := by
  subst h; simp [State.setQueue, State.queue]

@[simp] theorem State.setRecord_setRecord (d : Drive) (r r' : DriveRecord) : (s.setRecord d r).setRecord d r' = s.setRecord d r' := by
  simp [State.setRecord]
theorem State.setRecord_self (d : Drive) {r : DriveRecord} (h : s.record d = r) : s.setRecord d r = s := by
  subst h; simp [State.setRecord, State.record]

@[simp] theorem State.setPath_setPath (n : PathNo) (x x' : Option PathHold) : (s.setPath n x).setPath n x' = s.setPath n x' := by
  simp [State.setPath]
theorem State.setPath_self (n : PathNo) {x : Option PathHold} (h : s.path n = x) : s.setPath n x = s := by
  subst h; simp [State.setPath, State.path]

@[simp] theorem State.setFinish_setFinish (d : Drive) (f f' : Option Finishing) : (s.setFinish d f).setFinish d f' = s.setFinish d f' := by
  simp [State.setFinish]
theorem State.setFinish_self (d : Drive) {f : Option Finishing} (h : s.finish d = f) : s.setFinish d f = s := by
  subst h; simp [State.setFinish, State.finish]

@[simp] theorem State.setPort_setPort (p : Port) (r r' : PortRec) : (s.setPort p r).setPort p r' = s.setPort p r' := by
  simp [State.setPort]
theorem State.setPort_self (p : Port) {r : PortRec} (h : s.port p = r) : s.setPort p r = s := by
  subst h; simp [State.setPort, State.port]
theorem State.modPort_modPort (p : Port) (f f' : PortRec → PortRec) :
    (s.modPort p f).modPort p f' = s.modPort p fun x => f' (f x) := by
  simp [State.modPort]

/-! ## One order -/

theorem State.setPos_setOp (d : Drive) (q : Positioner) (d' : Drive) (o : Option Operation) :
    (s.setPos d q).setOp d' o = (s.setOp d' o).setPos d q := rfl
theorem State.setShare_setOp (d : Drive) (x : Sharing) (d' : Drive) (o : Option Operation) :
    (s.setShare d x).setOp d' o = (s.setOp d' o).setShare d x := rfl
theorem State.setQueue_setOp (p : Port) (q : NoticeQueue) (d : Drive) (o : Option Operation) :
    (s.setQueue p q).setOp d o = (s.setOp d o).setQueue p q := rfl
theorem State.setRecord_setOp (d : Drive) (r : DriveRecord) (d' : Drive) (o : Option Operation) :
    (s.setRecord d r).setOp d' o = (s.setOp d' o).setRecord d r := rfl
theorem State.setPath_setOp (n : PathNo) (x : Option PathHold) (d : Drive) (o : Option Operation) :
    (s.setPath n x).setOp d o = (s.setOp d o).setPath n x := rfl
theorem State.setFinish_setOp (d : Drive) (f : Option Finishing) (d' : Drive) (o : Option Operation) :
    (s.setFinish d f).setOp d' o = (s.setOp d' o).setFinish d f := rfl
theorem State.setPort_setOp (p : Port) (r : PortRec) (d : Drive) (o : Option Operation) :
    (s.setPort p r).setOp d o = (s.setOp d o).setPort p r := rfl
theorem State.setShare_setPos (d : Drive) (x : Sharing) (d' : Drive) (q : Positioner) :
    (s.setShare d x).setPos d' q = (s.setPos d' q).setShare d x := rfl
theorem State.setQueue_setPos (p : Port) (q : NoticeQueue) (d : Drive) (q' : Positioner) :
    (s.setQueue p q).setPos d q' = (s.setPos d q').setQueue p q := rfl
theorem State.setRecord_setPos (d : Drive) (r : DriveRecord) (d' : Drive) (q : Positioner) :
    (s.setRecord d r).setPos d' q = (s.setPos d' q).setRecord d r := rfl
theorem State.setPath_setPos (n : PathNo) (x : Option PathHold) (d : Drive) (q : Positioner) :
    (s.setPath n x).setPos d q = (s.setPos d q).setPath n x := rfl
theorem State.setFinish_setPos (d : Drive) (f : Option Finishing) (d' : Drive) (q : Positioner) :
    (s.setFinish d f).setPos d' q = (s.setPos d' q).setFinish d f := rfl
theorem State.setPort_setPos (p : Port) (r : PortRec) (d : Drive) (q : Positioner) :
    (s.setPort p r).setPos d q = (s.setPos d q).setPort p r := rfl
theorem State.setQueue_setShare (p : Port) (q : NoticeQueue) (d : Drive) (x : Sharing) :
    (s.setQueue p q).setShare d x = (s.setShare d x).setQueue p q := rfl
theorem State.setRecord_setShare (d : Drive) (r : DriveRecord) (d' : Drive) (x : Sharing) :
    (s.setRecord d r).setShare d' x = (s.setShare d' x).setRecord d r := rfl
theorem State.setPath_setShare (n : PathNo) (x : Option PathHold) (d : Drive) (x' : Sharing) :
    (s.setPath n x).setShare d x' = (s.setShare d x').setPath n x := rfl
theorem State.setFinish_setShare (d : Drive) (f : Option Finishing) (d' : Drive) (x : Sharing) :
    (s.setFinish d f).setShare d' x = (s.setShare d' x).setFinish d f := rfl
theorem State.setPort_setShare (p : Port) (r : PortRec) (d : Drive) (x : Sharing) :
    (s.setPort p r).setShare d x = (s.setShare d x).setPort p r := rfl
theorem State.setRecord_setQueue (d : Drive) (r : DriveRecord) (p : Port) (q : NoticeQueue) :
    (s.setRecord d r).setQueue p q = (s.setQueue p q).setRecord d r := rfl
theorem State.setPath_setQueue (n : PathNo) (x : Option PathHold) (p : Port) (q : NoticeQueue) :
    (s.setPath n x).setQueue p q = (s.setQueue p q).setPath n x := rfl
theorem State.setFinish_setQueue (d : Drive) (f : Option Finishing) (p : Port) (q : NoticeQueue) :
    (s.setFinish d f).setQueue p q = (s.setQueue p q).setFinish d f := rfl
theorem State.setPort_setQueue (p : Port) (r : PortRec) (p' : Port) (q : NoticeQueue) :
    (s.setPort p r).setQueue p' q = (s.setQueue p' q).setPort p r := rfl
theorem State.setPath_setRecord (n : PathNo) (x : Option PathHold) (d : Drive) (r : DriveRecord) :
    (s.setPath n x).setRecord d r = (s.setRecord d r).setPath n x := rfl
theorem State.setFinish_setRecord (d : Drive) (f : Option Finishing) (d' : Drive) (r : DriveRecord) :
    (s.setFinish d f).setRecord d' r = (s.setRecord d' r).setFinish d f := rfl
theorem State.setPort_setRecord (p : Port) (r : PortRec) (d : Drive) (r' : DriveRecord) :
    (s.setPort p r).setRecord d r' = (s.setRecord d r').setPort p r := rfl
theorem State.setFinish_setPath (d : Drive) (f : Option Finishing) (n : PathNo) (x : Option PathHold) :
    (s.setFinish d f).setPath n x = (s.setPath n x).setFinish d f := rfl
theorem State.setPort_setPath (p : Port) (r : PortRec) (n : PathNo) (x : Option PathHold) :
    (s.setPort p r).setPath n x = (s.setPath n x).setPort p r := rfl
theorem State.setPort_setFinish (p : Port) (r : PortRec) (d : Drive) (f : Option Finishing) :
    (s.setPort p r).setFinish d f = (s.setFinish d f).setPort p r := rfl

end Sys2Proof.Machine
end

