-- ==== Sys2Proof/Laws/Shapes.lean ====
section
/-! SUPPORT. What each shared operation can touch: its result is the state with the named blocks replaced and nothing else.
From each shape, one lemma per block that the operation leaves alone. -/

namespace Sys2Proof.Machine

open Sys2Proof

theorem foldl_ind {α : Type} {P : State → Prop} (f : State → α → State) (l : List α) (s : State) (h0 : P s)
    (h : ∀ t x, P t → P (f t x)) : P (l.foldl f s) := by
  induction l generalizing s with
  | nil => exact h0
  | cons x l ih => exact ih _ (h s x h0)

variable (s : State)

theorem State.post_shape (p : Port) (n : Notice) :
    ∃ a b, s.post p n = { s with ports := a, queues := b } := by
  unfold State.post
  split
  · exact ⟨_, _, rfl⟩
  · exact ⟨_, _, rfl⟩

@[simp] theorem State.post_powered (p : Port) (n : Notice) : (s.post p n).powered = s.powered := by
  obtain ⟨a, b, e_⟩ := s.post_shape p n; rw [e_]
@[simp] theorem State.post_now (p : Port) (n : Notice) : (s.post p n).now = s.now := by
  obtain ⟨a, b, e_⟩ := s.post_shape p n; rw [e_]
@[simp] theorem State.post_types (p : Port) (n : Notice) : (s.post p n).types = s.types := by
  obtain ⟨a, b, e_⟩ := s.post_shape p n; rw [e_]
@[simp] theorem State.post_records (p : Port) (n : Notice) : (s.post p n).records = s.records := by
  obtain ⟨a, b, e_⟩ := s.post_shape p n; rw [e_]
@[simp] theorem State.post_positioners (p : Port) (n : Notice) : (s.post p n).positioners = s.positioners := by
  obtain ⟨a, b, e_⟩ := s.post_shape p n; rw [e_]
@[simp] theorem State.post_finishing (p : Port) (n : Notice) : (s.post p n).finishing = s.finishing := by
  obtain ⟨a, b, e_⟩ := s.post_shape p n; rw [e_]
@[simp] theorem State.post_paths (p : Port) (n : Notice) : (s.post p n).paths = s.paths := by
  obtain ⟨a, b, e_⟩ := s.post_shape p n; rw [e_]
@[simp] theorem State.post_spareMap (p : Port) (n : Notice) : (s.post p n).spareMap = s.spareMap := by
  obtain ⟨a, b, e_⟩ := s.post_shape p n; rw [e_]
@[simp] theorem State.post_suspects (p : Port) (n : Notice) : (s.post p n).suspects = s.suspects := by
  obtain ⟨a, b, e_⟩ := s.post_shape p n; rw [e_]
@[simp] theorem State.post_lastAlt (p : Port) (n : Notice) : (s.post p n).lastAlt = s.lastAlt := by
  obtain ⟨a, b, e_⟩ := s.post_shape p n; rw [e_]
@[simp] theorem State.post_due (p : Port) (n : Notice) : (s.post p n).due = s.due := by
  obtain ⟨a, b, e_⟩ := s.post_shape p n; rw [e_]
@[simp] theorem State.post_choices (p : Port) (n : Notice) : (s.post p n).choices = s.choices := by
  obtain ⟨a, b, e_⟩ := s.post_shape p n; rw [e_]
@[simp] theorem State.post_pending (p : Port) (n : Notice) : (s.post p n).pending = s.pending := by
  obtain ⟨a, b, e_⟩ := s.post_shape p n; rw [e_]
@[simp] theorem State.post_op (p : Port) (n : Notice) (i : Drive) : (s.post p n).op i = s.op i := by
  obtain ⟨a, b, e_⟩ := s.post_shape p n; rw [e_]; rfl
@[simp] theorem State.post_pos (p : Port) (n : Notice) (i : Drive) : (s.post p n).pos i = s.pos i := by
  obtain ⟨a, b, e_⟩ := s.post_shape p n; rw [e_]; rfl
@[simp] theorem State.post_record (p : Port) (n : Notice) (i : Drive) : (s.post p n).record i = s.record i := by
  obtain ⟨a, b, e_⟩ := s.post_shape p n; rw [e_]; rfl
@[simp] theorem State.post_path (p : Port) (n : Notice) (i : PathNo) : (s.post p n).path i = s.path i := by
  obtain ⟨a, b, e_⟩ := s.post_shape p n; rw [e_]; rfl
@[simp] theorem State.post_finish (p : Port) (n : Notice) (i : Drive) : (s.post p n).finish i = s.finish i := by
  obtain ⟨a, b, e_⟩ := s.post_shape p n; rw [e_]; rfl
@[simp] theorem State.post_typeOf (p : Port) (n : Notice) (i : Drive) : (s.post p n).typeOf i = s.typeOf i := by
  obtain ⟨a, b, e_⟩ := s.post_shape p n; rw [e_]; rfl

theorem State.removeHeadNotice_shape (p : Port) :
    ∃ a b, s.removeHeadNotice p = { s with ports := a, queues := b } := by
  unfold State.removeHeadNotice
  dsimp only
  split
  · exact ⟨_, _, rfl⟩
  · exact ⟨_, _, rfl⟩

@[simp] theorem State.removeHeadNotice_powered (p : Port) : (s.removeHeadNotice p).powered = s.powered := by
  obtain ⟨a, b, e_⟩ := s.removeHeadNotice_shape p; rw [e_]
@[simp] theorem State.removeHeadNotice_now (p : Port) : (s.removeHeadNotice p).now = s.now := by
  obtain ⟨a, b, e_⟩ := s.removeHeadNotice_shape p; rw [e_]
@[simp] theorem State.removeHeadNotice_types (p : Port) : (s.removeHeadNotice p).types = s.types := by
  obtain ⟨a, b, e_⟩ := s.removeHeadNotice_shape p; rw [e_]
@[simp] theorem State.removeHeadNotice_records (p : Port) : (s.removeHeadNotice p).records = s.records := by
  obtain ⟨a, b, e_⟩ := s.removeHeadNotice_shape p; rw [e_]
@[simp] theorem State.removeHeadNotice_positioners (p : Port) : (s.removeHeadNotice p).positioners = s.positioners := by
  obtain ⟨a, b, e_⟩ := s.removeHeadNotice_shape p; rw [e_]
@[simp] theorem State.removeHeadNotice_ops (p : Port) : (s.removeHeadNotice p).ops = s.ops := by
  obtain ⟨a, b, e_⟩ := s.removeHeadNotice_shape p; rw [e_]
@[simp] theorem State.removeHeadNotice_finishing (p : Port) : (s.removeHeadNotice p).finishing = s.finishing := by
  obtain ⟨a, b, e_⟩ := s.removeHeadNotice_shape p; rw [e_]
@[simp] theorem State.removeHeadNotice_paths (p : Port) : (s.removeHeadNotice p).paths = s.paths := by
  obtain ⟨a, b, e_⟩ := s.removeHeadNotice_shape p; rw [e_]
@[simp] theorem State.removeHeadNotice_spareMap (p : Port) : (s.removeHeadNotice p).spareMap = s.spareMap := by
  obtain ⟨a, b, e_⟩ := s.removeHeadNotice_shape p; rw [e_]
@[simp] theorem State.removeHeadNotice_suspects (p : Port) : (s.removeHeadNotice p).suspects = s.suspects := by
  obtain ⟨a, b, e_⟩ := s.removeHeadNotice_shape p; rw [e_]
@[simp] theorem State.removeHeadNotice_lastAlt (p : Port) : (s.removeHeadNotice p).lastAlt = s.lastAlt := by
  obtain ⟨a, b, e_⟩ := s.removeHeadNotice_shape p; rw [e_]
@[simp] theorem State.removeHeadNotice_sharing (p : Port) : (s.removeHeadNotice p).sharing = s.sharing := by
  obtain ⟨a, b, e_⟩ := s.removeHeadNotice_shape p; rw [e_]
@[simp] theorem State.removeHeadNotice_due (p : Port) : (s.removeHeadNotice p).due = s.due := by
  obtain ⟨a, b, e_⟩ := s.removeHeadNotice_shape p; rw [e_]
@[simp] theorem State.removeHeadNotice_choices (p : Port) : (s.removeHeadNotice p).choices = s.choices := by
  obtain ⟨a, b, e_⟩ := s.removeHeadNotice_shape p; rw [e_]
@[simp] theorem State.removeHeadNotice_pending (p : Port) : (s.removeHeadNotice p).pending = s.pending := by
  obtain ⟨a, b, e_⟩ := s.removeHeadNotice_shape p; rw [e_]
@[simp] theorem State.removeHeadNotice_op (p : Port) (i : Drive) : (s.removeHeadNotice p).op i = s.op i := by
  obtain ⟨a, b, e_⟩ := s.removeHeadNotice_shape p; rw [e_]; rfl
@[simp] theorem State.removeHeadNotice_pos (p : Port) (i : Drive) : (s.removeHeadNotice p).pos i = s.pos i := by
  obtain ⟨a, b, e_⟩ := s.removeHeadNotice_shape p; rw [e_]; rfl
@[simp] theorem State.removeHeadNotice_share (p : Port) (i : Drive) : (s.removeHeadNotice p).share i = s.share i := by
  obtain ⟨a, b, e_⟩ := s.removeHeadNotice_shape p; rw [e_]; rfl
@[simp] theorem State.removeHeadNotice_record (p : Port) (i : Drive) : (s.removeHeadNotice p).record i = s.record i := by
  obtain ⟨a, b, e_⟩ := s.removeHeadNotice_shape p; rw [e_]; rfl
@[simp] theorem State.removeHeadNotice_path (p : Port) (i : PathNo) : (s.removeHeadNotice p).path i = s.path i := by
  obtain ⟨a, b, e_⟩ := s.removeHeadNotice_shape p; rw [e_]; rfl
@[simp] theorem State.removeHeadNotice_finish (p : Port) (i : Drive) : (s.removeHeadNotice p).finish i = s.finish i := by
  obtain ⟨a, b, e_⟩ := s.removeHeadNotice_shape p; rw [e_]; rfl
@[simp] theorem State.removeHeadNotice_typeOf (p : Port) (i : Drive) : (s.removeHeadNotice p).typeOf i = s.typeOf i := by
  obtain ⟨a, b, e_⟩ := s.removeHeadNotice_shape p; rw [e_]; rfl

theorem State.postStateChange_shape (before : State) (d : Drive) :
    ∃ a b, s.postStateChange before d = { s with ports := a, queues := b } := by
  refine foldl_ind (P := fun t => ∃ a b, t = { s with ports := a, queues := b }) _ _ s ⟨_, _, rfl⟩ fun t p h => ?_
  obtain ⟨a, b, rfl⟩ := h
  dsimp only
  split
  · obtain ⟨a', b', e⟩ := State.post_shape { s with ports := a, queues := b } p (.stateChange d)
    exact ⟨a', b', e⟩
  · exact ⟨a, b, rfl⟩

@[simp] theorem State.postStateChange_powered (before : State) (d : Drive) : (s.postStateChange before d).powered = s.powered := by
  obtain ⟨a, b, e_⟩ := s.postStateChange_shape before d; rw [e_]
@[simp] theorem State.postStateChange_now (before : State) (d : Drive) : (s.postStateChange before d).now = s.now := by
  obtain ⟨a, b, e_⟩ := s.postStateChange_shape before d; rw [e_]
@[simp] theorem State.postStateChange_types (before : State) (d : Drive) : (s.postStateChange before d).types = s.types := by
  obtain ⟨a, b, e_⟩ := s.postStateChange_shape before d; rw [e_]
@[simp] theorem State.postStateChange_records (before : State) (d : Drive) : (s.postStateChange before d).records = s.records := by
  obtain ⟨a, b, e_⟩ := s.postStateChange_shape before d; rw [e_]
@[simp] theorem State.postStateChange_positioners (before : State) (d : Drive) : (s.postStateChange before d).positioners = s.positioners := by
  obtain ⟨a, b, e_⟩ := s.postStateChange_shape before d; rw [e_]
@[simp] theorem State.postStateChange_ops (before : State) (d : Drive) : (s.postStateChange before d).ops = s.ops := by
  obtain ⟨a, b, e_⟩ := s.postStateChange_shape before d; rw [e_]
@[simp] theorem State.postStateChange_finishing (before : State) (d : Drive) : (s.postStateChange before d).finishing = s.finishing := by
  obtain ⟨a, b, e_⟩ := s.postStateChange_shape before d; rw [e_]
@[simp] theorem State.postStateChange_paths (before : State) (d : Drive) : (s.postStateChange before d).paths = s.paths := by
  obtain ⟨a, b, e_⟩ := s.postStateChange_shape before d; rw [e_]
@[simp] theorem State.postStateChange_spareMap (before : State) (d : Drive) : (s.postStateChange before d).spareMap = s.spareMap := by
  obtain ⟨a, b, e_⟩ := s.postStateChange_shape before d; rw [e_]
@[simp] theorem State.postStateChange_suspects (before : State) (d : Drive) : (s.postStateChange before d).suspects = s.suspects := by
  obtain ⟨a, b, e_⟩ := s.postStateChange_shape before d; rw [e_]
@[simp] theorem State.postStateChange_lastAlt (before : State) (d : Drive) : (s.postStateChange before d).lastAlt = s.lastAlt := by
  obtain ⟨a, b, e_⟩ := s.postStateChange_shape before d; rw [e_]
@[simp] theorem State.postStateChange_sharing (before : State) (d : Drive) : (s.postStateChange before d).sharing = s.sharing := by
  obtain ⟨a, b, e_⟩ := s.postStateChange_shape before d; rw [e_]
@[simp] theorem State.postStateChange_due (before : State) (d : Drive) : (s.postStateChange before d).due = s.due := by
  obtain ⟨a, b, e_⟩ := s.postStateChange_shape before d; rw [e_]
@[simp] theorem State.postStateChange_choices (before : State) (d : Drive) : (s.postStateChange before d).choices = s.choices := by
  obtain ⟨a, b, e_⟩ := s.postStateChange_shape before d; rw [e_]
@[simp] theorem State.postStateChange_pending (before : State) (d : Drive) : (s.postStateChange before d).pending = s.pending := by
  obtain ⟨a, b, e_⟩ := s.postStateChange_shape before d; rw [e_]
@[simp] theorem State.postStateChange_op (before : State) (d : Drive) (i : Drive) : (s.postStateChange before d).op i = s.op i := by
  obtain ⟨a, b, e_⟩ := s.postStateChange_shape before d; rw [e_]; rfl
@[simp] theorem State.postStateChange_pos (before : State) (d : Drive) (i : Drive) : (s.postStateChange before d).pos i = s.pos i := by
  obtain ⟨a, b, e_⟩ := s.postStateChange_shape before d; rw [e_]; rfl
@[simp] theorem State.postStateChange_share (before : State) (d : Drive) (i : Drive) : (s.postStateChange before d).share i = s.share i := by
  obtain ⟨a, b, e_⟩ := s.postStateChange_shape before d; rw [e_]; rfl
@[simp] theorem State.postStateChange_record (before : State) (d : Drive) (i : Drive) : (s.postStateChange before d).record i = s.record i := by
  obtain ⟨a, b, e_⟩ := s.postStateChange_shape before d; rw [e_]; rfl
@[simp] theorem State.postStateChange_path (before : State) (d : Drive) (i : PathNo) : (s.postStateChange before d).path i = s.path i := by
  obtain ⟨a, b, e_⟩ := s.postStateChange_shape before d; rw [e_]; rfl
@[simp] theorem State.postStateChange_finish (before : State) (d : Drive) (i : Drive) : (s.postStateChange before d).finish i = s.finish i := by
  obtain ⟨a, b, e_⟩ := s.postStateChange_shape before d; rw [e_]; rfl
@[simp] theorem State.postStateChange_typeOf (before : State) (d : Drive) (i : Drive) : (s.postStateChange before d).typeOf i = s.typeOf i := by
  obtain ⟨a, b, e_⟩ := s.postStateChange_shape before d; rw [e_]; rfl

theorem State.postSpareAdvised_shape (d : Drive) (t : Track) :
    ∃ a b, s.postSpareAdvised d t = { s with ports := a, queues := b } := by
  refine foldl_ind (P := fun t => ∃ a b, t = { s with ports := a, queues := b }) _ _ s ⟨_, _, rfl⟩ fun u p h => ?_
  obtain ⟨a, b, rfl⟩ := h
  dsimp only
  obtain ⟨a', b', e⟩ := State.post_shape { s with ports := a, queues := b } p (.spareAdvised d t)
  split <;> split <;> first | exact ⟨a', b', e⟩ | exact ⟨a, b, rfl⟩

@[simp] theorem State.postSpareAdvised_powered (d : Drive) (t : Track) : (s.postSpareAdvised d t).powered = s.powered := by
  obtain ⟨a, b, e_⟩ := s.postSpareAdvised_shape d t; rw [e_]
@[simp] theorem State.postSpareAdvised_now (d : Drive) (t : Track) : (s.postSpareAdvised d t).now = s.now := by
  obtain ⟨a, b, e_⟩ := s.postSpareAdvised_shape d t; rw [e_]
@[simp] theorem State.postSpareAdvised_types (d : Drive) (t : Track) : (s.postSpareAdvised d t).types = s.types := by
  obtain ⟨a, b, e_⟩ := s.postSpareAdvised_shape d t; rw [e_]
@[simp] theorem State.postSpareAdvised_records (d : Drive) (t : Track) : (s.postSpareAdvised d t).records = s.records := by
  obtain ⟨a, b, e_⟩ := s.postSpareAdvised_shape d t; rw [e_]
@[simp] theorem State.postSpareAdvised_positioners (d : Drive) (t : Track) : (s.postSpareAdvised d t).positioners = s.positioners := by
  obtain ⟨a, b, e_⟩ := s.postSpareAdvised_shape d t; rw [e_]
@[simp] theorem State.postSpareAdvised_ops (d : Drive) (t : Track) : (s.postSpareAdvised d t).ops = s.ops := by
  obtain ⟨a, b, e_⟩ := s.postSpareAdvised_shape d t; rw [e_]
@[simp] theorem State.postSpareAdvised_finishing (d : Drive) (t : Track) : (s.postSpareAdvised d t).finishing = s.finishing := by
  obtain ⟨a, b, e_⟩ := s.postSpareAdvised_shape d t; rw [e_]
@[simp] theorem State.postSpareAdvised_paths (d : Drive) (t : Track) : (s.postSpareAdvised d t).paths = s.paths := by
  obtain ⟨a, b, e_⟩ := s.postSpareAdvised_shape d t; rw [e_]
@[simp] theorem State.postSpareAdvised_spareMap (d : Drive) (t : Track) : (s.postSpareAdvised d t).spareMap = s.spareMap := by
  obtain ⟨a, b, e_⟩ := s.postSpareAdvised_shape d t; rw [e_]
@[simp] theorem State.postSpareAdvised_suspects (d : Drive) (t : Track) : (s.postSpareAdvised d t).suspects = s.suspects := by
  obtain ⟨a, b, e_⟩ := s.postSpareAdvised_shape d t; rw [e_]
@[simp] theorem State.postSpareAdvised_lastAlt (d : Drive) (t : Track) : (s.postSpareAdvised d t).lastAlt = s.lastAlt := by
  obtain ⟨a, b, e_⟩ := s.postSpareAdvised_shape d t; rw [e_]
@[simp] theorem State.postSpareAdvised_sharing (d : Drive) (t : Track) : (s.postSpareAdvised d t).sharing = s.sharing := by
  obtain ⟨a, b, e_⟩ := s.postSpareAdvised_shape d t; rw [e_]
@[simp] theorem State.postSpareAdvised_due (d : Drive) (t : Track) : (s.postSpareAdvised d t).due = s.due := by
  obtain ⟨a, b, e_⟩ := s.postSpareAdvised_shape d t; rw [e_]
@[simp] theorem State.postSpareAdvised_choices (d : Drive) (t : Track) : (s.postSpareAdvised d t).choices = s.choices := by
  obtain ⟨a, b, e_⟩ := s.postSpareAdvised_shape d t; rw [e_]
@[simp] theorem State.postSpareAdvised_pending (d : Drive) (t : Track) : (s.postSpareAdvised d t).pending = s.pending := by
  obtain ⟨a, b, e_⟩ := s.postSpareAdvised_shape d t; rw [e_]
@[simp] theorem State.postSpareAdvised_op (d : Drive) (t : Track) (i : Drive) : (s.postSpareAdvised d t).op i = s.op i := by
  obtain ⟨a, b, e_⟩ := s.postSpareAdvised_shape d t; rw [e_]; rfl
@[simp] theorem State.postSpareAdvised_pos (d : Drive) (t : Track) (i : Drive) : (s.postSpareAdvised d t).pos i = s.pos i := by
  obtain ⟨a, b, e_⟩ := s.postSpareAdvised_shape d t; rw [e_]; rfl
@[simp] theorem State.postSpareAdvised_share (d : Drive) (t : Track) (i : Drive) : (s.postSpareAdvised d t).share i = s.share i := by
  obtain ⟨a, b, e_⟩ := s.postSpareAdvised_shape d t; rw [e_]; rfl
@[simp] theorem State.postSpareAdvised_record (d : Drive) (t : Track) (i : Drive) : (s.postSpareAdvised d t).record i = s.record i := by
  obtain ⟨a, b, e_⟩ := s.postSpareAdvised_shape d t; rw [e_]; rfl
@[simp] theorem State.postSpareAdvised_path (d : Drive) (t : Track) (i : PathNo) : (s.postSpareAdvised d t).path i = s.path i := by
  obtain ⟨a, b, e_⟩ := s.postSpareAdvised_shape d t; rw [e_]; rfl
@[simp] theorem State.postSpareAdvised_finish (d : Drive) (t : Track) (i : Drive) : (s.postSpareAdvised d t).finish i = s.finish i := by
  obtain ⟨a, b, e_⟩ := s.postSpareAdvised_shape d t; rw [e_]; rfl
@[simp] theorem State.postSpareAdvised_typeOf (d : Drive) (t : Track) (i : Drive) : (s.postSpareAdvised d t).typeOf i = s.typeOf i := by
  obtain ⟨a, b, e_⟩ := s.postSpareAdvised_shape d t; rw [e_]; rfl

theorem State.owedTest_shape (d : Drive) :
    ∃ a b c, s.owedTest d = { s with ports := a, queues := b, sharing := c } := by
  refine foldl_ind (P := fun t => ∃ a b c, t = { s with ports := a, queues := b, sharing := c }) _ _ s ⟨_, _, _, rfl⟩ fun u p h => ?_
  obtain ⟨a, b, c, rfl⟩ := h
  split
  · split
    · obtain ⟨a', b', e⟩ := State.post_shape (State.removeOwed { s with ports := a, queues := b, sharing := c } d p) p (.deviceFree d)
      exact ⟨a', b', _, e⟩
    · exact ⟨a, b, c, rfl⟩
  · exact ⟨a, b, c, rfl⟩

@[simp] theorem State.owedTest_powered (d : Drive) : (s.owedTest d).powered = s.powered := by
  obtain ⟨a, b, c, e_⟩ := s.owedTest_shape d; rw [e_]
@[simp] theorem State.owedTest_now (d : Drive) : (s.owedTest d).now = s.now := by
  obtain ⟨a, b, c, e_⟩ := s.owedTest_shape d; rw [e_]
@[simp] theorem State.owedTest_types (d : Drive) : (s.owedTest d).types = s.types := by
  obtain ⟨a, b, c, e_⟩ := s.owedTest_shape d; rw [e_]
@[simp] theorem State.owedTest_records (d : Drive) : (s.owedTest d).records = s.records := by
  obtain ⟨a, b, c, e_⟩ := s.owedTest_shape d; rw [e_]
@[simp] theorem State.owedTest_positioners (d : Drive) : (s.owedTest d).positioners = s.positioners := by
  obtain ⟨a, b, c, e_⟩ := s.owedTest_shape d; rw [e_]
@[simp] theorem State.owedTest_finishing (d : Drive) : (s.owedTest d).finishing = s.finishing := by
  obtain ⟨a, b, c, e_⟩ := s.owedTest_shape d; rw [e_]
@[simp] theorem State.owedTest_paths (d : Drive) : (s.owedTest d).paths = s.paths := by
  obtain ⟨a, b, c, e_⟩ := s.owedTest_shape d; rw [e_]
@[simp] theorem State.owedTest_spareMap (d : Drive) : (s.owedTest d).spareMap = s.spareMap := by
  obtain ⟨a, b, c, e_⟩ := s.owedTest_shape d; rw [e_]
@[simp] theorem State.owedTest_suspects (d : Drive) : (s.owedTest d).suspects = s.suspects := by
  obtain ⟨a, b, c, e_⟩ := s.owedTest_shape d; rw [e_]
@[simp] theorem State.owedTest_lastAlt (d : Drive) : (s.owedTest d).lastAlt = s.lastAlt := by
  obtain ⟨a, b, c, e_⟩ := s.owedTest_shape d; rw [e_]
@[simp] theorem State.owedTest_due (d : Drive) : (s.owedTest d).due = s.due := by
  obtain ⟨a, b, c, e_⟩ := s.owedTest_shape d; rw [e_]
@[simp] theorem State.owedTest_choices (d : Drive) : (s.owedTest d).choices = s.choices := by
  obtain ⟨a, b, c, e_⟩ := s.owedTest_shape d; rw [e_]
@[simp] theorem State.owedTest_pending (d : Drive) : (s.owedTest d).pending = s.pending := by
  obtain ⟨a, b, c, e_⟩ := s.owedTest_shape d; rw [e_]
@[simp] theorem State.owedTest_op (d : Drive) (i : Drive) : (s.owedTest d).op i = s.op i := by
  obtain ⟨a, b, c, e_⟩ := s.owedTest_shape d; rw [e_]; rfl
@[simp] theorem State.owedTest_pos (d : Drive) (i : Drive) : (s.owedTest d).pos i = s.pos i := by
  obtain ⟨a, b, c, e_⟩ := s.owedTest_shape d; rw [e_]; rfl
@[simp] theorem State.owedTest_record (d : Drive) (i : Drive) : (s.owedTest d).record i = s.record i := by
  obtain ⟨a, b, c, e_⟩ := s.owedTest_shape d; rw [e_]; rfl
@[simp] theorem State.owedTest_path (d : Drive) (i : PathNo) : (s.owedTest d).path i = s.path i := by
  obtain ⟨a, b, c, e_⟩ := s.owedTest_shape d; rw [e_]; rfl
@[simp] theorem State.owedTest_finish (d : Drive) (i : Drive) : (s.owedTest d).finish i = s.finish i := by
  obtain ⟨a, b, c, e_⟩ := s.owedTest_shape d; rw [e_]; rfl
@[simp] theorem State.owedTest_typeOf (d : Drive) (i : Drive) : (s.owedTest d).typeOf i = s.typeOf i := by
  obtain ⟨a, b, c, e_⟩ := s.owedTest_shape d; rw [e_]; rfl

theorem State.freeAllOwed_shape (d : Drive) (x : Option Port) :
    ∃ a b c, s.freeAllOwed d x = { s with ports := a, queues := b, sharing := c } := by
  unfold State.freeAllOwed
  dsimp only
  obtain ⟨a, b, e⟩ : ∃ a b, (s.forPorts fun s p =>
      if ((s.share d).owes p).isSome ∧ x ≠ some p then s.post p (.deviceFree d) else s) = { s with ports := a, queues := b } := by
    refine foldl_ind (P := fun t => ∃ a b, t = { s with ports := a, queues := b }) _ _ s ⟨_, _, rfl⟩ fun u p h => ?_
    obtain ⟨a, b, rfl⟩ := h
    split
    · obtain ⟨a', b', e⟩ := State.post_shape { s with ports := a, queues := b } p (.deviceFree d)
      exact ⟨a', b', e⟩
    · exact ⟨a, b, rfl⟩
  rw [e]
  exact ⟨a, b, _, rfl⟩

@[simp] theorem State.freeAllOwed_powered (d : Drive) (x : Option Port) : (s.freeAllOwed d x).powered = s.powered := by
  obtain ⟨a, b, c, e_⟩ := s.freeAllOwed_shape d x; rw [e_]
@[simp] theorem State.freeAllOwed_now (d : Drive) (x : Option Port) : (s.freeAllOwed d x).now = s.now := by
  obtain ⟨a, b, c, e_⟩ := s.freeAllOwed_shape d x; rw [e_]
@[simp] theorem State.freeAllOwed_types (d : Drive) (x : Option Port) : (s.freeAllOwed d x).types = s.types := by
  obtain ⟨a, b, c, e_⟩ := s.freeAllOwed_shape d x; rw [e_]
@[simp] theorem State.freeAllOwed_records (d : Drive) (x : Option Port) : (s.freeAllOwed d x).records = s.records := by
  obtain ⟨a, b, c, e_⟩ := s.freeAllOwed_shape d x; rw [e_]
@[simp] theorem State.freeAllOwed_positioners (d : Drive) (x : Option Port) : (s.freeAllOwed d x).positioners = s.positioners := by
  obtain ⟨a, b, c, e_⟩ := s.freeAllOwed_shape d x; rw [e_]
@[simp] theorem State.freeAllOwed_ops (d : Drive) (x : Option Port) : (s.freeAllOwed d x).ops = s.ops := by
  obtain ⟨a, b, c, e_⟩ := s.freeAllOwed_shape d x; rw [e_]
@[simp] theorem State.freeAllOwed_finishing (d : Drive) (x : Option Port) : (s.freeAllOwed d x).finishing = s.finishing := by
  obtain ⟨a, b, c, e_⟩ := s.freeAllOwed_shape d x; rw [e_]
@[simp] theorem State.freeAllOwed_paths (d : Drive) (x : Option Port) : (s.freeAllOwed d x).paths = s.paths := by
  obtain ⟨a, b, c, e_⟩ := s.freeAllOwed_shape d x; rw [e_]
@[simp] theorem State.freeAllOwed_spareMap (d : Drive) (x : Option Port) : (s.freeAllOwed d x).spareMap = s.spareMap := by
  obtain ⟨a, b, c, e_⟩ := s.freeAllOwed_shape d x; rw [e_]
@[simp] theorem State.freeAllOwed_suspects (d : Drive) (x : Option Port) : (s.freeAllOwed d x).suspects = s.suspects := by
  obtain ⟨a, b, c, e_⟩ := s.freeAllOwed_shape d x; rw [e_]
@[simp] theorem State.freeAllOwed_lastAlt (d : Drive) (x : Option Port) : (s.freeAllOwed d x).lastAlt = s.lastAlt := by
  obtain ⟨a, b, c, e_⟩ := s.freeAllOwed_shape d x; rw [e_]
@[simp] theorem State.freeAllOwed_due (d : Drive) (x : Option Port) : (s.freeAllOwed d x).due = s.due := by
  obtain ⟨a, b, c, e_⟩ := s.freeAllOwed_shape d x; rw [e_]
@[simp] theorem State.freeAllOwed_choices (d : Drive) (x : Option Port) : (s.freeAllOwed d x).choices = s.choices := by
  obtain ⟨a, b, c, e_⟩ := s.freeAllOwed_shape d x; rw [e_]
@[simp] theorem State.freeAllOwed_pending (d : Drive) (x : Option Port) : (s.freeAllOwed d x).pending = s.pending := by
  obtain ⟨a, b, c, e_⟩ := s.freeAllOwed_shape d x; rw [e_]
@[simp] theorem State.freeAllOwed_op (d : Drive) (x : Option Port) (i : Drive) : (s.freeAllOwed d x).op i = s.op i := by
  obtain ⟨a, b, c, e_⟩ := s.freeAllOwed_shape d x; rw [e_]; rfl
@[simp] theorem State.freeAllOwed_pos (d : Drive) (x : Option Port) (i : Drive) : (s.freeAllOwed d x).pos i = s.pos i := by
  obtain ⟨a, b, c, e_⟩ := s.freeAllOwed_shape d x; rw [e_]; rfl
@[simp] theorem State.freeAllOwed_record (d : Drive) (x : Option Port) (i : Drive) : (s.freeAllOwed d x).record i = s.record i := by
  obtain ⟨a, b, c, e_⟩ := s.freeAllOwed_shape d x; rw [e_]; rfl
@[simp] theorem State.freeAllOwed_path (d : Drive) (x : Option Port) (i : PathNo) : (s.freeAllOwed d x).path i = s.path i := by
  obtain ⟨a, b, c, e_⟩ := s.freeAllOwed_shape d x; rw [e_]; rfl
@[simp] theorem State.freeAllOwed_finish (d : Drive) (x : Option Port) (i : Drive) : (s.freeAllOwed d x).finish i = s.finish i := by
  obtain ⟨a, b, c, e_⟩ := s.freeAllOwed_shape d x; rw [e_]; rfl
@[simp] theorem State.freeAllOwed_typeOf (d : Drive) (x : Option Port) (i : Drive) : (s.freeAllOwed d x).typeOf i = s.typeOf i := by
  obtain ⟨a, b, c, e_⟩ := s.freeAllOwed_shape d x; rw [e_]; rfl

theorem State.endOwnHold_shape (d : Drive) (p : Port) :
    ∃ a b c, s.endOwnHold d p = { s with ports := a, queues := b, sharing := c } := by
  unfold State.endOwnHold
  split
  · obtain ⟨a, b, c, e⟩ := State.owedTest_shape (s.dropHold d) d
    exact ⟨a, b, c, e⟩
  · exact ⟨_, _, _, rfl⟩

@[simp] theorem State.endOwnHold_powered (d : Drive) (p : Port) : (s.endOwnHold d p).powered = s.powered := by
  obtain ⟨a, b, c, e_⟩ := s.endOwnHold_shape d p; rw [e_]
@[simp] theorem State.endOwnHold_now (d : Drive) (p : Port) : (s.endOwnHold d p).now = s.now := by
  obtain ⟨a, b, c, e_⟩ := s.endOwnHold_shape d p; rw [e_]
@[simp] theorem State.endOwnHold_types (d : Drive) (p : Port) : (s.endOwnHold d p).types = s.types := by
  obtain ⟨a, b, c, e_⟩ := s.endOwnHold_shape d p; rw [e_]
@[simp] theorem State.endOwnHold_records (d : Drive) (p : Port) : (s.endOwnHold d p).records = s.records := by
  obtain ⟨a, b, c, e_⟩ := s.endOwnHold_shape d p; rw [e_]
@[simp] theorem State.endOwnHold_positioners (d : Drive) (p : Port) : (s.endOwnHold d p).positioners = s.positioners := by
  obtain ⟨a, b, c, e_⟩ := s.endOwnHold_shape d p; rw [e_]
@[simp] theorem State.endOwnHold_finishing (d : Drive) (p : Port) : (s.endOwnHold d p).finishing = s.finishing := by
  obtain ⟨a, b, c, e_⟩ := s.endOwnHold_shape d p; rw [e_]
@[simp] theorem State.endOwnHold_paths (d : Drive) (p : Port) : (s.endOwnHold d p).paths = s.paths := by
  obtain ⟨a, b, c, e_⟩ := s.endOwnHold_shape d p; rw [e_]
@[simp] theorem State.endOwnHold_spareMap (d : Drive) (p : Port) : (s.endOwnHold d p).spareMap = s.spareMap := by
  obtain ⟨a, b, c, e_⟩ := s.endOwnHold_shape d p; rw [e_]
@[simp] theorem State.endOwnHold_suspects (d : Drive) (p : Port) : (s.endOwnHold d p).suspects = s.suspects := by
  obtain ⟨a, b, c, e_⟩ := s.endOwnHold_shape d p; rw [e_]
@[simp] theorem State.endOwnHold_lastAlt (d : Drive) (p : Port) : (s.endOwnHold d p).lastAlt = s.lastAlt := by
  obtain ⟨a, b, c, e_⟩ := s.endOwnHold_shape d p; rw [e_]
@[simp] theorem State.endOwnHold_due (d : Drive) (p : Port) : (s.endOwnHold d p).due = s.due := by
  obtain ⟨a, b, c, e_⟩ := s.endOwnHold_shape d p; rw [e_]
@[simp] theorem State.endOwnHold_choices (d : Drive) (p : Port) : (s.endOwnHold d p).choices = s.choices := by
  obtain ⟨a, b, c, e_⟩ := s.endOwnHold_shape d p; rw [e_]
@[simp] theorem State.endOwnHold_pending (d : Drive) (p : Port) : (s.endOwnHold d p).pending = s.pending := by
  obtain ⟨a, b, c, e_⟩ := s.endOwnHold_shape d p; rw [e_]
@[simp] theorem State.endOwnHold_op (d : Drive) (p : Port) (i : Drive) : (s.endOwnHold d p).op i = s.op i := by
  obtain ⟨a, b, c, e_⟩ := s.endOwnHold_shape d p; rw [e_]; rfl
@[simp] theorem State.endOwnHold_pos (d : Drive) (p : Port) (i : Drive) : (s.endOwnHold d p).pos i = s.pos i := by
  obtain ⟨a, b, c, e_⟩ := s.endOwnHold_shape d p; rw [e_]; rfl
@[simp] theorem State.endOwnHold_record (d : Drive) (p : Port) (i : Drive) : (s.endOwnHold d p).record i = s.record i := by
  obtain ⟨a, b, c, e_⟩ := s.endOwnHold_shape d p; rw [e_]; rfl
@[simp] theorem State.endOwnHold_path (d : Drive) (p : Port) (i : PathNo) : (s.endOwnHold d p).path i = s.path i := by
  obtain ⟨a, b, c, e_⟩ := s.endOwnHold_shape d p; rw [e_]; rfl
@[simp] theorem State.endOwnHold_finish (d : Drive) (p : Port) (i : Drive) : (s.endOwnHold d p).finish i = s.finish i := by
  obtain ⟨a, b, c, e_⟩ := s.endOwnHold_shape d p; rw [e_]; rfl
@[simp] theorem State.endOwnHold_typeOf (d : Drive) (p : Port) (i : Drive) : (s.endOwnHold d p).typeOf i = s.typeOf i := by
  obtain ⟨a, b, c, e_⟩ := s.endOwnHold_shape d p; rw [e_]; rfl

theorem State.push_shape (p : Port) (f : OutFrame) :
    ∃ a, s.push p f = { s with ports := a } := by
  exact ⟨_, rfl⟩

@[simp] theorem State.push_powered (p : Port) (f : OutFrame) : (s.push p f).powered = s.powered := by
  obtain ⟨a, e_⟩ := s.push_shape p f; rw [e_]
@[simp] theorem State.push_now (p : Port) (f : OutFrame) : (s.push p f).now = s.now := by
  obtain ⟨a, e_⟩ := s.push_shape p f; rw [e_]
@[simp] theorem State.push_types (p : Port) (f : OutFrame) : (s.push p f).types = s.types := by
  obtain ⟨a, e_⟩ := s.push_shape p f; rw [e_]
@[simp] theorem State.push_records (p : Port) (f : OutFrame) : (s.push p f).records = s.records := by
  obtain ⟨a, e_⟩ := s.push_shape p f; rw [e_]
@[simp] theorem State.push_positioners (p : Port) (f : OutFrame) : (s.push p f).positioners = s.positioners := by
  obtain ⟨a, e_⟩ := s.push_shape p f; rw [e_]
@[simp] theorem State.push_ops (p : Port) (f : OutFrame) : (s.push p f).ops = s.ops := by
  obtain ⟨a, e_⟩ := s.push_shape p f; rw [e_]
@[simp] theorem State.push_finishing (p : Port) (f : OutFrame) : (s.push p f).finishing = s.finishing := by
  obtain ⟨a, e_⟩ := s.push_shape p f; rw [e_]
@[simp] theorem State.push_paths (p : Port) (f : OutFrame) : (s.push p f).paths = s.paths := by
  obtain ⟨a, e_⟩ := s.push_shape p f; rw [e_]
@[simp] theorem State.push_spareMap (p : Port) (f : OutFrame) : (s.push p f).spareMap = s.spareMap := by
  obtain ⟨a, e_⟩ := s.push_shape p f; rw [e_]
@[simp] theorem State.push_suspects (p : Port) (f : OutFrame) : (s.push p f).suspects = s.suspects := by
  obtain ⟨a, e_⟩ := s.push_shape p f; rw [e_]
@[simp] theorem State.push_lastAlt (p : Port) (f : OutFrame) : (s.push p f).lastAlt = s.lastAlt := by
  obtain ⟨a, e_⟩ := s.push_shape p f; rw [e_]
@[simp] theorem State.push_queues (p : Port) (f : OutFrame) : (s.push p f).queues = s.queues := by
  obtain ⟨a, e_⟩ := s.push_shape p f; rw [e_]
@[simp] theorem State.push_sharing (p : Port) (f : OutFrame) : (s.push p f).sharing = s.sharing := by
  obtain ⟨a, e_⟩ := s.push_shape p f; rw [e_]
@[simp] theorem State.push_due (p : Port) (f : OutFrame) : (s.push p f).due = s.due := by
  obtain ⟨a, e_⟩ := s.push_shape p f; rw [e_]
@[simp] theorem State.push_choices (p : Port) (f : OutFrame) : (s.push p f).choices = s.choices := by
  obtain ⟨a, e_⟩ := s.push_shape p f; rw [e_]
@[simp] theorem State.push_pending (p : Port) (f : OutFrame) : (s.push p f).pending = s.pending := by
  obtain ⟨a, e_⟩ := s.push_shape p f; rw [e_]
@[simp] theorem State.push_op (p : Port) (f : OutFrame) (i : Drive) : (s.push p f).op i = s.op i := by
  obtain ⟨a, e_⟩ := s.push_shape p f; rw [e_]; rfl
@[simp] theorem State.push_pos (p : Port) (f : OutFrame) (i : Drive) : (s.push p f).pos i = s.pos i := by
  obtain ⟨a, e_⟩ := s.push_shape p f; rw [e_]; rfl
@[simp] theorem State.push_share (p : Port) (f : OutFrame) (i : Drive) : (s.push p f).share i = s.share i := by
  obtain ⟨a, e_⟩ := s.push_shape p f; rw [e_]; rfl
@[simp] theorem State.push_queue (p : Port) (f : OutFrame) (i : Port) : (s.push p f).queue i = s.queue i := by
  obtain ⟨a, e_⟩ := s.push_shape p f; rw [e_]; rfl
@[simp] theorem State.push_record (p : Port) (f : OutFrame) (i : Drive) : (s.push p f).record i = s.record i := by
  obtain ⟨a, e_⟩ := s.push_shape p f; rw [e_]; rfl
@[simp] theorem State.push_path (p : Port) (f : OutFrame) (i : PathNo) : (s.push p f).path i = s.path i := by
  obtain ⟨a, e_⟩ := s.push_shape p f; rw [e_]; rfl
@[simp] theorem State.push_finish (p : Port) (f : OutFrame) (i : Drive) : (s.push p f).finish i = s.finish i := by
  obtain ⟨a, e_⟩ := s.push_shape p f; rw [e_]; rfl
@[simp] theorem State.push_typeOf (p : Port) (f : OutFrame) (i : Drive) : (s.push p f).typeOf i = s.typeOf i := by
  obtain ⟨a, e_⟩ := s.push_shape p f; rw [e_]; rfl

theorem State.sendStatus_shape (p : Port) (c : Conn) (st : Status) (e : Bool) :
    ∃ a, s.sendStatus p c st e = { s with ports := a } := by
  exact ⟨_, rfl⟩

@[simp] theorem State.sendStatus_powered (p : Port) (c : Conn) (st : Status) (e : Bool) : (s.sendStatus p c st e).powered = s.powered := by
  obtain ⟨a, e_⟩ := s.sendStatus_shape p c st e; rw [e_]
@[simp] theorem State.sendStatus_now (p : Port) (c : Conn) (st : Status) (e : Bool) : (s.sendStatus p c st e).now = s.now := by
  obtain ⟨a, e_⟩ := s.sendStatus_shape p c st e; rw [e_]
@[simp] theorem State.sendStatus_types (p : Port) (c : Conn) (st : Status) (e : Bool) : (s.sendStatus p c st e).types = s.types := by
  obtain ⟨a, e_⟩ := s.sendStatus_shape p c st e; rw [e_]
@[simp] theorem State.sendStatus_records (p : Port) (c : Conn) (st : Status) (e : Bool) : (s.sendStatus p c st e).records = s.records := by
  obtain ⟨a, e_⟩ := s.sendStatus_shape p c st e; rw [e_]
@[simp] theorem State.sendStatus_positioners (p : Port) (c : Conn) (st : Status) (e : Bool) : (s.sendStatus p c st e).positioners = s.positioners := by
  obtain ⟨a, e_⟩ := s.sendStatus_shape p c st e; rw [e_]
@[simp] theorem State.sendStatus_ops (p : Port) (c : Conn) (st : Status) (e : Bool) : (s.sendStatus p c st e).ops = s.ops := by
  obtain ⟨a, e_⟩ := s.sendStatus_shape p c st e; rw [e_]
@[simp] theorem State.sendStatus_finishing (p : Port) (c : Conn) (st : Status) (e : Bool) : (s.sendStatus p c st e).finishing = s.finishing := by
  obtain ⟨a, e_⟩ := s.sendStatus_shape p c st e; rw [e_]
@[simp] theorem State.sendStatus_paths (p : Port) (c : Conn) (st : Status) (e : Bool) : (s.sendStatus p c st e).paths = s.paths := by
  obtain ⟨a, e_⟩ := s.sendStatus_shape p c st e; rw [e_]
@[simp] theorem State.sendStatus_spareMap (p : Port) (c : Conn) (st : Status) (e : Bool) : (s.sendStatus p c st e).spareMap = s.spareMap := by
  obtain ⟨a, e_⟩ := s.sendStatus_shape p c st e; rw [e_]
@[simp] theorem State.sendStatus_suspects (p : Port) (c : Conn) (st : Status) (e : Bool) : (s.sendStatus p c st e).suspects = s.suspects := by
  obtain ⟨a, e_⟩ := s.sendStatus_shape p c st e; rw [e_]
@[simp] theorem State.sendStatus_lastAlt (p : Port) (c : Conn) (st : Status) (e : Bool) : (s.sendStatus p c st e).lastAlt = s.lastAlt := by
  obtain ⟨a, e_⟩ := s.sendStatus_shape p c st e; rw [e_]
@[simp] theorem State.sendStatus_queues (p : Port) (c : Conn) (st : Status) (e : Bool) : (s.sendStatus p c st e).queues = s.queues := by
  obtain ⟨a, e_⟩ := s.sendStatus_shape p c st e; rw [e_]
@[simp] theorem State.sendStatus_sharing (p : Port) (c : Conn) (st : Status) (e : Bool) : (s.sendStatus p c st e).sharing = s.sharing := by
  obtain ⟨a, e_⟩ := s.sendStatus_shape p c st e; rw [e_]
@[simp] theorem State.sendStatus_due (p : Port) (c : Conn) (st : Status) (e : Bool) : (s.sendStatus p c st e).due = s.due := by
  obtain ⟨a, e_⟩ := s.sendStatus_shape p c st e; rw [e_]
@[simp] theorem State.sendStatus_choices (p : Port) (c : Conn) (st : Status) (e : Bool) : (s.sendStatus p c st e).choices = s.choices := by
  obtain ⟨a, e_⟩ := s.sendStatus_shape p c st e; rw [e_]
@[simp] theorem State.sendStatus_pending (p : Port) (c : Conn) (st : Status) (e : Bool) : (s.sendStatus p c st e).pending = s.pending := by
  obtain ⟨a, e_⟩ := s.sendStatus_shape p c st e; rw [e_]
@[simp] theorem State.sendStatus_op (p : Port) (c : Conn) (st : Status) (e : Bool) (i : Drive) : (s.sendStatus p c st e).op i = s.op i := by
  obtain ⟨a, e_⟩ := s.sendStatus_shape p c st e; rw [e_]; rfl
@[simp] theorem State.sendStatus_pos (p : Port) (c : Conn) (st : Status) (e : Bool) (i : Drive) : (s.sendStatus p c st e).pos i = s.pos i := by
  obtain ⟨a, e_⟩ := s.sendStatus_shape p c st e; rw [e_]; rfl
@[simp] theorem State.sendStatus_share (p : Port) (c : Conn) (st : Status) (e : Bool) (i : Drive) : (s.sendStatus p c st e).share i = s.share i := by
  obtain ⟨a, e_⟩ := s.sendStatus_shape p c st e; rw [e_]; rfl
@[simp] theorem State.sendStatus_queue (p : Port) (c : Conn) (st : Status) (e : Bool) (i : Port) : (s.sendStatus p c st e).queue i = s.queue i := by
  obtain ⟨a, e_⟩ := s.sendStatus_shape p c st e; rw [e_]; rfl
@[simp] theorem State.sendStatus_record (p : Port) (c : Conn) (st : Status) (e : Bool) (i : Drive) : (s.sendStatus p c st e).record i = s.record i := by
  obtain ⟨a, e_⟩ := s.sendStatus_shape p c st e; rw [e_]; rfl
@[simp] theorem State.sendStatus_path (p : Port) (c : Conn) (st : Status) (e : Bool) (i : PathNo) : (s.sendStatus p c st e).path i = s.path i := by
  obtain ⟨a, e_⟩ := s.sendStatus_shape p c st e; rw [e_]; rfl
@[simp] theorem State.sendStatus_finish (p : Port) (c : Conn) (st : Status) (e : Bool) (i : Drive) : (s.sendStatus p c st e).finish i = s.finish i := by
  obtain ⟨a, e_⟩ := s.sendStatus_shape p c st e; rw [e_]; rfl
@[simp] theorem State.sendStatus_typeOf (p : Port) (c : Conn) (st : Status) (e : Bool) (i : Drive) : (s.sendStatus p c st e).typeOf i = s.typeOf i := by
  obtain ⟨a, e_⟩ := s.sendStatus_shape p c st e; rw [e_]; rfl

theorem State.reply_shape (p : Port) (d : Drive) (st : Status) :
    ∃ a, s.reply p d st = { s with ports := a } := by
  exact ⟨_, rfl⟩

@[simp] theorem State.reply_powered (p : Port) (d : Drive) (st : Status) : (s.reply p d st).powered = s.powered := by
  obtain ⟨a, e_⟩ := s.reply_shape p d st; rw [e_]
@[simp] theorem State.reply_now (p : Port) (d : Drive) (st : Status) : (s.reply p d st).now = s.now := by
  obtain ⟨a, e_⟩ := s.reply_shape p d st; rw [e_]
@[simp] theorem State.reply_types (p : Port) (d : Drive) (st : Status) : (s.reply p d st).types = s.types := by
  obtain ⟨a, e_⟩ := s.reply_shape p d st; rw [e_]
@[simp] theorem State.reply_records (p : Port) (d : Drive) (st : Status) : (s.reply p d st).records = s.records := by
  obtain ⟨a, e_⟩ := s.reply_shape p d st; rw [e_]
@[simp] theorem State.reply_positioners (p : Port) (d : Drive) (st : Status) : (s.reply p d st).positioners = s.positioners := by
  obtain ⟨a, e_⟩ := s.reply_shape p d st; rw [e_]
@[simp] theorem State.reply_ops (p : Port) (d : Drive) (st : Status) : (s.reply p d st).ops = s.ops := by
  obtain ⟨a, e_⟩ := s.reply_shape p d st; rw [e_]
@[simp] theorem State.reply_finishing (p : Port) (d : Drive) (st : Status) : (s.reply p d st).finishing = s.finishing := by
  obtain ⟨a, e_⟩ := s.reply_shape p d st; rw [e_]
@[simp] theorem State.reply_paths (p : Port) (d : Drive) (st : Status) : (s.reply p d st).paths = s.paths := by
  obtain ⟨a, e_⟩ := s.reply_shape p d st; rw [e_]
@[simp] theorem State.reply_spareMap (p : Port) (d : Drive) (st : Status) : (s.reply p d st).spareMap = s.spareMap := by
  obtain ⟨a, e_⟩ := s.reply_shape p d st; rw [e_]
@[simp] theorem State.reply_suspects (p : Port) (d : Drive) (st : Status) : (s.reply p d st).suspects = s.suspects := by
  obtain ⟨a, e_⟩ := s.reply_shape p d st; rw [e_]
@[simp] theorem State.reply_lastAlt (p : Port) (d : Drive) (st : Status) : (s.reply p d st).lastAlt = s.lastAlt := by
  obtain ⟨a, e_⟩ := s.reply_shape p d st; rw [e_]
@[simp] theorem State.reply_queues (p : Port) (d : Drive) (st : Status) : (s.reply p d st).queues = s.queues := by
  obtain ⟨a, e_⟩ := s.reply_shape p d st; rw [e_]
@[simp] theorem State.reply_sharing (p : Port) (d : Drive) (st : Status) : (s.reply p d st).sharing = s.sharing := by
  obtain ⟨a, e_⟩ := s.reply_shape p d st; rw [e_]
@[simp] theorem State.reply_due (p : Port) (d : Drive) (st : Status) : (s.reply p d st).due = s.due := by
  obtain ⟨a, e_⟩ := s.reply_shape p d st; rw [e_]
@[simp] theorem State.reply_choices (p : Port) (d : Drive) (st : Status) : (s.reply p d st).choices = s.choices := by
  obtain ⟨a, e_⟩ := s.reply_shape p d st; rw [e_]
@[simp] theorem State.reply_pending (p : Port) (d : Drive) (st : Status) : (s.reply p d st).pending = s.pending := by
  obtain ⟨a, e_⟩ := s.reply_shape p d st; rw [e_]
@[simp] theorem State.reply_op (p : Port) (d : Drive) (st : Status) (i : Drive) : (s.reply p d st).op i = s.op i := by
  obtain ⟨a, e_⟩ := s.reply_shape p d st; rw [e_]; rfl
@[simp] theorem State.reply_pos (p : Port) (d : Drive) (st : Status) (i : Drive) : (s.reply p d st).pos i = s.pos i := by
  obtain ⟨a, e_⟩ := s.reply_shape p d st; rw [e_]; rfl
@[simp] theorem State.reply_share (p : Port) (d : Drive) (st : Status) (i : Drive) : (s.reply p d st).share i = s.share i := by
  obtain ⟨a, e_⟩ := s.reply_shape p d st; rw [e_]; rfl
@[simp] theorem State.reply_queue (p : Port) (d : Drive) (st : Status) (i : Port) : (s.reply p d st).queue i = s.queue i := by
  obtain ⟨a, e_⟩ := s.reply_shape p d st; rw [e_]; rfl
@[simp] theorem State.reply_record (p : Port) (d : Drive) (st : Status) (i : Drive) : (s.reply p d st).record i = s.record i := by
  obtain ⟨a, e_⟩ := s.reply_shape p d st; rw [e_]; rfl
@[simp] theorem State.reply_path (p : Port) (d : Drive) (st : Status) (i : PathNo) : (s.reply p d st).path i = s.path i := by
  obtain ⟨a, e_⟩ := s.reply_shape p d st; rw [e_]; rfl
@[simp] theorem State.reply_finish (p : Port) (d : Drive) (st : Status) (i : Drive) : (s.reply p d st).finish i = s.finish i := by
  obtain ⟨a, e_⟩ := s.reply_shape p d st; rw [e_]; rfl
@[simp] theorem State.reply_typeOf (p : Port) (d : Drive) (st : Status) (i : Drive) : (s.reply p d st).typeOf i = s.typeOf i := by
  obtain ⟨a, e_⟩ := s.reply_shape p d st; rw [e_]; rfl

theorem State.unitStatus_shape (p : Port) (st : Status) :
    ∃ a, s.unitStatus p st = { s with ports := a } := by
  unfold State.unitStatus
  split
  · exact ⟨_, rfl⟩
  · exact ⟨_, rfl⟩

@[simp] theorem State.unitStatus_powered (p : Port) (st : Status) : (s.unitStatus p st).powered = s.powered := by
  obtain ⟨a, e_⟩ := s.unitStatus_shape p st; rw [e_]
@[simp] theorem State.unitStatus_now (p : Port) (st : Status) : (s.unitStatus p st).now = s.now := by
  obtain ⟨a, e_⟩ := s.unitStatus_shape p st; rw [e_]
@[simp] theorem State.unitStatus_types (p : Port) (st : Status) : (s.unitStatus p st).types = s.types := by
  obtain ⟨a, e_⟩ := s.unitStatus_shape p st; rw [e_]
@[simp] theorem State.unitStatus_records (p : Port) (st : Status) : (s.unitStatus p st).records = s.records := by
  obtain ⟨a, e_⟩ := s.unitStatus_shape p st; rw [e_]
@[simp] theorem State.unitStatus_positioners (p : Port) (st : Status) : (s.unitStatus p st).positioners = s.positioners := by
  obtain ⟨a, e_⟩ := s.unitStatus_shape p st; rw [e_]
@[simp] theorem State.unitStatus_ops (p : Port) (st : Status) : (s.unitStatus p st).ops = s.ops := by
  obtain ⟨a, e_⟩ := s.unitStatus_shape p st; rw [e_]
@[simp] theorem State.unitStatus_finishing (p : Port) (st : Status) : (s.unitStatus p st).finishing = s.finishing := by
  obtain ⟨a, e_⟩ := s.unitStatus_shape p st; rw [e_]
@[simp] theorem State.unitStatus_paths (p : Port) (st : Status) : (s.unitStatus p st).paths = s.paths := by
  obtain ⟨a, e_⟩ := s.unitStatus_shape p st; rw [e_]
@[simp] theorem State.unitStatus_spareMap (p : Port) (st : Status) : (s.unitStatus p st).spareMap = s.spareMap := by
  obtain ⟨a, e_⟩ := s.unitStatus_shape p st; rw [e_]
@[simp] theorem State.unitStatus_suspects (p : Port) (st : Status) : (s.unitStatus p st).suspects = s.suspects := by
  obtain ⟨a, e_⟩ := s.unitStatus_shape p st; rw [e_]
@[simp] theorem State.unitStatus_lastAlt (p : Port) (st : Status) : (s.unitStatus p st).lastAlt = s.lastAlt := by
  obtain ⟨a, e_⟩ := s.unitStatus_shape p st; rw [e_]
@[simp] theorem State.unitStatus_queues (p : Port) (st : Status) : (s.unitStatus p st).queues = s.queues := by
  obtain ⟨a, e_⟩ := s.unitStatus_shape p st; rw [e_]
@[simp] theorem State.unitStatus_sharing (p : Port) (st : Status) : (s.unitStatus p st).sharing = s.sharing := by
  obtain ⟨a, e_⟩ := s.unitStatus_shape p st; rw [e_]
@[simp] theorem State.unitStatus_due (p : Port) (st : Status) : (s.unitStatus p st).due = s.due := by
  obtain ⟨a, e_⟩ := s.unitStatus_shape p st; rw [e_]
@[simp] theorem State.unitStatus_choices (p : Port) (st : Status) : (s.unitStatus p st).choices = s.choices := by
  obtain ⟨a, e_⟩ := s.unitStatus_shape p st; rw [e_]
@[simp] theorem State.unitStatus_pending (p : Port) (st : Status) : (s.unitStatus p st).pending = s.pending := by
  obtain ⟨a, e_⟩ := s.unitStatus_shape p st; rw [e_]
@[simp] theorem State.unitStatus_op (p : Port) (st : Status) (i : Drive) : (s.unitStatus p st).op i = s.op i := by
  obtain ⟨a, e_⟩ := s.unitStatus_shape p st; rw [e_]; rfl
@[simp] theorem State.unitStatus_pos (p : Port) (st : Status) (i : Drive) : (s.unitStatus p st).pos i = s.pos i := by
  obtain ⟨a, e_⟩ := s.unitStatus_shape p st; rw [e_]; rfl
@[simp] theorem State.unitStatus_share (p : Port) (st : Status) (i : Drive) : (s.unitStatus p st).share i = s.share i := by
  obtain ⟨a, e_⟩ := s.unitStatus_shape p st; rw [e_]; rfl
@[simp] theorem State.unitStatus_queue (p : Port) (st : Status) (i : Port) : (s.unitStatus p st).queue i = s.queue i := by
  obtain ⟨a, e_⟩ := s.unitStatus_shape p st; rw [e_]; rfl
@[simp] theorem State.unitStatus_record (p : Port) (st : Status) (i : Drive) : (s.unitStatus p st).record i = s.record i := by
  obtain ⟨a, e_⟩ := s.unitStatus_shape p st; rw [e_]; rfl
@[simp] theorem State.unitStatus_path (p : Port) (st : Status) (i : PathNo) : (s.unitStatus p st).path i = s.path i := by
  obtain ⟨a, e_⟩ := s.unitStatus_shape p st; rw [e_]; rfl
@[simp] theorem State.unitStatus_finish (p : Port) (st : Status) (i : Drive) : (s.unitStatus p st).finish i = s.finish i := by
  obtain ⟨a, e_⟩ := s.unitStatus_shape p st; rw [e_]; rfl
@[simp] theorem State.unitStatus_typeOf (p : Port) (st : Status) (i : Drive) : (s.unitStatus p st).typeOf i = s.typeOf i := by
  obtain ⟨a, e_⟩ := s.unitStatus_shape p st; rw [e_]; rfl

theorem State.answerData_shape (p : Port) (c : Conn) (bs : List Byte) :
    ∃ a, s.answerData p c bs = { s with ports := a } := by
  exact ⟨_, rfl⟩

@[simp] theorem State.answerData_powered (p : Port) (c : Conn) (bs : List Byte) : (s.answerData p c bs).powered = s.powered := by
  obtain ⟨a, e_⟩ := s.answerData_shape p c bs; rw [e_]
@[simp] theorem State.answerData_now (p : Port) (c : Conn) (bs : List Byte) : (s.answerData p c bs).now = s.now := by
  obtain ⟨a, e_⟩ := s.answerData_shape p c bs; rw [e_]
@[simp] theorem State.answerData_types (p : Port) (c : Conn) (bs : List Byte) : (s.answerData p c bs).types = s.types := by
  obtain ⟨a, e_⟩ := s.answerData_shape p c bs; rw [e_]
@[simp] theorem State.answerData_records (p : Port) (c : Conn) (bs : List Byte) : (s.answerData p c bs).records = s.records := by
  obtain ⟨a, e_⟩ := s.answerData_shape p c bs; rw [e_]
@[simp] theorem State.answerData_positioners (p : Port) (c : Conn) (bs : List Byte) : (s.answerData p c bs).positioners = s.positioners := by
  obtain ⟨a, e_⟩ := s.answerData_shape p c bs; rw [e_]
@[simp] theorem State.answerData_ops (p : Port) (c : Conn) (bs : List Byte) : (s.answerData p c bs).ops = s.ops := by
  obtain ⟨a, e_⟩ := s.answerData_shape p c bs; rw [e_]
@[simp] theorem State.answerData_finishing (p : Port) (c : Conn) (bs : List Byte) : (s.answerData p c bs).finishing = s.finishing := by
  obtain ⟨a, e_⟩ := s.answerData_shape p c bs; rw [e_]
@[simp] theorem State.answerData_paths (p : Port) (c : Conn) (bs : List Byte) : (s.answerData p c bs).paths = s.paths := by
  obtain ⟨a, e_⟩ := s.answerData_shape p c bs; rw [e_]
@[simp] theorem State.answerData_spareMap (p : Port) (c : Conn) (bs : List Byte) : (s.answerData p c bs).spareMap = s.spareMap := by
  obtain ⟨a, e_⟩ := s.answerData_shape p c bs; rw [e_]
@[simp] theorem State.answerData_suspects (p : Port) (c : Conn) (bs : List Byte) : (s.answerData p c bs).suspects = s.suspects := by
  obtain ⟨a, e_⟩ := s.answerData_shape p c bs; rw [e_]
@[simp] theorem State.answerData_lastAlt (p : Port) (c : Conn) (bs : List Byte) : (s.answerData p c bs).lastAlt = s.lastAlt := by
  obtain ⟨a, e_⟩ := s.answerData_shape p c bs; rw [e_]
@[simp] theorem State.answerData_queues (p : Port) (c : Conn) (bs : List Byte) : (s.answerData p c bs).queues = s.queues := by
  obtain ⟨a, e_⟩ := s.answerData_shape p c bs; rw [e_]
@[simp] theorem State.answerData_sharing (p : Port) (c : Conn) (bs : List Byte) : (s.answerData p c bs).sharing = s.sharing := by
  obtain ⟨a, e_⟩ := s.answerData_shape p c bs; rw [e_]
@[simp] theorem State.answerData_due (p : Port) (c : Conn) (bs : List Byte) : (s.answerData p c bs).due = s.due := by
  obtain ⟨a, e_⟩ := s.answerData_shape p c bs; rw [e_]
@[simp] theorem State.answerData_choices (p : Port) (c : Conn) (bs : List Byte) : (s.answerData p c bs).choices = s.choices := by
  obtain ⟨a, e_⟩ := s.answerData_shape p c bs; rw [e_]
@[simp] theorem State.answerData_pending (p : Port) (c : Conn) (bs : List Byte) : (s.answerData p c bs).pending = s.pending := by
  obtain ⟨a, e_⟩ := s.answerData_shape p c bs; rw [e_]
@[simp] theorem State.answerData_op (p : Port) (c : Conn) (bs : List Byte) (i : Drive) : (s.answerData p c bs).op i = s.op i := by
  obtain ⟨a, e_⟩ := s.answerData_shape p c bs; rw [e_]; rfl
@[simp] theorem State.answerData_pos (p : Port) (c : Conn) (bs : List Byte) (i : Drive) : (s.answerData p c bs).pos i = s.pos i := by
  obtain ⟨a, e_⟩ := s.answerData_shape p c bs; rw [e_]; rfl
@[simp] theorem State.answerData_share (p : Port) (c : Conn) (bs : List Byte) (i : Drive) : (s.answerData p c bs).share i = s.share i := by
  obtain ⟨a, e_⟩ := s.answerData_shape p c bs; rw [e_]; rfl
@[simp] theorem State.answerData_queue (p : Port) (c : Conn) (bs : List Byte) (i : Port) : (s.answerData p c bs).queue i = s.queue i := by
  obtain ⟨a, e_⟩ := s.answerData_shape p c bs; rw [e_]; rfl
@[simp] theorem State.answerData_record (p : Port) (c : Conn) (bs : List Byte) (i : Drive) : (s.answerData p c bs).record i = s.record i := by
  obtain ⟨a, e_⟩ := s.answerData_shape p c bs; rw [e_]; rfl
@[simp] theorem State.answerData_path (p : Port) (c : Conn) (bs : List Byte) (i : PathNo) : (s.answerData p c bs).path i = s.path i := by
  obtain ⟨a, e_⟩ := s.answerData_shape p c bs; rw [e_]; rfl
@[simp] theorem State.answerData_finish (p : Port) (c : Conn) (bs : List Byte) (i : Drive) : (s.answerData p c bs).finish i = s.finish i := by
  obtain ⟨a, e_⟩ := s.answerData_shape p c bs; rw [e_]; rfl
@[simp] theorem State.answerData_typeOf (p : Port) (c : Conn) (bs : List Byte) (i : Drive) : (s.answerData p c bs).typeOf i = s.typeOf i := by
  obtain ⟨a, e_⟩ := s.answerData_shape p c bs; rw [e_]; rfl

theorem State.dropOffer_shape (p : Port) :
    ∃ a, s.dropOffer p = { s with ports := a } := by
  exact ⟨_, rfl⟩

@[simp] theorem State.dropOffer_powered (p : Port) : (s.dropOffer p).powered = s.powered := by
  obtain ⟨a, e_⟩ := s.dropOffer_shape p; rw [e_]
@[simp] theorem State.dropOffer_now (p : Port) : (s.dropOffer p).now = s.now := by
  obtain ⟨a, e_⟩ := s.dropOffer_shape p; rw [e_]
@[simp] theorem State.dropOffer_types (p : Port) : (s.dropOffer p).types = s.types := by
  obtain ⟨a, e_⟩ := s.dropOffer_shape p; rw [e_]
@[simp] theorem State.dropOffer_records (p : Port) : (s.dropOffer p).records = s.records := by
  obtain ⟨a, e_⟩ := s.dropOffer_shape p; rw [e_]
@[simp] theorem State.dropOffer_positioners (p : Port) : (s.dropOffer p).positioners = s.positioners := by
  obtain ⟨a, e_⟩ := s.dropOffer_shape p; rw [e_]
@[simp] theorem State.dropOffer_ops (p : Port) : (s.dropOffer p).ops = s.ops := by
  obtain ⟨a, e_⟩ := s.dropOffer_shape p; rw [e_]
@[simp] theorem State.dropOffer_finishing (p : Port) : (s.dropOffer p).finishing = s.finishing := by
  obtain ⟨a, e_⟩ := s.dropOffer_shape p; rw [e_]
@[simp] theorem State.dropOffer_paths (p : Port) : (s.dropOffer p).paths = s.paths := by
  obtain ⟨a, e_⟩ := s.dropOffer_shape p; rw [e_]
@[simp] theorem State.dropOffer_spareMap (p : Port) : (s.dropOffer p).spareMap = s.spareMap := by
  obtain ⟨a, e_⟩ := s.dropOffer_shape p; rw [e_]
@[simp] theorem State.dropOffer_suspects (p : Port) : (s.dropOffer p).suspects = s.suspects := by
  obtain ⟨a, e_⟩ := s.dropOffer_shape p; rw [e_]
@[simp] theorem State.dropOffer_lastAlt (p : Port) : (s.dropOffer p).lastAlt = s.lastAlt := by
  obtain ⟨a, e_⟩ := s.dropOffer_shape p; rw [e_]
@[simp] theorem State.dropOffer_queues (p : Port) : (s.dropOffer p).queues = s.queues := by
  obtain ⟨a, e_⟩ := s.dropOffer_shape p; rw [e_]
@[simp] theorem State.dropOffer_sharing (p : Port) : (s.dropOffer p).sharing = s.sharing := by
  obtain ⟨a, e_⟩ := s.dropOffer_shape p; rw [e_]
@[simp] theorem State.dropOffer_due (p : Port) : (s.dropOffer p).due = s.due := by
  obtain ⟨a, e_⟩ := s.dropOffer_shape p; rw [e_]
@[simp] theorem State.dropOffer_choices (p : Port) : (s.dropOffer p).choices = s.choices := by
  obtain ⟨a, e_⟩ := s.dropOffer_shape p; rw [e_]
@[simp] theorem State.dropOffer_pending (p : Port) : (s.dropOffer p).pending = s.pending := by
  obtain ⟨a, e_⟩ := s.dropOffer_shape p; rw [e_]
@[simp] theorem State.dropOffer_op (p : Port) (i : Drive) : (s.dropOffer p).op i = s.op i := by
  obtain ⟨a, e_⟩ := s.dropOffer_shape p; rw [e_]; rfl
@[simp] theorem State.dropOffer_pos (p : Port) (i : Drive) : (s.dropOffer p).pos i = s.pos i := by
  obtain ⟨a, e_⟩ := s.dropOffer_shape p; rw [e_]; rfl
@[simp] theorem State.dropOffer_share (p : Port) (i : Drive) : (s.dropOffer p).share i = s.share i := by
  obtain ⟨a, e_⟩ := s.dropOffer_shape p; rw [e_]; rfl
@[simp] theorem State.dropOffer_queue (p : Port) (i : Port) : (s.dropOffer p).queue i = s.queue i := by
  obtain ⟨a, e_⟩ := s.dropOffer_shape p; rw [e_]; rfl
@[simp] theorem State.dropOffer_record (p : Port) (i : Drive) : (s.dropOffer p).record i = s.record i := by
  obtain ⟨a, e_⟩ := s.dropOffer_shape p; rw [e_]; rfl
@[simp] theorem State.dropOffer_path (p : Port) (i : PathNo) : (s.dropOffer p).path i = s.path i := by
  obtain ⟨a, e_⟩ := s.dropOffer_shape p; rw [e_]; rfl
@[simp] theorem State.dropOffer_finish (p : Port) (i : Drive) : (s.dropOffer p).finish i = s.finish i := by
  obtain ⟨a, e_⟩ := s.dropOffer_shape p; rw [e_]; rfl
@[simp] theorem State.dropOffer_typeOf (p : Port) (i : Drive) : (s.dropOffer p).typeOf i = s.typeOf i := by
  obtain ⟨a, e_⟩ := s.dropOffer_shape p; rw [e_]; rfl

theorem State.freePaths_shape (f : PathHold → Bool) :
    ∃ a, s.freePaths f = { s with paths := a } := by
  exact ⟨_, rfl⟩

@[simp] theorem State.freePaths_powered (f : PathHold → Bool) : (s.freePaths f).powered = s.powered := by
  obtain ⟨a, e_⟩ := s.freePaths_shape f; rw [e_]
@[simp] theorem State.freePaths_now (f : PathHold → Bool) : (s.freePaths f).now = s.now := by
  obtain ⟨a, e_⟩ := s.freePaths_shape f; rw [e_]
@[simp] theorem State.freePaths_types (f : PathHold → Bool) : (s.freePaths f).types = s.types := by
  obtain ⟨a, e_⟩ := s.freePaths_shape f; rw [e_]
@[simp] theorem State.freePaths_records (f : PathHold → Bool) : (s.freePaths f).records = s.records := by
  obtain ⟨a, e_⟩ := s.freePaths_shape f; rw [e_]
@[simp] theorem State.freePaths_positioners (f : PathHold → Bool) : (s.freePaths f).positioners = s.positioners := by
  obtain ⟨a, e_⟩ := s.freePaths_shape f; rw [e_]
@[simp] theorem State.freePaths_ops (f : PathHold → Bool) : (s.freePaths f).ops = s.ops := by
  obtain ⟨a, e_⟩ := s.freePaths_shape f; rw [e_]
@[simp] theorem State.freePaths_finishing (f : PathHold → Bool) : (s.freePaths f).finishing = s.finishing := by
  obtain ⟨a, e_⟩ := s.freePaths_shape f; rw [e_]
@[simp] theorem State.freePaths_spareMap (f : PathHold → Bool) : (s.freePaths f).spareMap = s.spareMap := by
  obtain ⟨a, e_⟩ := s.freePaths_shape f; rw [e_]
@[simp] theorem State.freePaths_suspects (f : PathHold → Bool) : (s.freePaths f).suspects = s.suspects := by
  obtain ⟨a, e_⟩ := s.freePaths_shape f; rw [e_]
@[simp] theorem State.freePaths_lastAlt (f : PathHold → Bool) : (s.freePaths f).lastAlt = s.lastAlt := by
  obtain ⟨a, e_⟩ := s.freePaths_shape f; rw [e_]
@[simp] theorem State.freePaths_ports (f : PathHold → Bool) : (s.freePaths f).ports = s.ports := by
  obtain ⟨a, e_⟩ := s.freePaths_shape f; rw [e_]
@[simp] theorem State.freePaths_queues (f : PathHold → Bool) : (s.freePaths f).queues = s.queues := by
  obtain ⟨a, e_⟩ := s.freePaths_shape f; rw [e_]
@[simp] theorem State.freePaths_sharing (f : PathHold → Bool) : (s.freePaths f).sharing = s.sharing := by
  obtain ⟨a, e_⟩ := s.freePaths_shape f; rw [e_]
@[simp] theorem State.freePaths_due (f : PathHold → Bool) : (s.freePaths f).due = s.due := by
  obtain ⟨a, e_⟩ := s.freePaths_shape f; rw [e_]
@[simp] theorem State.freePaths_choices (f : PathHold → Bool) : (s.freePaths f).choices = s.choices := by
  obtain ⟨a, e_⟩ := s.freePaths_shape f; rw [e_]
@[simp] theorem State.freePaths_pending (f : PathHold → Bool) : (s.freePaths f).pending = s.pending := by
  obtain ⟨a, e_⟩ := s.freePaths_shape f; rw [e_]
@[simp] theorem State.freePaths_port (f : PathHold → Bool) (i : Port) : (s.freePaths f).port i = s.port i := by
  obtain ⟨a, e_⟩ := s.freePaths_shape f; rw [e_]; rfl
@[simp] theorem State.freePaths_op (f : PathHold → Bool) (i : Drive) : (s.freePaths f).op i = s.op i := by
  obtain ⟨a, e_⟩ := s.freePaths_shape f; rw [e_]; rfl
@[simp] theorem State.freePaths_pos (f : PathHold → Bool) (i : Drive) : (s.freePaths f).pos i = s.pos i := by
  obtain ⟨a, e_⟩ := s.freePaths_shape f; rw [e_]; rfl
@[simp] theorem State.freePaths_share (f : PathHold → Bool) (i : Drive) : (s.freePaths f).share i = s.share i := by
  obtain ⟨a, e_⟩ := s.freePaths_shape f; rw [e_]; rfl
@[simp] theorem State.freePaths_queue (f : PathHold → Bool) (i : Port) : (s.freePaths f).queue i = s.queue i := by
  obtain ⟨a, e_⟩ := s.freePaths_shape f; rw [e_]; rfl
@[simp] theorem State.freePaths_record (f : PathHold → Bool) (i : Drive) : (s.freePaths f).record i = s.record i := by
  obtain ⟨a, e_⟩ := s.freePaths_shape f; rw [e_]; rfl
@[simp] theorem State.freePaths_finish (f : PathHold → Bool) (i : Drive) : (s.freePaths f).finish i = s.finish i := by
  obtain ⟨a, e_⟩ := s.freePaths_shape f; rw [e_]; rfl
@[simp] theorem State.freePaths_typeOf (f : PathHold → Bool) (i : Drive) : (s.freePaths f).typeOf i = s.typeOf i := by
  obtain ⟨a, e_⟩ := s.freePaths_shape f; rw [e_]; rfl

theorem State.freePathOfPort_shape (p : Port) :
    ∃ a, s.freePathOfPort p = { s with paths := a } := by
  exact ⟨_, rfl⟩

@[simp] theorem State.freePathOfPort_powered (p : Port) : (s.freePathOfPort p).powered = s.powered := by
  obtain ⟨a, e_⟩ := s.freePathOfPort_shape p; rw [e_]
@[simp] theorem State.freePathOfPort_now (p : Port) : (s.freePathOfPort p).now = s.now := by
  obtain ⟨a, e_⟩ := s.freePathOfPort_shape p; rw [e_]
@[simp] theorem State.freePathOfPort_types (p : Port) : (s.freePathOfPort p).types = s.types := by
  obtain ⟨a, e_⟩ := s.freePathOfPort_shape p; rw [e_]
@[simp] theorem State.freePathOfPort_records (p : Port) : (s.freePathOfPort p).records = s.records := by
  obtain ⟨a, e_⟩ := s.freePathOfPort_shape p; rw [e_]
@[simp] theorem State.freePathOfPort_positioners (p : Port) : (s.freePathOfPort p).positioners = s.positioners := by
  obtain ⟨a, e_⟩ := s.freePathOfPort_shape p; rw [e_]
@[simp] theorem State.freePathOfPort_ops (p : Port) : (s.freePathOfPort p).ops = s.ops := by
  obtain ⟨a, e_⟩ := s.freePathOfPort_shape p; rw [e_]
@[simp] theorem State.freePathOfPort_finishing (p : Port) : (s.freePathOfPort p).finishing = s.finishing := by
  obtain ⟨a, e_⟩ := s.freePathOfPort_shape p; rw [e_]
@[simp] theorem State.freePathOfPort_spareMap (p : Port) : (s.freePathOfPort p).spareMap = s.spareMap := by
  obtain ⟨a, e_⟩ := s.freePathOfPort_shape p; rw [e_]
@[simp] theorem State.freePathOfPort_suspects (p : Port) : (s.freePathOfPort p).suspects = s.suspects := by
  obtain ⟨a, e_⟩ := s.freePathOfPort_shape p; rw [e_]
@[simp] theorem State.freePathOfPort_lastAlt (p : Port) : (s.freePathOfPort p).lastAlt = s.lastAlt := by
  obtain ⟨a, e_⟩ := s.freePathOfPort_shape p; rw [e_]
@[simp] theorem State.freePathOfPort_ports (p : Port) : (s.freePathOfPort p).ports = s.ports := by
  obtain ⟨a, e_⟩ := s.freePathOfPort_shape p; rw [e_]
@[simp] theorem State.freePathOfPort_queues (p : Port) : (s.freePathOfPort p).queues = s.queues := by
  obtain ⟨a, e_⟩ := s.freePathOfPort_shape p; rw [e_]
@[simp] theorem State.freePathOfPort_sharing (p : Port) : (s.freePathOfPort p).sharing = s.sharing := by
  obtain ⟨a, e_⟩ := s.freePathOfPort_shape p; rw [e_]
@[simp] theorem State.freePathOfPort_due (p : Port) : (s.freePathOfPort p).due = s.due := by
  obtain ⟨a, e_⟩ := s.freePathOfPort_shape p; rw [e_]
@[simp] theorem State.freePathOfPort_choices (p : Port) : (s.freePathOfPort p).choices = s.choices := by
  obtain ⟨a, e_⟩ := s.freePathOfPort_shape p; rw [e_]
@[simp] theorem State.freePathOfPort_pending (p : Port) : (s.freePathOfPort p).pending = s.pending := by
  obtain ⟨a, e_⟩ := s.freePathOfPort_shape p; rw [e_]
@[simp] theorem State.freePathOfPort_port (p : Port) (i : Port) : (s.freePathOfPort p).port i = s.port i := by
  obtain ⟨a, e_⟩ := s.freePathOfPort_shape p; rw [e_]; rfl
@[simp] theorem State.freePathOfPort_op (p : Port) (i : Drive) : (s.freePathOfPort p).op i = s.op i := by
  obtain ⟨a, e_⟩ := s.freePathOfPort_shape p; rw [e_]; rfl
@[simp] theorem State.freePathOfPort_pos (p : Port) (i : Drive) : (s.freePathOfPort p).pos i = s.pos i := by
  obtain ⟨a, e_⟩ := s.freePathOfPort_shape p; rw [e_]; rfl
@[simp] theorem State.freePathOfPort_share (p : Port) (i : Drive) : (s.freePathOfPort p).share i = s.share i := by
  obtain ⟨a, e_⟩ := s.freePathOfPort_shape p; rw [e_]; rfl
@[simp] theorem State.freePathOfPort_queue (p : Port) (i : Port) : (s.freePathOfPort p).queue i = s.queue i := by
  obtain ⟨a, e_⟩ := s.freePathOfPort_shape p; rw [e_]; rfl
@[simp] theorem State.freePathOfPort_record (p : Port) (i : Drive) : (s.freePathOfPort p).record i = s.record i := by
  obtain ⟨a, e_⟩ := s.freePathOfPort_shape p; rw [e_]; rfl
@[simp] theorem State.freePathOfPort_finish (p : Port) (i : Drive) : (s.freePathOfPort p).finish i = s.finish i := by
  obtain ⟨a, e_⟩ := s.freePathOfPort_shape p; rw [e_]; rfl
@[simp] theorem State.freePathOfPort_typeOf (p : Port) (i : Drive) : (s.freePathOfPort p).typeOf i = s.typeOf i := by
  obtain ⟨a, e_⟩ := s.freePathOfPort_shape p; rw [e_]; rfl

theorem State.freeInternalPath_shape (d : Drive) :
    ∃ a, s.freeInternalPath d = { s with paths := a } := by
  exact ⟨_, rfl⟩

@[simp] theorem State.freeInternalPath_powered (d : Drive) : (s.freeInternalPath d).powered = s.powered := by
  obtain ⟨a, e_⟩ := s.freeInternalPath_shape d; rw [e_]
@[simp] theorem State.freeInternalPath_now (d : Drive) : (s.freeInternalPath d).now = s.now := by
  obtain ⟨a, e_⟩ := s.freeInternalPath_shape d; rw [e_]
@[simp] theorem State.freeInternalPath_types (d : Drive) : (s.freeInternalPath d).types = s.types := by
  obtain ⟨a, e_⟩ := s.freeInternalPath_shape d; rw [e_]
@[simp] theorem State.freeInternalPath_records (d : Drive) : (s.freeInternalPath d).records = s.records := by
  obtain ⟨a, e_⟩ := s.freeInternalPath_shape d; rw [e_]
@[simp] theorem State.freeInternalPath_positioners (d : Drive) : (s.freeInternalPath d).positioners = s.positioners := by
  obtain ⟨a, e_⟩ := s.freeInternalPath_shape d; rw [e_]
@[simp] theorem State.freeInternalPath_ops (d : Drive) : (s.freeInternalPath d).ops = s.ops := by
  obtain ⟨a, e_⟩ := s.freeInternalPath_shape d; rw [e_]
@[simp] theorem State.freeInternalPath_finishing (d : Drive) : (s.freeInternalPath d).finishing = s.finishing := by
  obtain ⟨a, e_⟩ := s.freeInternalPath_shape d; rw [e_]
@[simp] theorem State.freeInternalPath_spareMap (d : Drive) : (s.freeInternalPath d).spareMap = s.spareMap := by
  obtain ⟨a, e_⟩ := s.freeInternalPath_shape d; rw [e_]
@[simp] theorem State.freeInternalPath_suspects (d : Drive) : (s.freeInternalPath d).suspects = s.suspects := by
  obtain ⟨a, e_⟩ := s.freeInternalPath_shape d; rw [e_]
@[simp] theorem State.freeInternalPath_lastAlt (d : Drive) : (s.freeInternalPath d).lastAlt = s.lastAlt := by
  obtain ⟨a, e_⟩ := s.freeInternalPath_shape d; rw [e_]
@[simp] theorem State.freeInternalPath_ports (d : Drive) : (s.freeInternalPath d).ports = s.ports := by
  obtain ⟨a, e_⟩ := s.freeInternalPath_shape d; rw [e_]
@[simp] theorem State.freeInternalPath_queues (d : Drive) : (s.freeInternalPath d).queues = s.queues := by
  obtain ⟨a, e_⟩ := s.freeInternalPath_shape d; rw [e_]
@[simp] theorem State.freeInternalPath_sharing (d : Drive) : (s.freeInternalPath d).sharing = s.sharing := by
  obtain ⟨a, e_⟩ := s.freeInternalPath_shape d; rw [e_]
@[simp] theorem State.freeInternalPath_due (d : Drive) : (s.freeInternalPath d).due = s.due := by
  obtain ⟨a, e_⟩ := s.freeInternalPath_shape d; rw [e_]
@[simp] theorem State.freeInternalPath_choices (d : Drive) : (s.freeInternalPath d).choices = s.choices := by
  obtain ⟨a, e_⟩ := s.freeInternalPath_shape d; rw [e_]
@[simp] theorem State.freeInternalPath_pending (d : Drive) : (s.freeInternalPath d).pending = s.pending := by
  obtain ⟨a, e_⟩ := s.freeInternalPath_shape d; rw [e_]
@[simp] theorem State.freeInternalPath_port (d : Drive) (i : Port) : (s.freeInternalPath d).port i = s.port i := by
  obtain ⟨a, e_⟩ := s.freeInternalPath_shape d; rw [e_]; rfl
@[simp] theorem State.freeInternalPath_op (d : Drive) (i : Drive) : (s.freeInternalPath d).op i = s.op i := by
  obtain ⟨a, e_⟩ := s.freeInternalPath_shape d; rw [e_]; rfl
@[simp] theorem State.freeInternalPath_pos (d : Drive) (i : Drive) : (s.freeInternalPath d).pos i = s.pos i := by
  obtain ⟨a, e_⟩ := s.freeInternalPath_shape d; rw [e_]; rfl
@[simp] theorem State.freeInternalPath_share (d : Drive) (i : Drive) : (s.freeInternalPath d).share i = s.share i := by
  obtain ⟨a, e_⟩ := s.freeInternalPath_shape d; rw [e_]; rfl
@[simp] theorem State.freeInternalPath_queue (d : Drive) (i : Port) : (s.freeInternalPath d).queue i = s.queue i := by
  obtain ⟨a, e_⟩ := s.freeInternalPath_shape d; rw [e_]; rfl
@[simp] theorem State.freeInternalPath_record (d : Drive) (i : Drive) : (s.freeInternalPath d).record i = s.record i := by
  obtain ⟨a, e_⟩ := s.freeInternalPath_shape d; rw [e_]; rfl
@[simp] theorem State.freeInternalPath_finish (d : Drive) (i : Drive) : (s.freeInternalPath d).finish i = s.finish i := by
  obtain ⟨a, e_⟩ := s.freeInternalPath_shape d; rw [e_]; rfl
@[simp] theorem State.freeInternalPath_typeOf (d : Drive) (i : Drive) : (s.freeInternalPath d).typeOf i = s.typeOf i := by
  obtain ⟨a, e_⟩ := s.freeInternalPath_shape d; rw [e_]; rfl

theorem State.forgetDeferral_shape (p : Port) :
    ∃ a, s.forgetDeferral p = { s with ops := a } := by
  refine foldl_ind (P := fun t => ∃ a, t = { s with ops := a }) _ _ s ⟨_, rfl⟩ fun u d h => ?_
  obtain ⟨a, rfl⟩ := h
  exact ⟨_, rfl⟩

@[simp] theorem State.forgetDeferral_powered (p : Port) : (s.forgetDeferral p).powered = s.powered := by
  obtain ⟨a, e_⟩ := s.forgetDeferral_shape p; rw [e_]
@[simp] theorem State.forgetDeferral_now (p : Port) : (s.forgetDeferral p).now = s.now := by
  obtain ⟨a, e_⟩ := s.forgetDeferral_shape p; rw [e_]
@[simp] theorem State.forgetDeferral_types (p : Port) : (s.forgetDeferral p).types = s.types := by
  obtain ⟨a, e_⟩ := s.forgetDeferral_shape p; rw [e_]
@[simp] theorem State.forgetDeferral_records (p : Port) : (s.forgetDeferral p).records = s.records := by
  obtain ⟨a, e_⟩ := s.forgetDeferral_shape p; rw [e_]
@[simp] theorem State.forgetDeferral_positioners (p : Port) : (s.forgetDeferral p).positioners = s.positioners := by
  obtain ⟨a, e_⟩ := s.forgetDeferral_shape p; rw [e_]
@[simp] theorem State.forgetDeferral_finishing (p : Port) : (s.forgetDeferral p).finishing = s.finishing := by
  obtain ⟨a, e_⟩ := s.forgetDeferral_shape p; rw [e_]
@[simp] theorem State.forgetDeferral_paths (p : Port) : (s.forgetDeferral p).paths = s.paths := by
  obtain ⟨a, e_⟩ := s.forgetDeferral_shape p; rw [e_]
@[simp] theorem State.forgetDeferral_spareMap (p : Port) : (s.forgetDeferral p).spareMap = s.spareMap := by
  obtain ⟨a, e_⟩ := s.forgetDeferral_shape p; rw [e_]
@[simp] theorem State.forgetDeferral_suspects (p : Port) : (s.forgetDeferral p).suspects = s.suspects := by
  obtain ⟨a, e_⟩ := s.forgetDeferral_shape p; rw [e_]
@[simp] theorem State.forgetDeferral_lastAlt (p : Port) : (s.forgetDeferral p).lastAlt = s.lastAlt := by
  obtain ⟨a, e_⟩ := s.forgetDeferral_shape p; rw [e_]
@[simp] theorem State.forgetDeferral_ports (p : Port) : (s.forgetDeferral p).ports = s.ports := by
  obtain ⟨a, e_⟩ := s.forgetDeferral_shape p; rw [e_]
@[simp] theorem State.forgetDeferral_queues (p : Port) : (s.forgetDeferral p).queues = s.queues := by
  obtain ⟨a, e_⟩ := s.forgetDeferral_shape p; rw [e_]
@[simp] theorem State.forgetDeferral_sharing (p : Port) : (s.forgetDeferral p).sharing = s.sharing := by
  obtain ⟨a, e_⟩ := s.forgetDeferral_shape p; rw [e_]
@[simp] theorem State.forgetDeferral_due (p : Port) : (s.forgetDeferral p).due = s.due := by
  obtain ⟨a, e_⟩ := s.forgetDeferral_shape p; rw [e_]
@[simp] theorem State.forgetDeferral_choices (p : Port) : (s.forgetDeferral p).choices = s.choices := by
  obtain ⟨a, e_⟩ := s.forgetDeferral_shape p; rw [e_]
@[simp] theorem State.forgetDeferral_pending (p : Port) : (s.forgetDeferral p).pending = s.pending := by
  obtain ⟨a, e_⟩ := s.forgetDeferral_shape p; rw [e_]
@[simp] theorem State.forgetDeferral_port (p : Port) (i : Port) : (s.forgetDeferral p).port i = s.port i := by
  obtain ⟨a, e_⟩ := s.forgetDeferral_shape p; rw [e_]; rfl
@[simp] theorem State.forgetDeferral_pos (p : Port) (i : Drive) : (s.forgetDeferral p).pos i = s.pos i := by
  obtain ⟨a, e_⟩ := s.forgetDeferral_shape p; rw [e_]; rfl
@[simp] theorem State.forgetDeferral_share (p : Port) (i : Drive) : (s.forgetDeferral p).share i = s.share i := by
  obtain ⟨a, e_⟩ := s.forgetDeferral_shape p; rw [e_]; rfl
@[simp] theorem State.forgetDeferral_queue (p : Port) (i : Port) : (s.forgetDeferral p).queue i = s.queue i := by
  obtain ⟨a, e_⟩ := s.forgetDeferral_shape p; rw [e_]; rfl
@[simp] theorem State.forgetDeferral_record (p : Port) (i : Drive) : (s.forgetDeferral p).record i = s.record i := by
  obtain ⟨a, e_⟩ := s.forgetDeferral_shape p; rw [e_]; rfl
@[simp] theorem State.forgetDeferral_path (p : Port) (i : PathNo) : (s.forgetDeferral p).path i = s.path i := by
  obtain ⟨a, e_⟩ := s.forgetDeferral_shape p; rw [e_]; rfl
@[simp] theorem State.forgetDeferral_finish (p : Port) (i : Drive) : (s.forgetDeferral p).finish i = s.finish i := by
  obtain ⟨a, e_⟩ := s.forgetDeferral_shape p; rw [e_]; rfl
@[simp] theorem State.forgetDeferral_typeOf (p : Port) (i : Drive) : (s.forgetDeferral p).typeOf i = s.typeOf i := by
  obtain ⟨a, e_⟩ := s.forgetDeferral_shape p; rw [e_]; rfl

theorem State.endConnection_shape (p : Port) :
    ∃ a b c g, s.endConnection p = { s with ports := a, paths := b, queues := c, ops := g } := by
  obtain ⟨a, e⟩ := State.forgetDeferral_shape ((((s.modPort p fun r => r.disconnected .idle).freePathOfPort p)).setQueue p
    { (((s.modPort p fun r => r.disconnected .idle).freePathOfPort p)).queue p with held := false }) p
  exact ⟨_, _, _, _, e⟩

@[simp] theorem State.endConnection_powered (p : Port) : (s.endConnection p).powered = s.powered := by
  obtain ⟨a, b, c, g, e_⟩ := s.endConnection_shape p; rw [e_]
@[simp] theorem State.endConnection_now (p : Port) : (s.endConnection p).now = s.now := by
  obtain ⟨a, b, c, g, e_⟩ := s.endConnection_shape p; rw [e_]
@[simp] theorem State.endConnection_types (p : Port) : (s.endConnection p).types = s.types := by
  obtain ⟨a, b, c, g, e_⟩ := s.endConnection_shape p; rw [e_]
@[simp] theorem State.endConnection_records (p : Port) : (s.endConnection p).records = s.records := by
  obtain ⟨a, b, c, g, e_⟩ := s.endConnection_shape p; rw [e_]
@[simp] theorem State.endConnection_positioners (p : Port) : (s.endConnection p).positioners = s.positioners := by
  obtain ⟨a, b, c, g, e_⟩ := s.endConnection_shape p; rw [e_]
@[simp] theorem State.endConnection_finishing (p : Port) : (s.endConnection p).finishing = s.finishing := by
  obtain ⟨a, b, c, g, e_⟩ := s.endConnection_shape p; rw [e_]
@[simp] theorem State.endConnection_spareMap (p : Port) : (s.endConnection p).spareMap = s.spareMap := by
  obtain ⟨a, b, c, g, e_⟩ := s.endConnection_shape p; rw [e_]
@[simp] theorem State.endConnection_suspects (p : Port) : (s.endConnection p).suspects = s.suspects := by
  obtain ⟨a, b, c, g, e_⟩ := s.endConnection_shape p; rw [e_]
@[simp] theorem State.endConnection_lastAlt (p : Port) : (s.endConnection p).lastAlt = s.lastAlt := by
  obtain ⟨a, b, c, g, e_⟩ := s.endConnection_shape p; rw [e_]
@[simp] theorem State.endConnection_sharing (p : Port) : (s.endConnection p).sharing = s.sharing := by
  obtain ⟨a, b, c, g, e_⟩ := s.endConnection_shape p; rw [e_]
@[simp] theorem State.endConnection_due (p : Port) : (s.endConnection p).due = s.due := by
  obtain ⟨a, b, c, g, e_⟩ := s.endConnection_shape p; rw [e_]
@[simp] theorem State.endConnection_choices (p : Port) : (s.endConnection p).choices = s.choices := by
  obtain ⟨a, b, c, g, e_⟩ := s.endConnection_shape p; rw [e_]
@[simp] theorem State.endConnection_pending (p : Port) : (s.endConnection p).pending = s.pending := by
  obtain ⟨a, b, c, g, e_⟩ := s.endConnection_shape p; rw [e_]
@[simp] theorem State.endConnection_pos (p : Port) (i : Drive) : (s.endConnection p).pos i = s.pos i := by
  obtain ⟨a, b, c, g, e_⟩ := s.endConnection_shape p; rw [e_]; rfl
@[simp] theorem State.endConnection_share (p : Port) (i : Drive) : (s.endConnection p).share i = s.share i := by
  obtain ⟨a, b, c, g, e_⟩ := s.endConnection_shape p; rw [e_]; rfl
@[simp] theorem State.endConnection_record (p : Port) (i : Drive) : (s.endConnection p).record i = s.record i := by
  obtain ⟨a, b, c, g, e_⟩ := s.endConnection_shape p; rw [e_]; rfl
@[simp] theorem State.endConnection_finish (p : Port) (i : Drive) : (s.endConnection p).finish i = s.finish i := by
  obtain ⟨a, b, c, g, e_⟩ := s.endConnection_shape p; rw [e_]; rfl
@[simp] theorem State.endConnection_typeOf (p : Port) (i : Drive) : (s.endConnection p).typeOf i = s.typeOf i := by
  obtain ⟨a, b, c, g, e_⟩ := s.endConnection_shape p; rw [e_]; rfl

theorem State.withdrawOffersOf_shape (d : Drive) :
    ∃ a b, s.withdrawOffersOf d = { s with ports := a, paths := b } := by
  refine foldl_ind (P := fun t => ∃ a b, t = { s with ports := a, paths := b }) _ _ s ⟨_, _, rfl⟩ fun u p h => ?_
  obtain ⟨a, b, rfl⟩ := h
  split
  · split
    · exact ⟨_, _, rfl⟩
    · exact ⟨_, _, rfl⟩
  · exact ⟨_, _, rfl⟩

@[simp] theorem State.withdrawOffersOf_powered (d : Drive) : (s.withdrawOffersOf d).powered = s.powered := by
  obtain ⟨a, b, e_⟩ := s.withdrawOffersOf_shape d; rw [e_]
@[simp] theorem State.withdrawOffersOf_now (d : Drive) : (s.withdrawOffersOf d).now = s.now := by
  obtain ⟨a, b, e_⟩ := s.withdrawOffersOf_shape d; rw [e_]
@[simp] theorem State.withdrawOffersOf_types (d : Drive) : (s.withdrawOffersOf d).types = s.types := by
  obtain ⟨a, b, e_⟩ := s.withdrawOffersOf_shape d; rw [e_]
@[simp] theorem State.withdrawOffersOf_records (d : Drive) : (s.withdrawOffersOf d).records = s.records := by
  obtain ⟨a, b, e_⟩ := s.withdrawOffersOf_shape d; rw [e_]
@[simp] theorem State.withdrawOffersOf_positioners (d : Drive) : (s.withdrawOffersOf d).positioners = s.positioners := by
  obtain ⟨a, b, e_⟩ := s.withdrawOffersOf_shape d; rw [e_]
@[simp] theorem State.withdrawOffersOf_ops (d : Drive) : (s.withdrawOffersOf d).ops = s.ops := by
  obtain ⟨a, b, e_⟩ := s.withdrawOffersOf_shape d; rw [e_]
@[simp] theorem State.withdrawOffersOf_finishing (d : Drive) : (s.withdrawOffersOf d).finishing = s.finishing := by
  obtain ⟨a, b, e_⟩ := s.withdrawOffersOf_shape d; rw [e_]
@[simp] theorem State.withdrawOffersOf_spareMap (d : Drive) : (s.withdrawOffersOf d).spareMap = s.spareMap := by
  obtain ⟨a, b, e_⟩ := s.withdrawOffersOf_shape d; rw [e_]
@[simp] theorem State.withdrawOffersOf_suspects (d : Drive) : (s.withdrawOffersOf d).suspects = s.suspects := by
  obtain ⟨a, b, e_⟩ := s.withdrawOffersOf_shape d; rw [e_]
@[simp] theorem State.withdrawOffersOf_lastAlt (d : Drive) : (s.withdrawOffersOf d).lastAlt = s.lastAlt := by
  obtain ⟨a, b, e_⟩ := s.withdrawOffersOf_shape d; rw [e_]
@[simp] theorem State.withdrawOffersOf_queues (d : Drive) : (s.withdrawOffersOf d).queues = s.queues := by
  obtain ⟨a, b, e_⟩ := s.withdrawOffersOf_shape d; rw [e_]
@[simp] theorem State.withdrawOffersOf_sharing (d : Drive) : (s.withdrawOffersOf d).sharing = s.sharing := by
  obtain ⟨a, b, e_⟩ := s.withdrawOffersOf_shape d; rw [e_]
@[simp] theorem State.withdrawOffersOf_due (d : Drive) : (s.withdrawOffersOf d).due = s.due := by
  obtain ⟨a, b, e_⟩ := s.withdrawOffersOf_shape d; rw [e_]
@[simp] theorem State.withdrawOffersOf_choices (d : Drive) : (s.withdrawOffersOf d).choices = s.choices := by
  obtain ⟨a, b, e_⟩ := s.withdrawOffersOf_shape d; rw [e_]
@[simp] theorem State.withdrawOffersOf_pending (d : Drive) : (s.withdrawOffersOf d).pending = s.pending := by
  obtain ⟨a, b, e_⟩ := s.withdrawOffersOf_shape d; rw [e_]
@[simp] theorem State.withdrawOffersOf_op (d : Drive) (i : Drive) : (s.withdrawOffersOf d).op i = s.op i := by
  obtain ⟨a, b, e_⟩ := s.withdrawOffersOf_shape d; rw [e_]; rfl
@[simp] theorem State.withdrawOffersOf_pos (d : Drive) (i : Drive) : (s.withdrawOffersOf d).pos i = s.pos i := by
  obtain ⟨a, b, e_⟩ := s.withdrawOffersOf_shape d; rw [e_]; rfl
@[simp] theorem State.withdrawOffersOf_share (d : Drive) (i : Drive) : (s.withdrawOffersOf d).share i = s.share i := by
  obtain ⟨a, b, e_⟩ := s.withdrawOffersOf_shape d; rw [e_]; rfl
@[simp] theorem State.withdrawOffersOf_queue (d : Drive) (i : Port) : (s.withdrawOffersOf d).queue i = s.queue i := by
  obtain ⟨a, b, e_⟩ := s.withdrawOffersOf_shape d; rw [e_]; rfl
@[simp] theorem State.withdrawOffersOf_record (d : Drive) (i : Drive) : (s.withdrawOffersOf d).record i = s.record i := by
  obtain ⟨a, b, e_⟩ := s.withdrawOffersOf_shape d; rw [e_]; rfl
@[simp] theorem State.withdrawOffersOf_finish (d : Drive) (i : Drive) : (s.withdrawOffersOf d).finish i = s.finish i := by
  obtain ⟨a, b, e_⟩ := s.withdrawOffersOf_shape d; rw [e_]; rfl
@[simp] theorem State.withdrawOffersOf_typeOf (d : Drive) (i : Drive) : (s.withdrawOffersOf d).typeOf i = s.typeOf i := by
  obtain ⟨a, b, e_⟩ := s.withdrawOffersOf_shape d; rw [e_]; rfl

theorem State.answerWaiting_shape (d : Drive) :
    ∃ a, s.answerWaiting d = { s with ports := a } := by
  refine foldl_ind (P := fun t => ∃ a, t = { s with ports := a }) _ _ s ⟨_, rfl⟩ fun u p h => ?_
  obtain ⟨a, rfl⟩ := h
  dsimp only
  split
  · exact ⟨_, rfl⟩
  · exact ⟨_, rfl⟩

@[simp] theorem State.answerWaiting_powered (d : Drive) : (s.answerWaiting d).powered = s.powered := by
  obtain ⟨a, e_⟩ := s.answerWaiting_shape d; rw [e_]
@[simp] theorem State.answerWaiting_now (d : Drive) : (s.answerWaiting d).now = s.now := by
  obtain ⟨a, e_⟩ := s.answerWaiting_shape d; rw [e_]
@[simp] theorem State.answerWaiting_types (d : Drive) : (s.answerWaiting d).types = s.types := by
  obtain ⟨a, e_⟩ := s.answerWaiting_shape d; rw [e_]
@[simp] theorem State.answerWaiting_records (d : Drive) : (s.answerWaiting d).records = s.records := by
  obtain ⟨a, e_⟩ := s.answerWaiting_shape d; rw [e_]
@[simp] theorem State.answerWaiting_positioners (d : Drive) : (s.answerWaiting d).positioners = s.positioners := by
  obtain ⟨a, e_⟩ := s.answerWaiting_shape d; rw [e_]
@[simp] theorem State.answerWaiting_ops (d : Drive) : (s.answerWaiting d).ops = s.ops := by
  obtain ⟨a, e_⟩ := s.answerWaiting_shape d; rw [e_]
@[simp] theorem State.answerWaiting_finishing (d : Drive) : (s.answerWaiting d).finishing = s.finishing := by
  obtain ⟨a, e_⟩ := s.answerWaiting_shape d; rw [e_]
@[simp] theorem State.answerWaiting_paths (d : Drive) : (s.answerWaiting d).paths = s.paths := by
  obtain ⟨a, e_⟩ := s.answerWaiting_shape d; rw [e_]
@[simp] theorem State.answerWaiting_spareMap (d : Drive) : (s.answerWaiting d).spareMap = s.spareMap := by
  obtain ⟨a, e_⟩ := s.answerWaiting_shape d; rw [e_]
@[simp] theorem State.answerWaiting_suspects (d : Drive) : (s.answerWaiting d).suspects = s.suspects := by
  obtain ⟨a, e_⟩ := s.answerWaiting_shape d; rw [e_]
@[simp] theorem State.answerWaiting_lastAlt (d : Drive) : (s.answerWaiting d).lastAlt = s.lastAlt := by
  obtain ⟨a, e_⟩ := s.answerWaiting_shape d; rw [e_]
@[simp] theorem State.answerWaiting_queues (d : Drive) : (s.answerWaiting d).queues = s.queues := by
  obtain ⟨a, e_⟩ := s.answerWaiting_shape d; rw [e_]
@[simp] theorem State.answerWaiting_sharing (d : Drive) : (s.answerWaiting d).sharing = s.sharing := by
  obtain ⟨a, e_⟩ := s.answerWaiting_shape d; rw [e_]
@[simp] theorem State.answerWaiting_due (d : Drive) : (s.answerWaiting d).due = s.due := by
  obtain ⟨a, e_⟩ := s.answerWaiting_shape d; rw [e_]
@[simp] theorem State.answerWaiting_choices (d : Drive) : (s.answerWaiting d).choices = s.choices := by
  obtain ⟨a, e_⟩ := s.answerWaiting_shape d; rw [e_]
@[simp] theorem State.answerWaiting_pending (d : Drive) : (s.answerWaiting d).pending = s.pending := by
  obtain ⟨a, e_⟩ := s.answerWaiting_shape d; rw [e_]
@[simp] theorem State.answerWaiting_op (d : Drive) (i : Drive) : (s.answerWaiting d).op i = s.op i := by
  obtain ⟨a, e_⟩ := s.answerWaiting_shape d; rw [e_]; rfl
@[simp] theorem State.answerWaiting_pos (d : Drive) (i : Drive) : (s.answerWaiting d).pos i = s.pos i := by
  obtain ⟨a, e_⟩ := s.answerWaiting_shape d; rw [e_]; rfl
@[simp] theorem State.answerWaiting_share (d : Drive) (i : Drive) : (s.answerWaiting d).share i = s.share i := by
  obtain ⟨a, e_⟩ := s.answerWaiting_shape d; rw [e_]; rfl
@[simp] theorem State.answerWaiting_queue (d : Drive) (i : Port) : (s.answerWaiting d).queue i = s.queue i := by
  obtain ⟨a, e_⟩ := s.answerWaiting_shape d; rw [e_]; rfl
@[simp] theorem State.answerWaiting_record (d : Drive) (i : Drive) : (s.answerWaiting d).record i = s.record i := by
  obtain ⟨a, e_⟩ := s.answerWaiting_shape d; rw [e_]; rfl
@[simp] theorem State.answerWaiting_path (d : Drive) (i : PathNo) : (s.answerWaiting d).path i = s.path i := by
  obtain ⟨a, e_⟩ := s.answerWaiting_shape d; rw [e_]; rfl
@[simp] theorem State.answerWaiting_finish (d : Drive) (i : Drive) : (s.answerWaiting d).finish i = s.finish i := by
  obtain ⟨a, e_⟩ := s.answerWaiting_shape d; rw [e_]; rfl
@[simp] theorem State.answerWaiting_typeOf (d : Drive) (i : Drive) : (s.answerWaiting d).typeOf i = s.typeOf i := by
  obtain ⟨a, e_⟩ := s.answerWaiting_shape d; rw [e_]; rfl

theorem State.discardOp_shape (d : Drive) :
    ∃ a, s.discardOp d = { s with ops := a } := by
  exact ⟨_, rfl⟩

@[simp] theorem State.discardOp_powered (d : Drive) : (s.discardOp d).powered = s.powered := by
  obtain ⟨a, e_⟩ := s.discardOp_shape d; rw [e_]
@[simp] theorem State.discardOp_now (d : Drive) : (s.discardOp d).now = s.now := by
  obtain ⟨a, e_⟩ := s.discardOp_shape d; rw [e_]
@[simp] theorem State.discardOp_types (d : Drive) : (s.discardOp d).types = s.types := by
  obtain ⟨a, e_⟩ := s.discardOp_shape d; rw [e_]
@[simp] theorem State.discardOp_records (d : Drive) : (s.discardOp d).records = s.records := by
  obtain ⟨a, e_⟩ := s.discardOp_shape d; rw [e_]
@[simp] theorem State.discardOp_positioners (d : Drive) : (s.discardOp d).positioners = s.positioners := by
  obtain ⟨a, e_⟩ := s.discardOp_shape d; rw [e_]
@[simp] theorem State.discardOp_finishing (d : Drive) : (s.discardOp d).finishing = s.finishing := by
  obtain ⟨a, e_⟩ := s.discardOp_shape d; rw [e_]
@[simp] theorem State.discardOp_paths (d : Drive) : (s.discardOp d).paths = s.paths := by
  obtain ⟨a, e_⟩ := s.discardOp_shape d; rw [e_]
@[simp] theorem State.discardOp_spareMap (d : Drive) : (s.discardOp d).spareMap = s.spareMap := by
  obtain ⟨a, e_⟩ := s.discardOp_shape d; rw [e_]
@[simp] theorem State.discardOp_suspects (d : Drive) : (s.discardOp d).suspects = s.suspects := by
  obtain ⟨a, e_⟩ := s.discardOp_shape d; rw [e_]
@[simp] theorem State.discardOp_lastAlt (d : Drive) : (s.discardOp d).lastAlt = s.lastAlt := by
  obtain ⟨a, e_⟩ := s.discardOp_shape d; rw [e_]
@[simp] theorem State.discardOp_ports (d : Drive) : (s.discardOp d).ports = s.ports := by
  obtain ⟨a, e_⟩ := s.discardOp_shape d; rw [e_]
@[simp] theorem State.discardOp_queues (d : Drive) : (s.discardOp d).queues = s.queues := by
  obtain ⟨a, e_⟩ := s.discardOp_shape d; rw [e_]
@[simp] theorem State.discardOp_sharing (d : Drive) : (s.discardOp d).sharing = s.sharing := by
  obtain ⟨a, e_⟩ := s.discardOp_shape d; rw [e_]
@[simp] theorem State.discardOp_due (d : Drive) : (s.discardOp d).due = s.due := by
  obtain ⟨a, e_⟩ := s.discardOp_shape d; rw [e_]
@[simp] theorem State.discardOp_choices (d : Drive) : (s.discardOp d).choices = s.choices := by
  obtain ⟨a, e_⟩ := s.discardOp_shape d; rw [e_]
@[simp] theorem State.discardOp_pending (d : Drive) : (s.discardOp d).pending = s.pending := by
  obtain ⟨a, e_⟩ := s.discardOp_shape d; rw [e_]
@[simp] theorem State.discardOp_port (d : Drive) (i : Port) : (s.discardOp d).port i = s.port i := by
  obtain ⟨a, e_⟩ := s.discardOp_shape d; rw [e_]; rfl
@[simp] theorem State.discardOp_pos (d : Drive) (i : Drive) : (s.discardOp d).pos i = s.pos i := by
  obtain ⟨a, e_⟩ := s.discardOp_shape d; rw [e_]; rfl
@[simp] theorem State.discardOp_share (d : Drive) (i : Drive) : (s.discardOp d).share i = s.share i := by
  obtain ⟨a, e_⟩ := s.discardOp_shape d; rw [e_]; rfl
@[simp] theorem State.discardOp_queue (d : Drive) (i : Port) : (s.discardOp d).queue i = s.queue i := by
  obtain ⟨a, e_⟩ := s.discardOp_shape d; rw [e_]; rfl
@[simp] theorem State.discardOp_record (d : Drive) (i : Drive) : (s.discardOp d).record i = s.record i := by
  obtain ⟨a, e_⟩ := s.discardOp_shape d; rw [e_]; rfl
@[simp] theorem State.discardOp_path (d : Drive) (i : PathNo) : (s.discardOp d).path i = s.path i := by
  obtain ⟨a, e_⟩ := s.discardOp_shape d; rw [e_]; rfl
@[simp] theorem State.discardOp_finish (d : Drive) (i : Drive) : (s.discardOp d).finish i = s.finish i := by
  obtain ⟨a, e_⟩ := s.discardOp_shape d; rw [e_]; rfl
@[simp] theorem State.discardOp_typeOf (d : Drive) (i : Drive) : (s.discardOp d).typeOf i = s.typeOf i := by
  obtain ⟨a, e_⟩ := s.discardOp_shape d; rw [e_]; rfl

theorem State.beginHold_shape (d : Drive) (p : Port) (r : FaultRecord) :
    ∃ a, s.beginHold d p r = { s with sharing := a } := by
  exact ⟨_, rfl⟩

@[simp] theorem State.beginHold_powered (d : Drive) (p : Port) (r : FaultRecord) : (s.beginHold d p r).powered = s.powered := by
  obtain ⟨a, e_⟩ := s.beginHold_shape d p r; rw [e_]
@[simp] theorem State.beginHold_now (d : Drive) (p : Port) (r : FaultRecord) : (s.beginHold d p r).now = s.now := by
  obtain ⟨a, e_⟩ := s.beginHold_shape d p r; rw [e_]
@[simp] theorem State.beginHold_types (d : Drive) (p : Port) (r : FaultRecord) : (s.beginHold d p r).types = s.types := by
  obtain ⟨a, e_⟩ := s.beginHold_shape d p r; rw [e_]
@[simp] theorem State.beginHold_records (d : Drive) (p : Port) (r : FaultRecord) : (s.beginHold d p r).records = s.records := by
  obtain ⟨a, e_⟩ := s.beginHold_shape d p r; rw [e_]
@[simp] theorem State.beginHold_positioners (d : Drive) (p : Port) (r : FaultRecord) : (s.beginHold d p r).positioners = s.positioners := by
  obtain ⟨a, e_⟩ := s.beginHold_shape d p r; rw [e_]
@[simp] theorem State.beginHold_ops (d : Drive) (p : Port) (r : FaultRecord) : (s.beginHold d p r).ops = s.ops := by
  obtain ⟨a, e_⟩ := s.beginHold_shape d p r; rw [e_]
@[simp] theorem State.beginHold_finishing (d : Drive) (p : Port) (r : FaultRecord) : (s.beginHold d p r).finishing = s.finishing := by
  obtain ⟨a, e_⟩ := s.beginHold_shape d p r; rw [e_]
@[simp] theorem State.beginHold_paths (d : Drive) (p : Port) (r : FaultRecord) : (s.beginHold d p r).paths = s.paths := by
  obtain ⟨a, e_⟩ := s.beginHold_shape d p r; rw [e_]
@[simp] theorem State.beginHold_spareMap (d : Drive) (p : Port) (r : FaultRecord) : (s.beginHold d p r).spareMap = s.spareMap := by
  obtain ⟨a, e_⟩ := s.beginHold_shape d p r; rw [e_]
@[simp] theorem State.beginHold_suspects (d : Drive) (p : Port) (r : FaultRecord) : (s.beginHold d p r).suspects = s.suspects := by
  obtain ⟨a, e_⟩ := s.beginHold_shape d p r; rw [e_]
@[simp] theorem State.beginHold_lastAlt (d : Drive) (p : Port) (r : FaultRecord) : (s.beginHold d p r).lastAlt = s.lastAlt := by
  obtain ⟨a, e_⟩ := s.beginHold_shape d p r; rw [e_]
@[simp] theorem State.beginHold_ports (d : Drive) (p : Port) (r : FaultRecord) : (s.beginHold d p r).ports = s.ports := by
  obtain ⟨a, e_⟩ := s.beginHold_shape d p r; rw [e_]
@[simp] theorem State.beginHold_queues (d : Drive) (p : Port) (r : FaultRecord) : (s.beginHold d p r).queues = s.queues := by
  obtain ⟨a, e_⟩ := s.beginHold_shape d p r; rw [e_]
@[simp] theorem State.beginHold_due (d : Drive) (p : Port) (r : FaultRecord) : (s.beginHold d p r).due = s.due := by
  obtain ⟨a, e_⟩ := s.beginHold_shape d p r; rw [e_]
@[simp] theorem State.beginHold_choices (d : Drive) (p : Port) (r : FaultRecord) : (s.beginHold d p r).choices = s.choices := by
  obtain ⟨a, e_⟩ := s.beginHold_shape d p r; rw [e_]
@[simp] theorem State.beginHold_pending (d : Drive) (p : Port) (r : FaultRecord) : (s.beginHold d p r).pending = s.pending := by
  obtain ⟨a, e_⟩ := s.beginHold_shape d p r; rw [e_]
@[simp] theorem State.beginHold_port (d : Drive) (p : Port) (r : FaultRecord) (i : Port) : (s.beginHold d p r).port i = s.port i := by
  obtain ⟨a, e_⟩ := s.beginHold_shape d p r; rw [e_]; rfl
@[simp] theorem State.beginHold_op (d : Drive) (p : Port) (r : FaultRecord) (i : Drive) : (s.beginHold d p r).op i = s.op i := by
  obtain ⟨a, e_⟩ := s.beginHold_shape d p r; rw [e_]; rfl
@[simp] theorem State.beginHold_pos (d : Drive) (p : Port) (r : FaultRecord) (i : Drive) : (s.beginHold d p r).pos i = s.pos i := by
  obtain ⟨a, e_⟩ := s.beginHold_shape d p r; rw [e_]; rfl
@[simp] theorem State.beginHold_queue (d : Drive) (p : Port) (r : FaultRecord) (i : Port) : (s.beginHold d p r).queue i = s.queue i := by
  obtain ⟨a, e_⟩ := s.beginHold_shape d p r; rw [e_]; rfl
@[simp] theorem State.beginHold_record (d : Drive) (p : Port) (r : FaultRecord) (i : Drive) : (s.beginHold d p r).record i = s.record i := by
  obtain ⟨a, e_⟩ := s.beginHold_shape d p r; rw [e_]; rfl
@[simp] theorem State.beginHold_path (d : Drive) (p : Port) (r : FaultRecord) (i : PathNo) : (s.beginHold d p r).path i = s.path i := by
  obtain ⟨a, e_⟩ := s.beginHold_shape d p r; rw [e_]; rfl
@[simp] theorem State.beginHold_finish (d : Drive) (p : Port) (r : FaultRecord) (i : Drive) : (s.beginHold d p r).finish i = s.finish i := by
  obtain ⟨a, e_⟩ := s.beginHold_shape d p r; rw [e_]; rfl
@[simp] theorem State.beginHold_typeOf (d : Drive) (p : Port) (r : FaultRecord) (i : Drive) : (s.beginHold d p r).typeOf i = s.typeOf i := by
  obtain ⟨a, e_⟩ := s.beginHold_shape d p r; rw [e_]; rfl

theorem State.dropHold_shape (d : Drive) :
    ∃ a, s.dropHold d = { s with sharing := a } := by
  exact ⟨_, rfl⟩

@[simp] theorem State.dropHold_powered (d : Drive) : (s.dropHold d).powered = s.powered := by
  obtain ⟨a, e_⟩ := s.dropHold_shape d; rw [e_]
@[simp] theorem State.dropHold_now (d : Drive) : (s.dropHold d).now = s.now := by
  obtain ⟨a, e_⟩ := s.dropHold_shape d; rw [e_]
@[simp] theorem State.dropHold_types (d : Drive) : (s.dropHold d).types = s.types := by
  obtain ⟨a, e_⟩ := s.dropHold_shape d; rw [e_]
@[simp] theorem State.dropHold_records (d : Drive) : (s.dropHold d).records = s.records := by
  obtain ⟨a, e_⟩ := s.dropHold_shape d; rw [e_]
@[simp] theorem State.dropHold_positioners (d : Drive) : (s.dropHold d).positioners = s.positioners := by
  obtain ⟨a, e_⟩ := s.dropHold_shape d; rw [e_]
@[simp] theorem State.dropHold_ops (d : Drive) : (s.dropHold d).ops = s.ops := by
  obtain ⟨a, e_⟩ := s.dropHold_shape d; rw [e_]
@[simp] theorem State.dropHold_finishing (d : Drive) : (s.dropHold d).finishing = s.finishing := by
  obtain ⟨a, e_⟩ := s.dropHold_shape d; rw [e_]
@[simp] theorem State.dropHold_paths (d : Drive) : (s.dropHold d).paths = s.paths := by
  obtain ⟨a, e_⟩ := s.dropHold_shape d; rw [e_]
@[simp] theorem State.dropHold_spareMap (d : Drive) : (s.dropHold d).spareMap = s.spareMap := by
  obtain ⟨a, e_⟩ := s.dropHold_shape d; rw [e_]
@[simp] theorem State.dropHold_suspects (d : Drive) : (s.dropHold d).suspects = s.suspects := by
  obtain ⟨a, e_⟩ := s.dropHold_shape d; rw [e_]
@[simp] theorem State.dropHold_lastAlt (d : Drive) : (s.dropHold d).lastAlt = s.lastAlt := by
  obtain ⟨a, e_⟩ := s.dropHold_shape d; rw [e_]
@[simp] theorem State.dropHold_ports (d : Drive) : (s.dropHold d).ports = s.ports := by
  obtain ⟨a, e_⟩ := s.dropHold_shape d; rw [e_]
@[simp] theorem State.dropHold_queues (d : Drive) : (s.dropHold d).queues = s.queues := by
  obtain ⟨a, e_⟩ := s.dropHold_shape d; rw [e_]
@[simp] theorem State.dropHold_due (d : Drive) : (s.dropHold d).due = s.due := by
  obtain ⟨a, e_⟩ := s.dropHold_shape d; rw [e_]
@[simp] theorem State.dropHold_choices (d : Drive) : (s.dropHold d).choices = s.choices := by
  obtain ⟨a, e_⟩ := s.dropHold_shape d; rw [e_]
@[simp] theorem State.dropHold_pending (d : Drive) : (s.dropHold d).pending = s.pending := by
  obtain ⟨a, e_⟩ := s.dropHold_shape d; rw [e_]
@[simp] theorem State.dropHold_port (d : Drive) (i : Port) : (s.dropHold d).port i = s.port i := by
  obtain ⟨a, e_⟩ := s.dropHold_shape d; rw [e_]; rfl
@[simp] theorem State.dropHold_op (d : Drive) (i : Drive) : (s.dropHold d).op i = s.op i := by
  obtain ⟨a, e_⟩ := s.dropHold_shape d; rw [e_]; rfl
@[simp] theorem State.dropHold_pos (d : Drive) (i : Drive) : (s.dropHold d).pos i = s.pos i := by
  obtain ⟨a, e_⟩ := s.dropHold_shape d; rw [e_]; rfl
@[simp] theorem State.dropHold_queue (d : Drive) (i : Port) : (s.dropHold d).queue i = s.queue i := by
  obtain ⟨a, e_⟩ := s.dropHold_shape d; rw [e_]; rfl
@[simp] theorem State.dropHold_record (d : Drive) (i : Drive) : (s.dropHold d).record i = s.record i := by
  obtain ⟨a, e_⟩ := s.dropHold_shape d; rw [e_]; rfl
@[simp] theorem State.dropHold_path (d : Drive) (i : PathNo) : (s.dropHold d).path i = s.path i := by
  obtain ⟨a, e_⟩ := s.dropHold_shape d; rw [e_]; rfl
@[simp] theorem State.dropHold_finish (d : Drive) (i : Drive) : (s.dropHold d).finish i = s.finish i := by
  obtain ⟨a, e_⟩ := s.dropHold_shape d; rw [e_]; rfl
@[simp] theorem State.dropHold_typeOf (d : Drive) (i : Drive) : (s.dropHold d).typeOf i = s.typeOf i := by
  obtain ⟨a, e_⟩ := s.dropHold_shape d; rw [e_]; rfl

theorem State.removeOwed_shape (d : Drive) (p : Port) :
    ∃ a, s.removeOwed d p = { s with sharing := a } := by
  exact ⟨_, rfl⟩

@[simp] theorem State.removeOwed_powered (d : Drive) (p : Port) : (s.removeOwed d p).powered = s.powered := by
  obtain ⟨a, e_⟩ := s.removeOwed_shape d p; rw [e_]
@[simp] theorem State.removeOwed_now (d : Drive) (p : Port) : (s.removeOwed d p).now = s.now := by
  obtain ⟨a, e_⟩ := s.removeOwed_shape d p; rw [e_]
@[simp] theorem State.removeOwed_types (d : Drive) (p : Port) : (s.removeOwed d p).types = s.types := by
  obtain ⟨a, e_⟩ := s.removeOwed_shape d p; rw [e_]
@[simp] theorem State.removeOwed_records (d : Drive) (p : Port) : (s.removeOwed d p).records = s.records := by
  obtain ⟨a, e_⟩ := s.removeOwed_shape d p; rw [e_]
@[simp] theorem State.removeOwed_positioners (d : Drive) (p : Port) : (s.removeOwed d p).positioners = s.positioners := by
  obtain ⟨a, e_⟩ := s.removeOwed_shape d p; rw [e_]
@[simp] theorem State.removeOwed_ops (d : Drive) (p : Port) : (s.removeOwed d p).ops = s.ops := by
  obtain ⟨a, e_⟩ := s.removeOwed_shape d p; rw [e_]
@[simp] theorem State.removeOwed_finishing (d : Drive) (p : Port) : (s.removeOwed d p).finishing = s.finishing := by
  obtain ⟨a, e_⟩ := s.removeOwed_shape d p; rw [e_]
@[simp] theorem State.removeOwed_paths (d : Drive) (p : Port) : (s.removeOwed d p).paths = s.paths := by
  obtain ⟨a, e_⟩ := s.removeOwed_shape d p; rw [e_]
@[simp] theorem State.removeOwed_spareMap (d : Drive) (p : Port) : (s.removeOwed d p).spareMap = s.spareMap := by
  obtain ⟨a, e_⟩ := s.removeOwed_shape d p; rw [e_]
@[simp] theorem State.removeOwed_suspects (d : Drive) (p : Port) : (s.removeOwed d p).suspects = s.suspects := by
  obtain ⟨a, e_⟩ := s.removeOwed_shape d p; rw [e_]
@[simp] theorem State.removeOwed_lastAlt (d : Drive) (p : Port) : (s.removeOwed d p).lastAlt = s.lastAlt := by
  obtain ⟨a, e_⟩ := s.removeOwed_shape d p; rw [e_]
@[simp] theorem State.removeOwed_ports (d : Drive) (p : Port) : (s.removeOwed d p).ports = s.ports := by
  obtain ⟨a, e_⟩ := s.removeOwed_shape d p; rw [e_]
@[simp] theorem State.removeOwed_queues (d : Drive) (p : Port) : (s.removeOwed d p).queues = s.queues := by
  obtain ⟨a, e_⟩ := s.removeOwed_shape d p; rw [e_]
@[simp] theorem State.removeOwed_due (d : Drive) (p : Port) : (s.removeOwed d p).due = s.due := by
  obtain ⟨a, e_⟩ := s.removeOwed_shape d p; rw [e_]
@[simp] theorem State.removeOwed_choices (d : Drive) (p : Port) : (s.removeOwed d p).choices = s.choices := by
  obtain ⟨a, e_⟩ := s.removeOwed_shape d p; rw [e_]
@[simp] theorem State.removeOwed_pending (d : Drive) (p : Port) : (s.removeOwed d p).pending = s.pending := by
  obtain ⟨a, e_⟩ := s.removeOwed_shape d p; rw [e_]
@[simp] theorem State.removeOwed_port (d : Drive) (p : Port) (i : Port) : (s.removeOwed d p).port i = s.port i := by
  obtain ⟨a, e_⟩ := s.removeOwed_shape d p; rw [e_]; rfl
@[simp] theorem State.removeOwed_op (d : Drive) (p : Port) (i : Drive) : (s.removeOwed d p).op i = s.op i := by
  obtain ⟨a, e_⟩ := s.removeOwed_shape d p; rw [e_]; rfl
@[simp] theorem State.removeOwed_pos (d : Drive) (p : Port) (i : Drive) : (s.removeOwed d p).pos i = s.pos i := by
  obtain ⟨a, e_⟩ := s.removeOwed_shape d p; rw [e_]; rfl
@[simp] theorem State.removeOwed_queue (d : Drive) (p : Port) (i : Port) : (s.removeOwed d p).queue i = s.queue i := by
  obtain ⟨a, e_⟩ := s.removeOwed_shape d p; rw [e_]; rfl
@[simp] theorem State.removeOwed_record (d : Drive) (p : Port) (i : Drive) : (s.removeOwed d p).record i = s.record i := by
  obtain ⟨a, e_⟩ := s.removeOwed_shape d p; rw [e_]; rfl
@[simp] theorem State.removeOwed_path (d : Drive) (p : Port) (i : PathNo) : (s.removeOwed d p).path i = s.path i := by
  obtain ⟨a, e_⟩ := s.removeOwed_shape d p; rw [e_]; rfl
@[simp] theorem State.removeOwed_finish (d : Drive) (p : Port) (i : Drive) : (s.removeOwed d p).finish i = s.finish i := by
  obtain ⟨a, e_⟩ := s.removeOwed_shape d p; rw [e_]; rfl
@[simp] theorem State.removeOwed_typeOf (d : Drive) (p : Port) (i : Drive) : (s.removeOwed d p).typeOf i = s.typeOf i := by
  obtain ⟨a, e_⟩ := s.removeOwed_shape d p; rw [e_]; rfl

theorem State.endOperation_shape (d : Drive) :
    ∃ a b c g, s.endOperation d = { s with ops := a, ports := b, queues := c, sharing := g } := by
  obtain ⟨a, b, c, e⟩ := State.owedTest_shape (s.discardOp d) d
  unfold State.endOperation
  rw [e]
  obtain ⟨a', e'⟩ := State.answerWaiting_shape { s.discardOp d with ports := a, queues := b, sharing := c } d
  exact ⟨_, _, _, _, e'⟩

@[simp] theorem State.endOperation_powered (d : Drive) : (s.endOperation d).powered = s.powered := by
  obtain ⟨a, b, c, g, e_⟩ := s.endOperation_shape d; rw [e_]
@[simp] theorem State.endOperation_now (d : Drive) : (s.endOperation d).now = s.now := by
  obtain ⟨a, b, c, g, e_⟩ := s.endOperation_shape d; rw [e_]
@[simp] theorem State.endOperation_types (d : Drive) : (s.endOperation d).types = s.types := by
  obtain ⟨a, b, c, g, e_⟩ := s.endOperation_shape d; rw [e_]
@[simp] theorem State.endOperation_records (d : Drive) : (s.endOperation d).records = s.records := by
  obtain ⟨a, b, c, g, e_⟩ := s.endOperation_shape d; rw [e_]
@[simp] theorem State.endOperation_positioners (d : Drive) : (s.endOperation d).positioners = s.positioners := by
  obtain ⟨a, b, c, g, e_⟩ := s.endOperation_shape d; rw [e_]
@[simp] theorem State.endOperation_finishing (d : Drive) : (s.endOperation d).finishing = s.finishing := by
  obtain ⟨a, b, c, g, e_⟩ := s.endOperation_shape d; rw [e_]
@[simp] theorem State.endOperation_paths (d : Drive) : (s.endOperation d).paths = s.paths := by
  obtain ⟨a, b, c, g, e_⟩ := s.endOperation_shape d; rw [e_]
@[simp] theorem State.endOperation_spareMap (d : Drive) : (s.endOperation d).spareMap = s.spareMap := by
  obtain ⟨a, b, c, g, e_⟩ := s.endOperation_shape d; rw [e_]
@[simp] theorem State.endOperation_suspects (d : Drive) : (s.endOperation d).suspects = s.suspects := by
  obtain ⟨a, b, c, g, e_⟩ := s.endOperation_shape d; rw [e_]
@[simp] theorem State.endOperation_lastAlt (d : Drive) : (s.endOperation d).lastAlt = s.lastAlt := by
  obtain ⟨a, b, c, g, e_⟩ := s.endOperation_shape d; rw [e_]
@[simp] theorem State.endOperation_due (d : Drive) : (s.endOperation d).due = s.due := by
  obtain ⟨a, b, c, g, e_⟩ := s.endOperation_shape d; rw [e_]
@[simp] theorem State.endOperation_choices (d : Drive) : (s.endOperation d).choices = s.choices := by
  obtain ⟨a, b, c, g, e_⟩ := s.endOperation_shape d; rw [e_]
@[simp] theorem State.endOperation_pending (d : Drive) : (s.endOperation d).pending = s.pending := by
  obtain ⟨a, b, c, g, e_⟩ := s.endOperation_shape d; rw [e_]
@[simp] theorem State.endOperation_pos (d : Drive) (i : Drive) : (s.endOperation d).pos i = s.pos i := by
  obtain ⟨a, b, c, g, e_⟩ := s.endOperation_shape d; rw [e_]; rfl
@[simp] theorem State.endOperation_record (d : Drive) (i : Drive) : (s.endOperation d).record i = s.record i := by
  obtain ⟨a, b, c, g, e_⟩ := s.endOperation_shape d; rw [e_]; rfl
@[simp] theorem State.endOperation_path (d : Drive) (i : PathNo) : (s.endOperation d).path i = s.path i := by
  obtain ⟨a, b, c, g, e_⟩ := s.endOperation_shape d; rw [e_]; rfl
@[simp] theorem State.endOperation_finish (d : Drive) (i : Drive) : (s.endOperation d).finish i = s.finish i := by
  obtain ⟨a, b, c, g, e_⟩ := s.endOperation_shape d; rw [e_]; rfl
@[simp] theorem State.endOperation_typeOf (d : Drive) (i : Drive) : (s.endOperation d).typeOf i = s.typeOf i := by
  obtain ⟨a, b, c, g, e_⟩ := s.endOperation_shape d; rw [e_]; rfl

theorem State.endOperationWithHold_shape (d : Drive) (p : Port) (r : FaultRecord) :
    ∃ a b c g, s.endOperationWithHold d p r = { s with ops := a, ports := b, queues := c, sharing := g } := by
  obtain ⟨a, b, c, e⟩ := State.owedTest_shape ((s.discardOp d).beginHold d p r) d
  unfold State.endOperationWithHold
  rw [e]
  obtain ⟨a', e'⟩ := State.answerWaiting_shape { (s.discardOp d).beginHold d p r with ports := a, queues := b, sharing := c } d
  exact ⟨_, _, _, _, e'⟩

@[simp] theorem State.endOperationWithHold_powered (d : Drive) (p : Port) (r : FaultRecord) : (s.endOperationWithHold d p r).powered = s.powered := by
  obtain ⟨a, b, c, g, e_⟩ := s.endOperationWithHold_shape d p r; rw [e_]
@[simp] theorem State.endOperationWithHold_now (d : Drive) (p : Port) (r : FaultRecord) : (s.endOperationWithHold d p r).now = s.now := by
  obtain ⟨a, b, c, g, e_⟩ := s.endOperationWithHold_shape d p r; rw [e_]
@[simp] theorem State.endOperationWithHold_types (d : Drive) (p : Port) (r : FaultRecord) : (s.endOperationWithHold d p r).types = s.types := by
  obtain ⟨a, b, c, g, e_⟩ := s.endOperationWithHold_shape d p r; rw [e_]
@[simp] theorem State.endOperationWithHold_records (d : Drive) (p : Port) (r : FaultRecord) : (s.endOperationWithHold d p r).records = s.records := by
  obtain ⟨a, b, c, g, e_⟩ := s.endOperationWithHold_shape d p r; rw [e_]
@[simp] theorem State.endOperationWithHold_positioners (d : Drive) (p : Port) (r : FaultRecord) : (s.endOperationWithHold d p r).positioners = s.positioners := by
  obtain ⟨a, b, c, g, e_⟩ := s.endOperationWithHold_shape d p r; rw [e_]
@[simp] theorem State.endOperationWithHold_finishing (d : Drive) (p : Port) (r : FaultRecord) : (s.endOperationWithHold d p r).finishing = s.finishing := by
  obtain ⟨a, b, c, g, e_⟩ := s.endOperationWithHold_shape d p r; rw [e_]
@[simp] theorem State.endOperationWithHold_paths (d : Drive) (p : Port) (r : FaultRecord) : (s.endOperationWithHold d p r).paths = s.paths := by
  obtain ⟨a, b, c, g, e_⟩ := s.endOperationWithHold_shape d p r; rw [e_]
@[simp] theorem State.endOperationWithHold_spareMap (d : Drive) (p : Port) (r : FaultRecord) : (s.endOperationWithHold d p r).spareMap = s.spareMap := by
  obtain ⟨a, b, c, g, e_⟩ := s.endOperationWithHold_shape d p r; rw [e_]
@[simp] theorem State.endOperationWithHold_suspects (d : Drive) (p : Port) (r : FaultRecord) : (s.endOperationWithHold d p r).suspects = s.suspects := by
  obtain ⟨a, b, c, g, e_⟩ := s.endOperationWithHold_shape d p r; rw [e_]
@[simp] theorem State.endOperationWithHold_lastAlt (d : Drive) (p : Port) (r : FaultRecord) : (s.endOperationWithHold d p r).lastAlt = s.lastAlt := by
  obtain ⟨a, b, c, g, e_⟩ := s.endOperationWithHold_shape d p r; rw [e_]
@[simp] theorem State.endOperationWithHold_due (d : Drive) (p : Port) (r : FaultRecord) : (s.endOperationWithHold d p r).due = s.due := by
  obtain ⟨a, b, c, g, e_⟩ := s.endOperationWithHold_shape d p r; rw [e_]
@[simp] theorem State.endOperationWithHold_choices (d : Drive) (p : Port) (r : FaultRecord) : (s.endOperationWithHold d p r).choices = s.choices := by
  obtain ⟨a, b, c, g, e_⟩ := s.endOperationWithHold_shape d p r; rw [e_]
@[simp] theorem State.endOperationWithHold_pending (d : Drive) (p : Port) (r : FaultRecord) : (s.endOperationWithHold d p r).pending = s.pending := by
  obtain ⟨a, b, c, g, e_⟩ := s.endOperationWithHold_shape d p r; rw [e_]
@[simp] theorem State.endOperationWithHold_pos (d : Drive) (p : Port) (r : FaultRecord) (i : Drive) : (s.endOperationWithHold d p r).pos i = s.pos i := by
  obtain ⟨a, b, c, g, e_⟩ := s.endOperationWithHold_shape d p r; rw [e_]; rfl
@[simp] theorem State.endOperationWithHold_record (d : Drive) (p : Port) (r : FaultRecord) (i : Drive) : (s.endOperationWithHold d p r).record i = s.record i := by
  obtain ⟨a, b, c, g, e_⟩ := s.endOperationWithHold_shape d p r; rw [e_]; rfl
@[simp] theorem State.endOperationWithHold_path (d : Drive) (p : Port) (r : FaultRecord) (i : PathNo) : (s.endOperationWithHold d p r).path i = s.path i := by
  obtain ⟨a, b, c, g, e_⟩ := s.endOperationWithHold_shape d p r; rw [e_]; rfl
@[simp] theorem State.endOperationWithHold_finish (d : Drive) (p : Port) (r : FaultRecord) (i : Drive) : (s.endOperationWithHold d p r).finish i = s.finish i := by
  obtain ⟨a, b, c, g, e_⟩ := s.endOperationWithHold_shape d p r; rw [e_]; rfl
@[simp] theorem State.endOperationWithHold_typeOf (d : Drive) (p : Port) (r : FaultRecord) (i : Drive) : (s.endOperationWithHold d p r).typeOf i = s.typeOf i := by
  obtain ⟨a, b, c, g, e_⟩ := s.endOperationWithHold_shape d p r; rw [e_]; rfl

theorem State.faultInConnection_shape (d : Drive) (p : Port) (o : Operation) (k : FaultKind) (det : Detail) (res : Nat) (f : Option Condition) :
    ∃ a b c g, s.faultInConnection d p o k det res f = { s with ops := a, ports := b, queues := c, sharing := g } := by
  unfold State.faultInConnection
  dsimp only
  split
  · obtain ⟨a, b, c, g, e⟩ := State.endOperation_shape ((s.modPort p fun r => { r with answer := none, held := [], requests := [] }).sendStatus
      p (.drive d) (Status.faultOf k det res).disc true) d
    exact ⟨a, b, c, g, e⟩
  · obtain ⟨a, b, c, g, e⟩ := State.endOperationWithHold_shape ((s.modPort p fun r => { r with answer := none, held := [], requests := [] }).sendStatus
      p (.drive d) (Status.faultOf k det res).disc true) d p (o.faultRecord d k det res f)
    exact ⟨a, b, c, g, e⟩

@[simp] theorem State.faultInConnection_powered (d : Drive) (p : Port) (o : Operation) (k : FaultKind) (det : Detail) (res : Nat) (f : Option Condition) : (s.faultInConnection d p o k det res f).powered = s.powered := by
  obtain ⟨a, b, c, g, e_⟩ := s.faultInConnection_shape d p o k det res f; rw [e_]
@[simp] theorem State.faultInConnection_now (d : Drive) (p : Port) (o : Operation) (k : FaultKind) (det : Detail) (res : Nat) (f : Option Condition) : (s.faultInConnection d p o k det res f).now = s.now := by
  obtain ⟨a, b, c, g, e_⟩ := s.faultInConnection_shape d p o k det res f; rw [e_]
@[simp] theorem State.faultInConnection_types (d : Drive) (p : Port) (o : Operation) (k : FaultKind) (det : Detail) (res : Nat) (f : Option Condition) : (s.faultInConnection d p o k det res f).types = s.types := by
  obtain ⟨a, b, c, g, e_⟩ := s.faultInConnection_shape d p o k det res f; rw [e_]
@[simp] theorem State.faultInConnection_records (d : Drive) (p : Port) (o : Operation) (k : FaultKind) (det : Detail) (res : Nat) (f : Option Condition) : (s.faultInConnection d p o k det res f).records = s.records := by
  obtain ⟨a, b, c, g, e_⟩ := s.faultInConnection_shape d p o k det res f; rw [e_]
@[simp] theorem State.faultInConnection_positioners (d : Drive) (p : Port) (o : Operation) (k : FaultKind) (det : Detail) (res : Nat) (f : Option Condition) : (s.faultInConnection d p o k det res f).positioners = s.positioners := by
  obtain ⟨a, b, c, g, e_⟩ := s.faultInConnection_shape d p o k det res f; rw [e_]
@[simp] theorem State.faultInConnection_finishing (d : Drive) (p : Port) (o : Operation) (k : FaultKind) (det : Detail) (res : Nat) (f : Option Condition) : (s.faultInConnection d p o k det res f).finishing = s.finishing := by
  obtain ⟨a, b, c, g, e_⟩ := s.faultInConnection_shape d p o k det res f; rw [e_]
@[simp] theorem State.faultInConnection_paths (d : Drive) (p : Port) (o : Operation) (k : FaultKind) (det : Detail) (res : Nat) (f : Option Condition) : (s.faultInConnection d p o k det res f).paths = s.paths := by
  obtain ⟨a, b, c, g, e_⟩ := s.faultInConnection_shape d p o k det res f; rw [e_]
@[simp] theorem State.faultInConnection_spareMap (d : Drive) (p : Port) (o : Operation) (k : FaultKind) (det : Detail) (res : Nat) (f : Option Condition) : (s.faultInConnection d p o k det res f).spareMap = s.spareMap := by
  obtain ⟨a, b, c, g, e_⟩ := s.faultInConnection_shape d p o k det res f; rw [e_]
@[simp] theorem State.faultInConnection_suspects (d : Drive) (p : Port) (o : Operation) (k : FaultKind) (det : Detail) (res : Nat) (f : Option Condition) : (s.faultInConnection d p o k det res f).suspects = s.suspects := by
  obtain ⟨a, b, c, g, e_⟩ := s.faultInConnection_shape d p o k det res f; rw [e_]
@[simp] theorem State.faultInConnection_lastAlt (d : Drive) (p : Port) (o : Operation) (k : FaultKind) (det : Detail) (res : Nat) (f : Option Condition) : (s.faultInConnection d p o k det res f).lastAlt = s.lastAlt := by
  obtain ⟨a, b, c, g, e_⟩ := s.faultInConnection_shape d p o k det res f; rw [e_]
@[simp] theorem State.faultInConnection_due (d : Drive) (p : Port) (o : Operation) (k : FaultKind) (det : Detail) (res : Nat) (f : Option Condition) : (s.faultInConnection d p o k det res f).due = s.due := by
  obtain ⟨a, b, c, g, e_⟩ := s.faultInConnection_shape d p o k det res f; rw [e_]
@[simp] theorem State.faultInConnection_choices (d : Drive) (p : Port) (o : Operation) (k : FaultKind) (det : Detail) (res : Nat) (f : Option Condition) : (s.faultInConnection d p o k det res f).choices = s.choices := by
  obtain ⟨a, b, c, g, e_⟩ := s.faultInConnection_shape d p o k det res f; rw [e_]
@[simp] theorem State.faultInConnection_pending (d : Drive) (p : Port) (o : Operation) (k : FaultKind) (det : Detail) (res : Nat) (f : Option Condition) : (s.faultInConnection d p o k det res f).pending = s.pending := by
  obtain ⟨a, b, c, g, e_⟩ := s.faultInConnection_shape d p o k det res f; rw [e_]
@[simp] theorem State.faultInConnection_pos (d : Drive) (p : Port) (o : Operation) (k : FaultKind) (det : Detail) (res : Nat) (f : Option Condition) (i : Drive) : (s.faultInConnection d p o k det res f).pos i = s.pos i := by
  obtain ⟨a, b, c, g, e_⟩ := s.faultInConnection_shape d p o k det res f; rw [e_]; rfl
@[simp] theorem State.faultInConnection_record (d : Drive) (p : Port) (o : Operation) (k : FaultKind) (det : Detail) (res : Nat) (f : Option Condition) (i : Drive) : (s.faultInConnection d p o k det res f).record i = s.record i := by
  obtain ⟨a, b, c, g, e_⟩ := s.faultInConnection_shape d p o k det res f; rw [e_]; rfl
@[simp] theorem State.faultInConnection_path (d : Drive) (p : Port) (o : Operation) (k : FaultKind) (det : Detail) (res : Nat) (f : Option Condition) (i : PathNo) : (s.faultInConnection d p o k det res f).path i = s.path i := by
  obtain ⟨a, b, c, g, e_⟩ := s.faultInConnection_shape d p o k det res f; rw [e_]; rfl
@[simp] theorem State.faultInConnection_finish (d : Drive) (p : Port) (o : Operation) (k : FaultKind) (det : Detail) (res : Nat) (f : Option Condition) (i : Drive) : (s.faultInConnection d p o k det res f).finish i = s.finish i := by
  obtain ⟨a, b, c, g, e_⟩ := s.faultInConnection_shape d p o k det res f; rw [e_]; rfl
@[simp] theorem State.faultInConnection_typeOf (d : Drive) (p : Port) (o : Operation) (k : FaultKind) (det : Detail) (res : Nat) (f : Option Condition) (i : Drive) : (s.faultInConnection d p o k det res f).typeOf i = s.typeOf i := by
  obtain ⟨a, b, c, g, e_⟩ := s.faultInConnection_shape d p o k det res f; rw [e_]; rfl

theorem State.deferOffer_shape (p : Port) :
    ∃ a b c g, s.deferOffer p = { s with ports := a, paths := b, ops := c, queues := g } := by
  unfold State.deferOffer
  split
  · exact ⟨_, _, _, _, rfl⟩
  · exact ⟨_, _, _, _, rfl⟩
  · exact ⟨_, _, _, _, rfl⟩
  · exact ⟨_, _, _, _, rfl⟩

@[simp] theorem State.deferOffer_powered (p : Port) : (s.deferOffer p).powered = s.powered := by
  obtain ⟨a, b, c, g, e_⟩ := s.deferOffer_shape p; rw [e_]
@[simp] theorem State.deferOffer_now (p : Port) : (s.deferOffer p).now = s.now := by
  obtain ⟨a, b, c, g, e_⟩ := s.deferOffer_shape p; rw [e_]
@[simp] theorem State.deferOffer_types (p : Port) : (s.deferOffer p).types = s.types := by
  obtain ⟨a, b, c, g, e_⟩ := s.deferOffer_shape p; rw [e_]
@[simp] theorem State.deferOffer_records (p : Port) : (s.deferOffer p).records = s.records := by
  obtain ⟨a, b, c, g, e_⟩ := s.deferOffer_shape p; rw [e_]
@[simp] theorem State.deferOffer_positioners (p : Port) : (s.deferOffer p).positioners = s.positioners := by
  obtain ⟨a, b, c, g, e_⟩ := s.deferOffer_shape p; rw [e_]
@[simp] theorem State.deferOffer_finishing (p : Port) : (s.deferOffer p).finishing = s.finishing := by
  obtain ⟨a, b, c, g, e_⟩ := s.deferOffer_shape p; rw [e_]
@[simp] theorem State.deferOffer_spareMap (p : Port) : (s.deferOffer p).spareMap = s.spareMap := by
  obtain ⟨a, b, c, g, e_⟩ := s.deferOffer_shape p; rw [e_]
@[simp] theorem State.deferOffer_suspects (p : Port) : (s.deferOffer p).suspects = s.suspects := by
  obtain ⟨a, b, c, g, e_⟩ := s.deferOffer_shape p; rw [e_]
@[simp] theorem State.deferOffer_lastAlt (p : Port) : (s.deferOffer p).lastAlt = s.lastAlt := by
  obtain ⟨a, b, c, g, e_⟩ := s.deferOffer_shape p; rw [e_]
@[simp] theorem State.deferOffer_sharing (p : Port) : (s.deferOffer p).sharing = s.sharing := by
  obtain ⟨a, b, c, g, e_⟩ := s.deferOffer_shape p; rw [e_]
@[simp] theorem State.deferOffer_due (p : Port) : (s.deferOffer p).due = s.due := by
  obtain ⟨a, b, c, g, e_⟩ := s.deferOffer_shape p; rw [e_]
@[simp] theorem State.deferOffer_choices (p : Port) : (s.deferOffer p).choices = s.choices := by
  obtain ⟨a, b, c, g, e_⟩ := s.deferOffer_shape p; rw [e_]
@[simp] theorem State.deferOffer_pending (p : Port) : (s.deferOffer p).pending = s.pending := by
  obtain ⟨a, b, c, g, e_⟩ := s.deferOffer_shape p; rw [e_]
@[simp] theorem State.deferOffer_pos (p : Port) (i : Drive) : (s.deferOffer p).pos i = s.pos i := by
  obtain ⟨a, b, c, g, e_⟩ := s.deferOffer_shape p; rw [e_]; rfl
@[simp] theorem State.deferOffer_share (p : Port) (i : Drive) : (s.deferOffer p).share i = s.share i := by
  obtain ⟨a, b, c, g, e_⟩ := s.deferOffer_shape p; rw [e_]; rfl
@[simp] theorem State.deferOffer_record (p : Port) (i : Drive) : (s.deferOffer p).record i = s.record i := by
  obtain ⟨a, b, c, g, e_⟩ := s.deferOffer_shape p; rw [e_]; rfl
@[simp] theorem State.deferOffer_finish (p : Port) (i : Drive) : (s.deferOffer p).finish i = s.finish i := by
  obtain ⟨a, b, c, g, e_⟩ := s.deferOffer_shape p; rw [e_]; rfl
@[simp] theorem State.deferOffer_typeOf (p : Port) (i : Drive) : (s.deferOffer p).typeOf i = s.typeOf i := by
  obtain ⟨a, b, c, g, e_⟩ := s.deferOffer_shape p; rw [e_]; rfl

theorem State.suspectUpdate_shape (d : Drive) (x y : Track) (k : FaultKind) :
    ∃ a b c, s.suspectUpdate d x y k = { s with suspects := a, ports := b, queues := c } := by
  unfold State.suspectUpdate
  dsimp only
  split
  · obtain ⟨a, b, e⟩ := State.postSpareAdvised_shape { s with suspects := { suspectFront s.suspects d x y k with advised := true } :: suspectRest s.suspects d x } d y
    exact ⟨_, a, b, e⟩
  · exact ⟨_, _, _, rfl⟩

@[simp] theorem State.suspectUpdate_powered (d : Drive) (x y : Track) (k : FaultKind) : (s.suspectUpdate d x y k).powered = s.powered := by
  obtain ⟨a, b, c, e_⟩ := s.suspectUpdate_shape d x y k; rw [e_]
@[simp] theorem State.suspectUpdate_now (d : Drive) (x y : Track) (k : FaultKind) : (s.suspectUpdate d x y k).now = s.now := by
  obtain ⟨a, b, c, e_⟩ := s.suspectUpdate_shape d x y k; rw [e_]
@[simp] theorem State.suspectUpdate_types (d : Drive) (x y : Track) (k : FaultKind) : (s.suspectUpdate d x y k).types = s.types := by
  obtain ⟨a, b, c, e_⟩ := s.suspectUpdate_shape d x y k; rw [e_]
@[simp] theorem State.suspectUpdate_records (d : Drive) (x y : Track) (k : FaultKind) : (s.suspectUpdate d x y k).records = s.records := by
  obtain ⟨a, b, c, e_⟩ := s.suspectUpdate_shape d x y k; rw [e_]
@[simp] theorem State.suspectUpdate_positioners (d : Drive) (x y : Track) (k : FaultKind) : (s.suspectUpdate d x y k).positioners = s.positioners := by
  obtain ⟨a, b, c, e_⟩ := s.suspectUpdate_shape d x y k; rw [e_]
@[simp] theorem State.suspectUpdate_ops (d : Drive) (x y : Track) (k : FaultKind) : (s.suspectUpdate d x y k).ops = s.ops := by
  obtain ⟨a, b, c, e_⟩ := s.suspectUpdate_shape d x y k; rw [e_]
@[simp] theorem State.suspectUpdate_finishing (d : Drive) (x y : Track) (k : FaultKind) : (s.suspectUpdate d x y k).finishing = s.finishing := by
  obtain ⟨a, b, c, e_⟩ := s.suspectUpdate_shape d x y k; rw [e_]
@[simp] theorem State.suspectUpdate_paths (d : Drive) (x y : Track) (k : FaultKind) : (s.suspectUpdate d x y k).paths = s.paths := by
  obtain ⟨a, b, c, e_⟩ := s.suspectUpdate_shape d x y k; rw [e_]
@[simp] theorem State.suspectUpdate_spareMap (d : Drive) (x y : Track) (k : FaultKind) : (s.suspectUpdate d x y k).spareMap = s.spareMap := by
  obtain ⟨a, b, c, e_⟩ := s.suspectUpdate_shape d x y k; rw [e_]
@[simp] theorem State.suspectUpdate_lastAlt (d : Drive) (x y : Track) (k : FaultKind) : (s.suspectUpdate d x y k).lastAlt = s.lastAlt := by
  obtain ⟨a, b, c, e_⟩ := s.suspectUpdate_shape d x y k; rw [e_]
@[simp] theorem State.suspectUpdate_sharing (d : Drive) (x y : Track) (k : FaultKind) : (s.suspectUpdate d x y k).sharing = s.sharing := by
  obtain ⟨a, b, c, e_⟩ := s.suspectUpdate_shape d x y k; rw [e_]
@[simp] theorem State.suspectUpdate_due (d : Drive) (x y : Track) (k : FaultKind) : (s.suspectUpdate d x y k).due = s.due := by
  obtain ⟨a, b, c, e_⟩ := s.suspectUpdate_shape d x y k; rw [e_]
@[simp] theorem State.suspectUpdate_choices (d : Drive) (x y : Track) (k : FaultKind) : (s.suspectUpdate d x y k).choices = s.choices := by
  obtain ⟨a, b, c, e_⟩ := s.suspectUpdate_shape d x y k; rw [e_]
@[simp] theorem State.suspectUpdate_pending (d : Drive) (x y : Track) (k : FaultKind) : (s.suspectUpdate d x y k).pending = s.pending := by
  obtain ⟨a, b, c, e_⟩ := s.suspectUpdate_shape d x y k; rw [e_]
@[simp] theorem State.suspectUpdate_op (d : Drive) (x y : Track) (k : FaultKind) (i : Drive) : (s.suspectUpdate d x y k).op i = s.op i := by
  obtain ⟨a, b, c, e_⟩ := s.suspectUpdate_shape d x y k; rw [e_]; rfl
@[simp] theorem State.suspectUpdate_pos (d : Drive) (x y : Track) (k : FaultKind) (i : Drive) : (s.suspectUpdate d x y k).pos i = s.pos i := by
  obtain ⟨a, b, c, e_⟩ := s.suspectUpdate_shape d x y k; rw [e_]; rfl
@[simp] theorem State.suspectUpdate_share (d : Drive) (x y : Track) (k : FaultKind) (i : Drive) : (s.suspectUpdate d x y k).share i = s.share i := by
  obtain ⟨a, b, c, e_⟩ := s.suspectUpdate_shape d x y k; rw [e_]; rfl
@[simp] theorem State.suspectUpdate_record (d : Drive) (x y : Track) (k : FaultKind) (i : Drive) : (s.suspectUpdate d x y k).record i = s.record i := by
  obtain ⟨a, b, c, e_⟩ := s.suspectUpdate_shape d x y k; rw [e_]; rfl
@[simp] theorem State.suspectUpdate_path (d : Drive) (x y : Track) (k : FaultKind) (i : PathNo) : (s.suspectUpdate d x y k).path i = s.path i := by
  obtain ⟨a, b, c, e_⟩ := s.suspectUpdate_shape d x y k; rw [e_]; rfl
@[simp] theorem State.suspectUpdate_finish (d : Drive) (x y : Track) (k : FaultKind) (i : Drive) : (s.suspectUpdate d x y k).finish i = s.finish i := by
  obtain ⟨a, b, c, e_⟩ := s.suspectUpdate_shape d x y k; rw [e_]; rfl
@[simp] theorem State.suspectUpdate_typeOf (d : Drive) (x y : Track) (k : FaultKind) (i : Drive) : (s.suspectUpdate d x y k).typeOf i = s.typeOf i := by
  obtain ⟨a, b, c, e_⟩ := s.suspectUpdate_shape d x y k; rw [e_]; rfl

/-! ## The record of an alternate operation at a fault and at its end -/

@[simp] theorem AltOp.meets_firstFault (a : AltOp) (k : FaultKind) (det : Detail) :
    (a.meets k det).firstFault = (a.firstFault <|> some (k, det)) := rfl
@[simp] theorem AltOp.meets_step (a : AltOp) (k : FaultKind) (det : Detail) : (a.meets k det).step = a.step := rfl
@[simp] theorem AltOp.meets_writePassed (a : AltOp) (k : FaultKind) (det : Detail) : (a.meets k det).writePassed = a.writePassed := rfl
@[simp] theorem AltOp.meets_candidate (a : AltOp) (k : FaultKind) (det : Detail) : (a.meets k det).candidate = a.candidate := rfl
@[simp] theorem AltOp.meets_tried (a : AltOp) (k : FaultKind) (det : Detail) : (a.meets k det).tried = a.tried := rfl
@[simp] theorem AltOp.meets_hasEntry (a : AltOp) (k : FaultKind) (det : Detail) : (a.meets k det).hasEntry = a.hasEntry := rfl
@[simp] theorem AltOp.meets_fresh (a : AltOp) (k : FaultKind) (det : Detail) : (a.meets k det).fresh = a.fresh := rfl
@[simp] theorem AltOp.meets_old (a : AltOp) (k : FaultKind) (det : Detail) : (a.meets k det).old = a.old := rfl
@[simp] theorem AltOp.meets_issuerHeld (a : AltOp) (k : FaultKind) (det : Detail) : (a.meets k det).issuerHeld = a.issuerHeld := rfl
@[simp] theorem AltOp.meets_marked (a : AltOp) (k : FaultKind) (det : Detail) : (a.meets k det).marked = a.marked := rfl
@[simp] theorem AltOp.meets_retired (a : AltOp) (k : FaultKind) (det : Detail) : (a.meets k det).retired = a.retired := rfl
@[simp] theorem AltOp.ended_step (a : AltOp) (out : AltOutcome) : (a.ended out).step = a.step := by cases out <;> rfl
@[simp] theorem AltOp.ended_writePassed (a : AltOp) (out : AltOutcome) : (a.ended out).writePassed = a.writePassed := by cases out <;> rfl
@[simp] theorem AltOp.ended_candidate (a : AltOp) (out : AltOutcome) : (a.ended out).candidate = a.candidate := by cases out <;> rfl
@[simp] theorem AltOp.ended_tried (a : AltOp) (out : AltOutcome) : (a.ended out).tried = a.tried := by cases out <;> rfl
@[simp] theorem AltOp.ended_hasEntry (a : AltOp) (out : AltOutcome) : (a.ended out).hasEntry = a.hasEntry := by cases out <;> rfl
@[simp] theorem AltOp.ended_fresh (a : AltOp) (out : AltOutcome) : (a.ended out).fresh = a.fresh := by cases out <;> rfl
@[simp] theorem AltOp.ended_old (a : AltOp) (out : AltOutcome) : (a.ended out).old = a.old := by cases out <;> rfl
@[simp] theorem AltOp.ended_issuerHeld (a : AltOp) (out : AltOutcome) : (a.ended out).issuerHeld = a.issuerHeld := by cases out <;> rfl
@[simp] theorem AltOp.ended_marked (a : AltOp) (out : AltOutcome) : (a.ended out).marked = a.marked := by cases out <;> rfl
@[simp] theorem AltOp.ended_retired (a : AltOp) (out : AltOutcome) : (a.ended out).retired = a.retired := by cases out <;> rfl

/-! ## What the fields and frames of a connection are read and counted for -/

theorem Operation.homeAgain_iff (o : Operation) :
    o.homeAgain = true ↔ o.rereadDue = true ∧ ∃ r, o.cmd = some (.read r) ∧ r.phase = .home := by
  unfold Operation.homeAgain
  rcases o.cmd with _ | c
  · simp
  · cases c <;> simp [and_comm]

theorem State.idArrives_eq (d : Drive) (p : Port) (o : Operation) (x : IdRead) :
    s.idArrives d p o x = if o.lost = false ∧ (s.inTime d o x.start = true ∨ o.homeAgain = true) then s.idRead d p o x else s := by
  unfold State.idArrives State.reaches
  cases o.lost <;> cases s.inTime d o x.start <;> cases o.homeAgain <;> rfl

theorem State.countsSent_iff (d : Drive) (p : Port) :
    s.countsSent d p = true ↔
      ∃ o, s.op d = some o ∧ (o.conn = some p ∨ (s.port p).draining = true ∧ o.leaving.has p = true) := by
  unfold State.countsSent State.opOn
  cases s.op d with
  | none => simp
  | some o => by_cases h : o.conn = some p <;> simp [h]

end Sys2Proof.Machine
end

