-- ==== Sys2Proof/Laws/Commands.lean ====
section
/-! SUPPORT. What the commands keep: the few that change the frame, each with the item it changes, and the shape every
command has around its own effect. -/

namespace Sys2Proof.Machine

open Sys2Proof

variable {K : Frame} {s : State}

/-! ## Changes of the frame -/

/-- The frame with one drive's counter and write-protect setting replaced. -/
def Frame.withSpindle (K : Frame) (d : Drive) (a : Option Nat) (w : Bool) : Frame :=
  { K with angle := Function.update K.angle d a, protect := Function.update K.protect d w }

/-- The frame with one port's group and masks replaced. -/
def Frame.withPort (K : Frame) (p : Port) (g : Nat) (m : Bool × Bool) : Frame :=
  { K with group := Function.update K.group p g, mask := Function.update K.mask p m }

/-- The frame with one drive's record replaced. -/
def Frame.withRecord (K : Frame) (d : Drive) (r : DriveRecord) : Frame :=
  { K with table := Function.update K.table d (r.configured, r.typeNo, r.writePermitted)
           cursor := Function.update K.cursor d r.cursor }

/-- The frame without the laws of one block, for the steps between which they do not hold. -/
def Frame.lawless (K : Frame) : Frame := { K with lawful := False }

theorem Kept.unlaw (h : Kept K s) : Kept K.lawless s :=
  ⟨h.powered, h.pending, h.types, h.now, h.settings, h.angle, h.protect, h.table, h.cursor, h.opened, False.elim, h.joined⟩

/-- The laws of one block hold again. -/
theorem Kept.relaw (h : Kept K.lawless s) (hs : K.lawful → s.Sound) : Kept K s :=
  ⟨h.powered, h.pending, h.types, h.now, h.settings, h.angle, h.protect, h.table, h.cursor, h.opened, hs, h.joined⟩

/-- The frame with no drive to stay idle: an operation may begin. -/
def Frame.opening (K : Frame) : Frame := { K with idle := fun _ => False }

theorem Kept.opens (h : Kept K s) : Kept K.opening s :=
  ⟨h.powered, h.pending, h.types, h.now, h.settings, h.angle, h.protect, h.table, h.cursor, fun _ => False.elim, h.sound, h.joined⟩

theorem State.modPos_spindle (h : Kept K s) (d : Drive) (f : Positioner → Positioner)
    (hf : (s.pos d).unanswered ≤ 2 → (f (s.pos d)).unanswered ≤ 2)
    (ha : K.lawful → (s.record d).configured = true → ∀ a, (f (s.pos d)).angle = some a → a < (s.typeOf d).sectors) :
    Kept (K.withSpindle d (f (s.pos d)).angle (f (s.pos d)).writeProtect) (s.modPos d f) := by
  refine ⟨h.powered, h.pending, h.types, h.now, h.settings, fun e => ?_, fun e => ?_, h.table, h.cursor, h.opened,
    fun hl => { h.sound hl with unanswered := fun e => ?_, counters := fun e hc a e1 => ?_ },
    fun hj => (h.joined hj).same rfl rfl rfl⟩
  · rw [State.modPos_pos]
    by_cases hd : d = e
    · subst hd; simp [Frame.withSpindle]
    · rw [if_neg hd]; simp only [Frame.withSpindle, Function.update_of_ne (Ne.symm hd)]; exact h.angle e
  · rw [State.modPos_pos]
    by_cases hd : d = e
    · subst hd; simp [Frame.withSpindle]
    · rw [if_neg hd]; simp only [Frame.withSpindle, Function.update_of_ne (Ne.symm hd)]; exact h.protect e
  · rw [State.modPos_pos]
    split
    · exact hf ((h.sound hl).unanswered d)
    · exact (h.sound hl).unanswered e
  · rw [State.modPos_pos] at e1
    split at e1
    · subst_vars; exact ha hl hc a e1
    · exact (h.sound hl).counters e hc a e1

theorem State.modPort_settings_loose (h : Kept K s) (p : Port) (f : PortRec → PortRec) (g : Nat) (m : Bool × Bool)
    (hf : ∀ r : PortRec, r.settings = (K.straps p, K.group p, K.mask p) → (f r).settings = (K.straps p, g, m))
    (hv : (f (s.port p)).overflow = true → (s.port p).overflow = true := by exact fun h => h)
    (hb : (s.port p).bufferSound → (f (s.port p)).bufferSound := by exact fun h => h) :
    Kept (K.withPort p g m).loose (s.modPort p f) := by
  refine ⟨h.powered, h.pending, h.types, h.now, fun q => ?_, h.angle, h.protect, h.table, h.cursor, h.opened,
    fun hl => { h.sound hl with overflow := fun q => ?_, buffers := fun q => ?_ }, False.elim⟩
  · rw [State.modPort_port]
    by_cases hp : p = q
    · subst hp
      rw [if_pos rfl, hf _ (h.settings p)]
      simp [Frame.withPort, Frame.loose]
    · rw [if_neg hp]
      simp only [Frame.withPort, Frame.loose, Function.update_of_ne (Ne.symm hp)]
      exact h.settings q
  · rw [State.modPort_port]
    split
    · subst_vars; exact fun e => (h.sound hl).overflow _ (hv e)
    · exact (h.sound hl).overflow q
  · rw [State.modPort_port]
    split
    · subst_vars; exact hb ((h.sound hl).buffers _)
    · exact (h.sound hl).buffers q

theorem State.modPort_settings (h : Kept K s) (p : Port) (f : PortRec → PortRec) (g : Nat) (m : Bool × Bool)
    (hf : ∀ r : PortRec, r.settings = (K.straps p, K.group p, K.mask p) → (f r).settings = (K.straps p, g, m))
    (hs : ∀ r, (f r).stance = r.stance := by intro r; rfl)
    (hv : (f (s.port p)).overflow = true → (s.port p).overflow = true := by exact fun h => h)
    (hb : (s.port p).bufferSound → (f (s.port p)).bufferSound := by exact fun h => h) : Kept (K.withPort p g m) (s.modPort p f) := by
  refine (State.modPort_settings_loose h p f g m hf hv hb).rejoin fun hj => (h.joined hj).of (fun q => .inl ?_) (fun _ _ e => e) (fun _ _ e => e)
  rw [State.modPort_port]
  split
  · subst_vars; exact hs _
  · rfl

theorem State.setRecord_table (h : Kept K s) (d : Drive) (r : DriveRecord) :
    Kept (K.withRecord d r).lawless (s.setRecord d r) := by
  refine ⟨h.powered, h.pending, h.types, h.now, h.settings, h.angle, h.protect, fun e => ?_, fun e => ?_, h.opened,
    False.elim, fun hj => (h.joined hj).same rfl rfl rfl⟩
  · rw [State.setRecord_record]
    by_cases hd : d = e
    · subst hd; simp [Frame.withRecord, Frame.lawless]
    · rw [if_neg hd]; simp only [Frame.withRecord, Frame.lawless, Function.update_of_ne (Ne.symm hd)]; exact h.table e
  · rw [State.setRecord_record]
    by_cases hd : d = e
    · subst hd; simp [Frame.withRecord, Frame.lawless]
    · rw [if_neg hd]; simp only [Frame.withRecord, Frame.lawless, Function.update_of_ne (Ne.symm hd)]; exact h.cursor e

/-- A list of checks none of which fails. -/
theorem firstFailing_none {l : List (Nat × Bool)} (h : firstFailing l = none) : ∀ x ∈ l, x.2 = true := by
  intro x hx
  have h1 := Option.map_eq_none_iff.mp h
  rw [List.find?_eq_none] at h1
  simpa using h1 x hx

/-- A type whose shape fields are those of the type loaded has its tracks where that has them, and as many sectors. -/
theorem DriveType.same_shape {t old : DriveType} (h : firstFailing (t.shapeChecks old) = none) :
    t.isHome = old.isHome ∧ t.isAlternate = old.isAlternate ∧ t.sectors = old.sectors := by
  have h := firstFailing_none h
  simp only [DriveType.shapeChecks, List.mem_cons, List.not_mem_nil, or_false, forall_eq_or_imp, forall_eq, decide_eq_true_eq] at h
  obtain ⟨h1, h2, h3, h4, -⟩ := h
  refine ⟨funext fun x => ?_, funext fun x => ?_, h4⟩
  · unfold DriveType.isHome; rw [h1, h3]
  · unfold DriveType.isAlternate; rw [h1, h2, h3]

theorem mem_allDrives (d : Drive) : d ∈ allDrives := by revert d; decide

/-- A type loaded (R22). -/
theorem State.setType_types (h : Kept K s) (ty : TypeNo) (t : DriveType) (hr : firstFailing t.checks = none)
    (hs : s.shapeDiffers ty t = none) :
    Kept { K with types := K.types.set ty (some t) } (s.setType ty t) := by
  have hty : ∀ d, (s.setType ty t).loadedType d = if (s.record d).typeNo = ty then some t else s.loadedType d := by
    intro d
    show (s.types.set ty (some t))[(s.record d).typeNo] = _
    simp only [Fin.getElem_fin, Vector.getElem_set, Fin.ext_iff, eq_comm]
    rfl
  have hk : K.lawful → ∀ d, (s.record d).configured = true →
      ((s.setType ty t).typeOf d).isHome = (s.typeOf d).isHome ∧ ((s.setType ty t).typeOf d).isAlternate = (s.typeOf d).isAlternate ∧
      ((s.setType ty t).typeOf d).sectors = (s.typeOf d).sectors := by
    intro hl d hc
    unfold State.typeOf
    rw [hty]
    split
    · rename_i hn
      obtain ⟨old, ho⟩ := Option.isSome_iff_exists.mp ((h.sound hl).loaded d hc)
      have ho' : s.types[ty] = some old := by subst hn; exact ho
      unfold State.shapeDiffers at hs
      rw [ho'] at hs
      dsimp only at hs
      rw [if_pos (List.any_eq_true.mpr ⟨d, mem_allDrives d, by simp [State.names, hc, hn]⟩)] at hs
      rw [ho]
      exact DriveType.same_shape hs
    · exact ⟨rfl, rfl, rfl⟩
  refine ⟨h.powered, h.pending, by simp [State.setType, h.types], h.now, h.settings, h.angle, h.protect, h.table, h.cursor, h.opened,
    fun hl => { h.sound hl with inPlace := fun e he => ?_, sectors := fun n x hx => ?_, loaded := fun d hd => ?_,
                                counters := fun d hd a ha => ?_ }, fun hj => (h.joined hj).same rfl rfl rfl⟩
  · obtain ⟨h1, h2, h3⟩ := (h.sound hl).inPlace e he
    obtain ⟨k1, k2, -⟩ := hk hl e.drive h1
    exact ⟨h1, by rw [k1]; exact h2, fun q hq => by rw [k2]; exact h3 q hq⟩
  · have hx : (s.types.set ty (some t))[n] = some x := hx
    simp only [Fin.getElem_fin, Vector.getElem_set] at hx
    split at hx
    · cases hx
      have := firstFailing_none hr (5, decide (32 ≤ t.sectors ∧ t.sectors ≤ 128)) (by simp [DriveType.checks])
      simp only [decide_eq_true_eq] at this
      omega
    · exact (h.sound hl).sectors n x hx
  · rw [hty]
    split
    · rfl
    · exact (h.sound hl).loaded d hd
  · rw [(hk hl d hd).2.2]
    exact (h.sound hl).counters d hd a ha

/-- The positioner's counter after a load of its record (R27). -/
def loadedAngle (old new : DriveRecord) (a : Option Nat) : Option Nat := if old.changesType new then none else a

theorem Positioner.retype_keeps (q : Positioner) :
    q.retype.angle = none ∧ q.retype.writeProtect = q.writeProtect ∧ q.retype.unanswered = q.unanswered := by
  unfold Positioner.retype
  split <;> exact ⟨rfl, rfl, rfl⟩

/-- The loads that do not change the type leave a configured record's type as it was (R27). -/
theorem DriveRecord.changesType_false {old new : DriveRecord} (h : old.changesType new = false) (hn : new.configured = true) :
    old.configured = true ∧ old.typeNo = new.typeNo := by
  simp only [DriveRecord.changesType, Bool.or_eq_false_iff, decide_eq_false_iff_not, not_not] at h
  have hc : old.configured = true := h.1.trans hn
  simp [hc, hn] at h
  exact ⟨hc, h⟩

/-- A record loaded (R26, R27). -/
theorem State.loadRecord_table (h : Kept K s) (d : Drive) (r : DriveRecord)
    (hr : r.configured = true → (s.types[r.typeNo]).isSome = true) :
    Kept ((K.withRecord d r).withSpindle d (loadedAngle (s.record d) r (s.pos d).angle) (s.pos d).writeProtect)
      (s.loadRecord d r) := by
  have hkept : Kept ((K.withRecord d r).withSpindle d (loadedAngle (s.record d) r (s.pos d).angle) (s.pos d).writeProtect).lawless
      (s.loadRecord d r) := by
    unfold State.loadRecord loadedAngle
    dsimp only
    have h1 := State.removeSuspectsOf_kept (State.deleteEntriesOf_kept (State.setRecord_table h d r) d) d
    have h2 := State.modPos_spindle h1 d (fun q =>
      let q := { q with status := none }
      if (s.record d).changesType r then q.retype else q) (by
        intro hu
        dsimp only
        split
        · rw [(Positioner.retype_keeps _).2.2]; exact hu
        · exact hu) (fun hl => hl.elim)
    revert h2
    dsimp only
    split
    · rw [(Positioner.retype_keeps _).1, (Positioner.retype_keeps _).2.1]; exact fun h => h
    · exact fun h => h
  refine hkept.relaw fun hl => ?_
  have hs := h.sound hl
  have hrec : ∀ e, (s.loadRecord d r).record e = if d = e then r else s.record e := fun e => State.setRecord_record s d r e
  have hpos : ∀ e, e ≠ d → (s.loadRecord d r).pos e = s.pos e := fun e he => by
    unfold State.loadRecord
    rw [State.modPos_pos, if_neg (Ne.symm he)]
    rfl
  have hty : ∀ e, e ≠ d → (s.loadRecord d r).loadedType e = s.loadedType e := fun e he =>
    congrArg (fun x : DriveRecord => s.types[x.typeNo]) ((hrec e).trans (if_neg (Ne.symm he)))
  have hself : (s.loadRecord d r).loadedType d = s.types[r.typeNo] :=
    congrArg (fun x : DriveRecord => s.types[x.typeNo]) ((hrec d).trans (if_pos rfl))
  refine { hs with suspects := ?_, map := ?_, apart := ?_, unanswered := fun e => ?_, inPlace := fun e he => ?_,
                   loaded := fun e he => ?_, counters := fun e he a ha => ?_ }
  · exact suspectsSound_filter _ _ hs.suspects
  · exact Nat.le_trans (List.length_filter_le _ _) hs.map
  · exact hs.apart.sublist List.filter_sublist
  · by_cases hd : e = d
    · subst hd
      unfold State.loadRecord
      rw [State.modPos_pos, if_pos rfl]
      dsimp only
      split
      · rw [(Positioner.retype_keeps _).2.2]; exact hs.unanswered e
      · exact hs.unanswered e
    · rw [hpos e hd]; exact hs.unanswered e
  · have hm := List.mem_filter.mp he
    have hd : e.drive ≠ d := by simpa using hm.2
    obtain ⟨h1, h2, h3⟩ := hs.inPlace e hm.1
    have ht : (s.loadRecord d r).typeOf e.drive = s.typeOf e.drive := by unfold State.typeOf; rw [hty _ hd]
    exact ⟨by rw [hrec, if_neg (Ne.symm hd)]; exact h1, ht ▸ h2, fun q hq => ht ▸ h3 q hq⟩
  · by_cases hd : e = d
    · subst hd
      rw [hself]
      rw [hrec, if_pos rfl] at he
      exact hr he
    · rw [hty e hd]
      rw [hrec, if_neg (Ne.symm hd)] at he
      exact hs.loaded e he
  · by_cases hd : e = d
    · subst hd
      rw [hrec, if_pos rfl] at he
      have ha' : loadedAngle (s.record e) r (s.pos e).angle = some a := by
        have := hkept.angle e
        rw [ha] at this
        simpa [Frame.lawless, Frame.withSpindle] using this.symm
      unfold loadedAngle at ha'
      split at ha'
      · cases ha'
      · rename_i hc
        obtain ⟨h1, h2⟩ := DriveRecord.changesType_false (Bool.eq_false_iff.mpr hc) he
        have ht : (s.loadRecord e r).typeOf e = s.typeOf e := by
          unfold State.typeOf
          rw [hself]
          exact congrArg (Option.getD · DriveType.absent) (congrArg (fun n : TypeNo => s.types[n]) h2.symm)
        rw [ht]
        exact hs.counters e h1 a ha'
    · rw [hrec, if_neg (Ne.symm hd)] at he
      rw [hpos e hd] at ha
      have ht : (s.loadRecord d r).typeOf e = s.typeOf e := by unfold State.typeOf; rw [hty e hd]
      rw [ht]
      exact hs.counters e he a ha

/-- A port's group changed (R158). -/
theorem State.setGroup_group (h : Kept K s) (p : Port) (g : Nat) :
    Kept (K.withPort p g (K.mask p)) (s.setGroup p g) := by
  unfold State.setGroup
  split
  · rename_i hg
    have hs := h.settings p
    have hg' : K.group p = g := by simp only [PortRec.settings, Prod.mk.injEq] at hs; rw [← hs.2.1]; exact hg
    have : K.withPort p g (K.mask p) = K := by subst hg'; simp [Frame.withPort]
    rw [this]
    exact h
  refine State.forDrives_kept (State.modPort_settings h p (fun r => { r with group := g }) g (K.mask p) (by
    intro r hr; simp only [PortRec.settings, Prod.mk.injEq] at hr ⊢; simp [hr])) _ fun t d ht => ?_
  refine State.dropUnclaimed_kept ?_ d
  split
  · exact State.owedTest_kept ht d
  · exact ht

theorem PortRec.reset_bufferSound (r : PortRec) : r.reset.bufferSound :=
  PortRec.bufferSound_empty (afterConnection_slots r.withoutOffer.link) rfl rfl

theorem PortRec.reset_overflow {r : PortRec} (h : r.reset.overflow = true) : r.overflow = true := by cases h

/-- PORT RESET sets the port's group to 0 and enables both masks (R140, R154). -/
theorem State.resetPort_settings (h : Kept K s) (p : Port) : Kept (K.withPort p 0 (true, true)) (s.resetPort p) := by
  unfold State.resetPort
  dsimp only
  have h1 := State.forDrives_kept (State.deferOffer_kept h p) (fun s d => s.leavePortWrite d p)
    fun _ d ht => State.leavePortWrite_kept ht d p
  have h2 := State.freePathOfPort_kept (State.modPort_settings_loose h1 p PortRec.reset 0 (true, true) (by
    intro r hr; simp only [PortRec.settings, PortRec.reset, PortRec.withoutOffer, PortRec.disconnected, Prod.mk.injEq] at hr ⊢; simp [hr])
    PortRec.reset_overflow fun _ => PortRec.reset_bufferSound _) p
  have h2 := h2.rejoin fun hj => (h1.joined hj).freed p _ (PortRec.agrees_bare rfl rfl (fun h => by cases h) (fun h => by cases h))
  have h3 := State.emptyQueue_kept (State.forgetDeferral_kept h2 p) p false (by
    rw [State.forgetDeferral_port, State.freePathOfPort_port, State.modPort_port, if_pos rfl, PortRec.reset])
  have h4 := State.forDrives_kept h3 (fun t d => t.resetSharing d p (s.port p).group)
    fun _ d ht => State.resetSharing_kept ht d p _
  split
  · exact State.modPort_kept h4 p _ (by intro; rfl)
  · exact State.endReset_kept h4 p

/-- READY GAINED (R51). -/
theorem State.gainReady_spindle (h : Kept K s) (d : Drive) :
    Kept K (s.gainReady d) ∨ (s.pos d).actuator = .notReady ∧
      Kept (K.withSpindle d none (s.pos d).writeProtect) (s.gainReady d) := by
  unfold State.gainReady
  split
  · rename_i ha
    exact .inr ⟨ha, State.postStateChange_kept (State.removeSuspectsOf_kept (State.staleEntries_kept
      (State.modPos_spindle h d Positioner.readyGained (fun _ => Nat.zero_le _) (fun _ _ _ h => by cases h)) d) d) s d⟩
  · exact .inl h

/-- READY LOST (R50). -/
theorem State.loseReady_spindle (h : Kept K s) (d : Drive) : Kept (K.withSpindle d none false) (s.loseReady d) := by
  unfold State.loseReady
  dsimp only
  have h1 := State.modPos_spindle h d (fun _ => Positioner.notReady) (fun _ => Nat.zero_le _) (fun _ _ _ h => by cases h)
  have h2 := State.freePaths_kept (State.loseOperation_kept (State.forPorts_kept (State.dropFinishing_kept h1 d)
    (fun s p => s.losePort d p) fun _ p ht => State.losePort_kept ht d p) d) fun x => decide (x.drive = d)
  exact State.postStateChange_kept (State.freeAllOwed_kept
    (State.modShare_kept h2 d (fun x => { x with owner := none, hold := none }) (by intro x hx; cases hx)) d none) s d

/-- One tick of the timebase keeps all but the timebase. -/
theorem State.tick_kept (h : Kept K s) : Kept (K.later 1) s.tick :=
  State.serveClaims_kept (State.forPorts_kept (State.forDrives_kept (State.now_kept (State.settle_kept h) 1)
    State.deadlineExpire fun _ d ht => State.deadlineExpire_kept ht d) State.unitIdleExpire
    fun _ p ht => State.unitIdleExpire_kept ht p)

theorem Frame.later_zero (K : Frame) : K.later 0 = K := rfl

theorem Frame.later_later (K : Frame) (m n : Nat) : (K.later m).later n = K.later (m + n) := by
  simp [Frame.later, Nat.add_assoc]

/-- So many ticks keep all but the timebase, which they move up by as much. -/
theorem State.passTime_kept (h : Kept K s) (n : Nat) : Kept (K.later n) (s.passTime n) := by
  unfold State.passTime
  induction n with
  | zero => exact h
  | succ n ih =>
    rw [Function.iterate_succ_apply', ← Frame.later_later]
    exact State.tick_kept ih

theorem State.reachTime_kept (h : Kept K s) (timer : Option Nat) : ∃ n, Kept (K.later n) (s.reachTime timer) := by
  unfold State.reachTime
  split
  · exact ⟨_, State.passTime_kept h _⟩
  · exact ⟨0, h⟩

/-! ## The shape of every command -/

/-- What a command of the outside answers. -/
theorem State.perform_eq (s : State) (f : State → State) :
    s.perform f = .next (if s.powered then (f s.settle).serveClaims else s) := rfl

/-- Before POWER ON a command changes nothing (R189). -/
theorem State.perform_unpowered (f : State → State) (h : s.powered = false) : s.perform f = .next s := by
  simp [State.perform, h]

theorem State.perform_finds {u : State} (f : State → State) (h : s.Finds u) : s.perform f = .next (f u).serveClaims := by
  obtain ⟨h1, rfl⟩ := h
  simp [State.perform, h1]

theorem State.performInner_finds {u : State} (d : Drive) (f : State → State) (h : s.FindsInner d u) :
    s.performInner d f = .next (f u).serveClaims := by
  obtain ⟨h1, rfl⟩ := h
  simp [State.performInner, h1]

/-- A command whose own effect keeps all keeps all. -/
theorem State.perform_kept (hk : Kept K s) (f : State → State) (hf : ∀ t, Kept K t → Kept K (f t)) {t : State}
    (e : s.perform f = .next t) : Kept K t := by
  rw [State.perform_eq] at e
  cases e
  split
  · exact State.serveClaims_kept (hf _ (State.settle_kept hk))
  · exact hk

theorem State.performInner_kept (hk : Kept K s) (d : Drive) (f : State → State) (hf : ∀ t, Kept K t → Kept K (f t))
    {t : State} (e : s.performInner d f = .next t) : Kept K t := by
  unfold State.performInner at e
  cases e
  split
  · refine State.serveClaims_kept (hf _ ?_)
    split
    · exact hk
    · exact State.settle_kept hk
  · exact hk

/-- A command that changes the frame: nothing before POWER ON, else its own effect on the settled state and then claims. -/
theorem State.perform_cases (hk : Kept K s) (f : State → State) {t : State} (e : s.perform f = .next t) :
    (s.powered = false ∧ t = s) ∨ (s.powered = true ∧ Kept K s.settle ∧ t = (f s.settle).serveClaims) := by
  rw [State.perform_eq] at e
  cases e
  cases hp : s.powered with
  | false => exact .inl ⟨rfl, by simp⟩
  | true => exact .inr ⟨rfl, State.settle_kept hk, by simp⟩

/-- What a unit order can do: nothing of its own, or its effect on a state that keeps all. -/
theorem State.unitOrderAs_cases (hk : Kept K s) (h : Hdr) (e : StopEnd) (take : State → State) :
    Kept K (s.unitOrderAs h e take) ∨ ∃ t, Kept K t ∧ s.unitOrderAs h e take = take t := by
  unfold State.unitOrderAs
  split
  · rename_i e; exact .inl (State.receive_kept hk h e)
  · rename_i e; exact .inl (State.neverFirst_kept (State.receive_kept hk h e) _ _)
  · rename_i e; exact .inl (State.refuseWithin_kept (State.receive_kept hk h e) _ _ _)
  · rename_i e; exact .inr ⟨_, State.modPort_kept (State.receive_kept hk h e) _ _ (by intro; rfl), rfl⟩
  · rename_i e
    have hr := State.receive_kept hk h e
    split
    · exact .inl (State.unitRefuse_kept hr _)
    · exact .inr ⟨_, State.modPort_kept hr _ _ (by intro; rfl), rfl⟩

theorem State.unitOrder_cases (hk : Kept K s) (h : Hdr) (take : State → State) :
    Kept K (s.unitOrder h take) ∨ ∃ t, Kept K t ∧ s.unitOrder h take = take t := State.unitOrderAs_cases hk h _ take

/-- The same of an order that needs the control strap (R185). -/
theorem State.controlOrder_cases (hk : Kept K s) (h : Hdr) (take : State → State) :
    Kept K (s.controlOrder h take) ∨ ∃ t, Kept K t ∧ s.controlOrder h take = take t := by
  rcases State.unitOrder_cases hk h (fun s => if (s.port h.port).straps.control then take s else s.unitReject h.port 0)
    with h1 | ⟨t, ht, e⟩
  · exact .inl h1
  · unfold State.controlOrder
    rw [e]
    cases hc : (t.port h.port).straps.control with
    | false => exact .inl (by simpa using State.unitReject_kept ht h.port 0)
    | true => exact .inr ⟨t, ht, by simp⟩

end Sys2Proof.Machine
end

