-- ==== Sys2Proof/Laws/Exec.lean ====
section
/-! SUPPORT. What exec keeps: every command but thirteen keeps the whole frame, one lemma a command, and what the
thirteen change. -/

namespace Sys2Proof.Machine

open Sys2Proof

variable {K : Frame} {s t : State}

theorem execLocate_kept (hk : Kept K s) (h : Hdr) (x : Track) (r o : Nat)
    (e : execLocate h x r o s = .next t) : Kept K.opening t := by
  unfold execLocate at e
  exact State.perform_kept hk.opens _ (fun _ hu => State.selectOnly_kept hu h _ fun _ d hv => State.admitEnding_kept hv d _ _
    fun _ hw h1 h2 => State.takeLocate_kept hw d _ _ _ _ h1 h2 id) e

theorem execRecalibrate_kept (hk : Kept K s) (h : Hdr) (e : execRecalibrate h s = .next t) : Kept K.opening t := by
  unfold execRecalibrate at e
  exact State.perform_kept hk.opens _ (fun _ hu => State.selectOnly_kept hu h _ fun _ d hv => State.admitEnding_kept hv d _ _
    fun _ hw _ h2 => State.takeRecalibrate_kept hw d _ h2 id) e

theorem execSearch_kept (hk : Kept K s) (h : Hdr) (c : Nat) (a : List Byte) (e : execSearch h c a s = .next t) : Kept K t := by
  unfold execSearch at e
  exact State.perform_kept hk _ (fun _ hu => State.operationOnly_kept hu h _ fun _ d o hv => State.takeSearch_kept hv d _ o c a) e

theorem execRead_kept (hk : Kept K s) (h : Hdr) (c a : Nat) (e : execRead h c a s = .next t) : Kept K t := by
  unfold execRead at e
  exact State.perform_kept hk _ (fun _ hu => State.operationOnly_kept hu h _ fun _ d o hv => State.takeRead_kept hv d _ o c a) e

theorem execWrite_kept (hk : Kept K s) (h : Hdr) (c : Nat) (e : execWrite h c s = .next t) : Kept K t := by
  unfold execWrite at e
  exact State.perform_kept hk _ (fun _ hu => State.operationOnly_kept hu h _ fun _ d o hv => State.takeWrite_kept hv d _ o c) e

theorem execFormatTrack_kept (hk : Kept K s) (h : Hdr) (c : List Descriptor) (e : execFormatTrack h c s = .next t) : Kept K t := by
  unfold execFormatTrack at e
  exact State.perform_kept hk _ (fun _ hu => State.operationOnly_kept hu h _ fun _ d o hv => State.takeFormat_kept hv d _ o c) e

theorem execReadDriveState_kept (hk : Kept K s) (h : Hdr) (e : execReadDriveState h s = .next t) : Kept K t := by
  unfold execReadDriveState at e
  exact State.perform_kept hk _ (fun _ hu => State.driveCommand_kept hu h false _ _ _ (fun _ d hv =>
    State.driveStateAnswer_kept hv d _) (fun _ d _ hv => State.driveStateAnswer_kept (State.setCmd_kept hv d _) d _)
    (fun _ d hv => State.driveStateAnswer_kept hv d _)) e

theorem execReadFaultRecord_kept (hk : Kept K s) (h : Hdr) (e : execReadFaultRecord h s = .next t) : Kept K t := by
  unfold execReadFaultRecord at e
  exact State.perform_kept hk _ (fun _ hu => State.sharingCommand_kept hu h false _ fun _ d hv =>
    State.passAdmission_kept hv d _ _ _ fun _ => State.takeFaultRecord_kept hv d _) e

theorem execReserve_kept (hk : Kept K s) (h : Hdr) (e : execReserve h s = .next t) : Kept K t := by
  unfold execReserve at e
  exact State.perform_kept hk _ (fun _ hu => State.sharingCommand_kept hu h true _ fun _ d hv =>
    State.admitEnding_kept hv d _ _ fun _ hw h1 _ => State.takeReserve_kept hw d _ h1) e

theorem execReserveUnconditional_kept (hk : Kept K s) (h : Hdr) (e : execReserveUnconditional h s = .next t) : Kept K t := by
  unfold execReserveUnconditional at e
  exact State.perform_kept hk _ (fun _ hu => State.sharingCommand_kept hu h false _ fun _ d hv =>
    State.passAdmission_kept hv d _ _ _ fun _ => State.takeReserveUnconditional_kept hv d _) e

theorem execRelease_kept (hk : Kept K s) (h : Hdr) (e : execRelease h s = .next t) : Kept K t := by
  unfold execRelease at e
  exact State.perform_kept hk _ (fun _ hu => State.sharingCommand_kept hu h false _ fun _ d hv =>
    State.passAdmission_kept hv d _ _ _ fun _ => State.takeRelease_kept hv d _) e

theorem execUnknownCommandCode_kept (hk : Kept K s) (h : Hdr) (c : Nat) (ps : List Byte)
    (e : execUnknownCommandCode h c ps s = .next t) : Kept K t := by
  unfold execUnknownCommandCode at e
  exact State.perform_kept hk _ (fun _ hu => State.driveCommand_kept hu h _ _ _ _ (fun _ d hv =>
    State.unknownFirst_kept hv d _ c) (fun _ d _ hv => State.rejectWithin_kept hv d _ _) (fun _ d hv =>
    State.bareReject_kept hv _ d)) e

theorem execReadDriveTables_kept (hk : Kept K s) (h : Hdr) (e : execReadDriveTables h s = .next t) : Kept K t := by
  unfold execReadDriveTables at e
  exact State.perform_kept hk _ (fun _ hu => State.unitOrderAs_kept hu h _ _ fun _ hv => State.answerData_kept hv _ _ _) e

theorem execLoadSpareEntries_kept (hk : Kept K s) (h : Hdr) (es : List SpareItem)
    (e : execLoadSpareEntries h es s = .next t) : Kept K t := by
  unfold execLoadSpareEntries at e
  exact State.perform_kept hk _ (fun _ hu => State.controlOrder_kept hu h _ fun _ hv => State.takeSpareEntries_kept hv _ es) e

theorem execDeleteSpareEntry_kept (hk : Kept K s) (h : Hdr) (d : Nat) (x : Track)
    (e : execDeleteSpareEntry h d x s = .next t) : Kept K t := by
  unfold execDeleteSpareEntry at e
  exact State.perform_kept hk _ (fun _ hu => State.controlOrder_kept hu h _ fun _ hv => State.takeDelete_kept hv _ d x) e

theorem execReadSpareMap_kept (hk : Kept K s) (h : Hdr) (n : Nat) (e : execReadSpareMap h n s = .next t) : Kept K t := by
  unfold execReadSpareMap at e
  exact State.perform_kept hk _ (fun _ hu => State.unitOrder_kept hu h _ fun _ hv => State.takeReadMap_kept hv _ n) e

theorem execAssignAlternate_kept (hk : Kept K s) (h : Hdr) (d : Nat) (x : Track)
    (e : execAssignAlternate h d x s = .next t) : Kept K.opening t := by
  unfold execAssignAlternate at e
  exact State.perform_kept hk.opens _ (fun _ hu => State.controlOrder_kept hu h _ fun _ hv =>
    State.takeAlternate_kept hv _ _ _ _ _ fun e he => State.startAssign_kept hv e _ _ he id) e

theorem execRestoreTrack_kept (hk : Kept K s) (h : Hdr) (d : Nat) (x : Track)
    (e : execRestoreTrack h d x s = .next t) : Kept K.opening t := by
  unfold execRestoreTrack at e
  exact State.perform_kept hk.opens _ (fun _ hu => State.controlOrder_kept hu h _ fun _ hv =>
    State.takeAlternate_kept hv _ _ _ _ _ fun e he => State.startRestore_kept hv e _ _ he id) e

theorem execReadSuspectList_kept (hk : Kept K s) (h : Hdr) (e : execReadSuspectList h s = .next t) : Kept K t := by
  unfold execReadSuspectList at e
  exact State.perform_kept hk _ (fun _ hu => State.unitOrder_kept hu h _ fun _ hv => State.answerData_kept hv _ _ _) e

theorem execReadUnitState_kept (hk : Kept K s) (h : Hdr) (e : execReadUnitState h s = .next t) : Kept K t := by
  unfold execReadUnitState at e
  exact State.perform_kept hk _ (fun _ hu => State.unitOrder_kept hu h _ fun _ hv => State.answerData_kept hv _ _ _) e

theorem execUnitClear_kept (hk : Kept K s) (h : Hdr) (e : execUnitClear h s = .next t) : Kept K t := by
  unfold execUnitClear at e
  exact State.perform_kept hk _ (fun _ hu => State.controlOrder_kept hu h _ fun _ hv =>
    State.sendStatus_kept (State.clearUnit_kept hv _) _ _ _ _) e

theorem execData_kept (hk : Kept K s) (p : Port) (a o c : Nat) (bs : List Byte)
    (e : execData p a o c bs s = .next t) : Kept K t := by
  unfold execData at e
  exact State.perform_kept hk _ (fun _ hu => State.dataIn_kept hu p a o c bs) e

theorem execClose_kept (hk : Kept K s) (p : Port) (a : Nat) (e : execClose p a s = .next t) : Kept K t := by
  unfold execClose at e
  exact State.perform_kept hk _ (fun _ hu => State.closePort_kept hu p a) e

theorem execHalt_kept (hk : Kept K s) (p : Port) (a : Nat) (e : execHalt p a s = .next t) : Kept K t := by
  unfold execHalt at e
  exact State.perform_kept hk _ (fun _ hu => State.haltPort_kept hu p a) e

theorem execTake_kept (hk : Kept K s) (p : Port) (a : Nat) (e : execTake p a s = .next t) : Kept K t := by
  unfold execTake at e
  exact State.perform_kept hk _ (fun _ hu => State.takeOffer_kept hu p a) e

theorem execDefer_kept (hk : Kept K s) (p : Port) (a : Nat) (e : execDefer p a s = .next t) : Kept K t := by
  unfold execDefer at e
  exact State.perform_kept hk _ (fun _ hu => by
    split
    · exact State.deferOffer_kept hu p
    · exact hu) e

theorem execOutboundFrameLeft_kept (hk : Kept K s) (p : Port) (e : execOutboundFrameLeft p s = .next t) : Kept K t := by
  unfold execOutboundFrameLeft at e
  exact State.perform_kept hk _ (fun _ hu => State.frameLeft_kept hu p) e

theorem execOnCylinder_kept (hk : Kept K s) (d : Drive) (e : execOnCylinder d s = .next t) : Kept K t := by
  unfold execOnCylinder at e
  exact State.perform_kept hk _ (fun _ hu =>
    State.fromReady_kept hu d _ (State.motionAnswer_kept hu d _ (State.motionSuccess_kept hu d))) e

theorem execSeekIncomplete_kept (hk : Kept K s) (d : Drive) (e : execSeekIncomplete d s = .next t) : Kept K t := by
  unfold execSeekIncomplete at e
  exact State.perform_kept hk _ (fun _ hu =>
    State.fromReady_kept hu d _ (State.motionAnswer_kept hu d _ (State.motionFailure_kept hu d))) e

theorem execHomeFieldRead_kept (hk : Kept K s) (d : Drive) (c : Option HomeField)
    (e : execHomeFieldRead d c s = .next t) : Kept K t := by
  unfold execHomeFieldRead at e
  exact State.perform_kept hk _ (fun _ hu => State.fromReady_kept hu d _ (State.homeFieldArrives_kept hu d c)) e

theorem execIdFieldRead_kept (hk : Kept K s) (d : Drive) (x : IdRead) (e : execIdFieldRead d x s = .next t) : Kept K t := by
  unfold execIdFieldRead at e
  exact State.perform_kept hk _ (fun _ hu => State.fromReady_kept hu d _ (State.connected_kept hu d _ fun p o =>
    State.idArrives_kept hu d p o x)) e

theorem execKeyFieldRead_kept (hk : Kept K s) (d : Drive) (c : List Byte) (e : execKeyFieldRead d c s = .next t) : Kept K t := by
  unfold execKeyFieldRead at e
  exact State.perform_kept hk _ (fun _ hu => State.fromReady_kept hu d _ (State.connected_kept hu d _ fun p o =>
    State.keyRead_kept hu d p o c)) e

theorem execDataFieldRead_kept (hk : Kept K s) (d : Drive) (bs : List Byte) (ends good : Bool)
    (e : execDataFieldRead d bs ends good s = .next t) : Kept K t := by
  unfold execDataFieldRead at e
  exact State.perform_kept hk _ (fun _ hu => State.fromReady_kept hu d _ (State.connected_kept hu d _ fun p o =>
    State.dataRead_kept hu d p o bs (if ends then some good else none))) e

theorem execFieldWritten_kept (hk : Kept K s) (d : Drive) (g : Bool) (e : execFieldWritten d g s = .next t) : Kept K t := by
  unfold execFieldWritten at e
  exact State.perform_kept hk _ (fun _ hu => State.fromReady_kept hu d _ (State.fieldWritten_kept hu d g)) e

theorem execRequestRaised_kept (hk : Kept K s) (d : Drive) (e : execRequestRaised d s = .next t) : Kept K t := by
  unfold execRequestRaised at e
  exact State.performInner_kept hk _ _ (fun _ hu => State.requestRaise_kept hu d) e

theorem execRequestLapse_kept (hk : Kept K s) (d : Drive) (e : execRequestLapse d s = .next t) : Kept K t := by
  unfold execRequestLapse at e
  exact State.performInner_kept hk _ _ (fun _ hu => State.requestLapse_kept hu d) e

theorem execIdleExpiry_kept (hk : Kept K s) (d : Drive) (e : execIdleExpiry d s = .next t) : Kept K t := by
  unfold execIdleExpiry at e
  exact State.performInner_kept hk _ _ (fun _ hu => State.idleExpire_kept hu d) e

theorem execHoldTimerExpiry_kept (hk : Kept K s) (d : Drive) (e : execHoldTimerExpiry d s = .next t) : Kept K t := by
  unfold execHoldTimerExpiry at e
  exact State.performInner_kept hk _ _ (fun _ hu => State.holdExpire_kept hu d) e

theorem execLocateSearchBound_kept (hk : Kept K s) (d : Drive) (e : execLocateSearchBound d s = .next t) : Kept K t := by
  unfold execLocateSearchBound at e
  exact State.performInner_kept hk _ _ (fun _ hu => State.searchBound_kept hu d) e

theorem execSearchIndexCountLimit_kept (hk : Kept K s) (d : Drive) (e : execSearchIndexCountLimit d s = .next t) : Kept K t := by
  unfold execSearchIndexCountLimit at e
  exact State.performInner_kept hk _ _ (fun _ hu => State.searchLimit_kept hu d) e

theorem execBytesDrawnForWriting_kept (hk : Kept K s) (d : Drive) (e : execBytesDrawnForWriting d s = .next t) : Kept K t := by
  unfold execBytesDrawnForWriting at e
  exact State.perform_kept hk _ (fun _ hu => State.bytesDrawn_kept hu d) e

/-- The commands that may change an item of the frame. -/
def changesFrame : Instr → Bool
  | .powerOn _ _ | .loadDriveType _ _ _ | .loadDriveRecord _ _ _ _ _ _ | .setPathGroup _ _ | .setNoticeMask _ _ _
  | .portReset _ | .sectorMark _ | .indexMark _ | .readyGained _ | .readyLost _ | .writeProtectChange _ _
  | .seekDeadlineExpiry _ | .unitIdleTimerExpiry _ => true
  | _ => false

/-- The commands that may begin an operation. -/
def beginsOperation : Instr → Bool
  | .locate _ _ _ _ | .recalibrate _ | .assignAlternate _ _ _ | .restoreTrack _ _ _ => true
  | _ => false

/-- Every other command keeps the frame and the laws of one block. -/
theorem exec_kept (hk : Kept K s) (i : Instr) (hi : changesFrame i = false) (hb : beginsOperation i = false)
    (e : exec i s = .next t) : Kept K t := by
  cases i with
  | locate | recalibrate | assignAlternate | restoreTrack => cases hb
  | powerOn | loadDriveType | loadDriveRecord | setPathGroup | setNoticeMask | portReset | sectorMark | indexMark
  | readyGained | readyLost | writeProtectChange | seekDeadlineExpiry | unitIdleTimerExpiry => cases hi
  | search h c a => exact execSearch_kept hk h c a e
  | read h c a => exact execRead_kept hk h c a e
  | write h c => exact execWrite_kept hk h c e
  | formatTrack h c => exact execFormatTrack_kept hk h c e
  | readDriveState h => exact execReadDriveState_kept hk h e
  | readFaultRecord h => exact execReadFaultRecord_kept hk h e
  | reserve h => exact execReserve_kept hk h e
  | reserveUnconditional h => exact execReserveUnconditional_kept hk h e
  | release h => exact execRelease_kept hk h e
  | unknownCommandCode h c ps => exact execUnknownCommandCode_kept hk h c ps e
  | readDriveTables h => exact execReadDriveTables_kept hk h e
  | loadSpareEntries h es => exact execLoadSpareEntries_kept hk h es e
  | deleteSpareEntry h d x => exact execDeleteSpareEntry_kept hk h d x e
  | readSpareMap h n => exact execReadSpareMap_kept hk h n e
  | readSuspectList h => exact execReadSuspectList_kept hk h e
  | readUnitState h => exact execReadUnitState_kept hk h e
  | unitClear h => exact execUnitClear_kept hk h e
  | data p a o c bs => exact execData_kept hk p a o c bs e
  | close p a => exact execClose_kept hk p a e
  | halt p a => exact execHalt_kept hk p a e
  | take p a => exact execTake_kept hk p a e
  | defer p a => exact execDefer_kept hk p a e
  | outboundFrameLeft p => exact execOutboundFrameLeft_kept hk p e
  | onCylinder d => exact execOnCylinder_kept hk d e
  | seekIncomplete d => exact execSeekIncomplete_kept hk d e
  | homeFieldRead d c => exact execHomeFieldRead_kept hk d c e
  | idFieldRead d x => exact execIdFieldRead_kept hk d x e
  | keyFieldRead d c => exact execKeyFieldRead_kept hk d c e
  | dataFieldRead d bs ends good => exact execDataFieldRead_kept hk d bs ends good e
  | fieldWritten d g => exact execFieldWritten_kept hk d g e
  | requestRaised d => exact execRequestRaised_kept hk d e
  | requestLapse d => exact execRequestLapse_kept hk d e
  | idleExpiry d => exact execIdleExpiry_kept hk d e
  | holdTimerExpiry d => exact execHoldTimerExpiry_kept hk d e
  | locateSearchBound d => exact execLocateSearchBound_kept hk d e
  | searchIndexCountLimit d => exact execSearchIndexCountLimit_kept hk d e
  | bytesDrawnForWriting d => exact execBytesDrawnForWriting_kept hk d e

/-- The four that may begin an operation keep the rest of the frame. -/
theorem exec_opens (hk : Kept K s) (i : Instr) (hi : changesFrame i = false) (e : exec i s = .next t) : Kept K.opening t := by
  cases hb : beginsOperation i with
  | false => exact (exec_kept hk i hi hb e).opens
  | true =>
    cases i with
    | locate h x r o => exact execLocate_kept hk h x r o e
    | recalibrate h => exact execRecalibrate_kept hk h e
    | assignAlternate h d x => exact execAssignAlternate_kept hk h d x e
    | restoreTrack h d x => exact execRestoreTrack_kept hk h d x e
    | _ => cases hb

/-! ## The thirteen -/

/-- LOAD DRIVE TYPE changes at most one type. -/
theorem execLoadDriveType_types (hk : Kept K s) (h : Hdr) (n : Nat) (x : DriveType) (e : execLoadDriveType h n x s = .next t) :
    Kept K t ∨ ∃ ty : TypeNo, Kept { K with types := K.types.set ty (some x) } t := by
  unfold execLoadDriveType at e
  rcases State.perform_cases hk _ e with ⟨_, rfl⟩ | ⟨_, hu, rfl⟩
  · exact .inl hk
  · rcases State.controlOrder_cases hu h (fun s => s.takeDriveType h.port n x) with h1 | ⟨v, hv, e1⟩
    · exact .inl (State.serveClaims_kept h1)
    · rw [e1]
      unfold State.takeDriveType
      split
      · exact .inl (State.serveClaims_kept (State.unitReject_kept hv _ _))
      · split
        · exact .inl (State.serveClaims_kept (State.unitReject_kept hv _ _))
        · exact .inl (State.serveClaims_kept (State.unitReject_kept hv _ _))
        · rename_i hc hs
          split
          · exact .inr ⟨_, State.serveClaims_kept (State.unitDone_kept (State.setType_types hv _ x hc hs) _)⟩
          · exact .inl (State.serveClaims_kept (State.unitHeld_kept hv _ _ _))

/-- A record that passes the checks of LOAD DRIVE RECORD names a loaded type when it is configured. -/
theorem State.newRecord_loaded (s : State) (c n w cur : Nat) (r : DriveRecord) (e : s.newRecord c n w cur = .inl r)
    (hr : r.configured = true) : (s.types[r.typeNo]).isSome = true := by
  unfold State.newRecord at e
  split at e
  · cases e
  · cases e; cases hr
  · split at e
    · cases e
    · split at e
      · cases e
      · cases e
      · rename_i ht _
        split at e
        · cases e; simp [ht]
        · cases e

/-- LOAD DRIVE RECORD changes at most the record, and the counter, of the drive it names. -/
theorem execLoadDriveRecord_table (hk : Kept K s) (h : Hdr) (n c ty w cur : Nat)
    (e : execLoadDriveRecord h n c ty w cur s = .next t) :
    Kept K t ∨ ∃ (d : Drive) (r : DriveRecord) (a : Option Nat), d.val = n ∧
      (r.configured = true → (K.types[r.typeNo]).isSome = true) ∧
      Kept ((K.withRecord d r).withSpindle d a (K.protect d)) t := by
  unfold execLoadDriveRecord at e
  rcases State.perform_cases hk _ e with ⟨_, rfl⟩ | ⟨_, hu, rfl⟩
  · exact .inl hk
  · rcases State.controlOrder_cases hu h (fun s => s.takeDriveRecord h.port n c ty w cur) with h1 | ⟨v, hv, e1⟩
    · exact .inl (State.serveClaims_kept h1)
    · rw [e1]
      unfold State.takeDriveRecord
      split
      · exact .inl (State.serveClaims_kept (State.unitReject_kept hv _ _))
      · rename_i d hd
        split
        · exact .inl (State.serveClaims_kept (State.unitReject_kept hv _ _))
        · rename_i r hr
          split
          · exact .inl (State.serveClaims_kept (State.unitHeld_kept hv _ _ _))
          · split
            · exact .inl (State.serveClaims_kept (State.unitHeld_kept hv _ _ _))
            · refine .inr ⟨d, r, loadedAngle (v.record d) r (v.pos d).angle, ?_, fun hc => ?_, ?_⟩
              · unfold driveOf at hd
                split at hd <;> cases hd
                rfl
              · rw [← hv.types]; exact v.newRecord_loaded _ _ _ _ r hr hc
              · rw [← hv.protect d]
                exact State.serveClaims_kept (State.unitDone_kept
                  (State.loadRecord_table hv d r (v.newRecord_loaded _ _ _ _ r hr)) _)

/-- SET PATH GROUP changes at most the sending port's group. -/
theorem execSetPathGroup_group (hk : Kept K s) (h : Hdr) (g : Nat) (e : execSetPathGroup h g s = .next t) :
    Kept K t ∨ Kept (K.withPort h.port g (K.mask h.port)) t := by
  unfold execSetPathGroup at e
  rcases State.perform_cases hk _ e with ⟨_, rfl⟩ | ⟨_, hu, rfl⟩
  · exact .inl hk
  · rcases State.unitOrder_cases hu h (fun s => s.takeGroup h.port g) with h1 | ⟨v, hv, e1⟩
    · exact .inl (State.serveClaims_kept h1)
    · rw [e1]
      unfold State.takeGroup
      split
      · exact .inl (State.serveClaims_kept (State.unitReject_kept hv _ _))
      · split
        · exact .inl (State.serveClaims_kept (State.unitStatus_kept hv _ _))
        · exact .inr (State.serveClaims_kept (State.unitDone_kept (State.setGroup_group hv _ g) _))

/-- SET NOTICE MASK changes at most the sending port's masks. -/
theorem execSetNoticeMask_mask (hk : Kept K s) (h : Hdr) (a b : Nat) (e : execSetNoticeMask h a b s = .next t) :
    Kept K t ∨ ∃ m, Kept (K.withPort h.port (K.group h.port) m) t := by
  unfold execSetNoticeMask at e
  rcases State.perform_cases hk _ e with ⟨_, rfl⟩ | ⟨_, hu, rfl⟩
  · exact .inl hk
  · rcases State.unitOrder_cases hu h (fun s => s.takeMask h.port a b) with h1 | ⟨v, hv, e1⟩
    · exact .inl (State.serveClaims_kept h1)
    · rw [e1]
      unfold State.takeMask
      split
      · rename_i x y _ _
        refine .inr ⟨(x, y), State.serveClaims_kept (State.unitDone_kept (State.modPort_settings hv _ _ _ _ ?_) _)⟩
        intro r hr
        simp only [PortRec.settings, Prod.mk.injEq] at hr ⊢
        simp [hr]
      · exact .inl (State.serveClaims_kept (State.unitReject_kept hv _ _))

/-- PORT RESET changes at most the settings of its port. -/
theorem execPortReset_settings (hk : Kept K s) (p : Port) (e : execPortReset p s = .next t) :
    Kept K t ∨ Kept (K.withPort p 0 (true, true)) t := by
  unfold execPortReset at e
  rcases State.perform_cases hk _ e with ⟨_, rfl⟩ | ⟨_, hu, rfl⟩
  · exact .inl hk
  · split
    · exact .inl (State.serveClaims_kept hu)
    · exact .inr (State.serveClaims_kept (State.resetPort_settings hu p))

/-- The type of a configured drive is the loaded one. -/
theorem State.typeOf_loaded {d : Drive} (hs : s.Sound) (hc : (s.record d).configured = true) :
    s.types[(s.record d).typeNo] = some (s.typeOf d) := by
  obtain ⟨x, hx⟩ := Option.isSome_iff_exists.mp (hs.loaded d hc)
  rw [State.typeOf, hx]
  exact hx

/-- SECTOR MARK changes at most its drive's counter. -/
theorem execSectorMark_angle (hk : Kept K s) (d : Drive) (e : execSectorMark d s = .next t) :
    Kept K t ∨ ∃ a, Kept (K.withSpindle d a (K.protect d)) t := by
  unfold execSectorMark at e
  rcases State.perform_cases hk _ e with ⟨_, rfl⟩ | ⟨_, hu, rfl⟩
  · exact .inl hk
  · unfold State.fromReady
    split
    · exact .inl (State.serveClaims_kept hu)
    · have h1 := State.modPos_spindle hu d
        (fun q => { q with angle := q.angle.map (nextAngle (s.settle.loadedType d)) }) (fun h => h) (by
          intro hl hc a ha
          obtain ⟨n, -, rfl⟩ := Option.map_eq_some_iff.mp ha
          have ht := State.typeOf_loaded (hu.sound hl) hc
          rw [show s.settle.loadedType d = some (s.settle.typeOf d) from ht]
          exact Nat.mod_lt _ ((hu.sound hl).sectors _ _ ht))
      rw [← hu.protect d]
      exact .inr ⟨_, State.serveClaims_kept (State.marked_kept h1 d)⟩

/-- INDEX MARK changes at most its drive's counter. -/
theorem execIndexMark_angle (hk : Kept K s) (d : Drive) (e : execIndexMark d s = .next t) :
    Kept K t ∨ ∃ a, Kept (K.withSpindle d a (K.protect d)) t := by
  unfold execIndexMark at e
  rcases State.perform_cases hk _ e with ⟨_, rfl⟩ | ⟨_, hu, rfl⟩
  · exact .inl hk
  · unfold State.fromReady
    split
    · exact .inl (State.serveClaims_kept hu)
    · have h1 := State.modPos_spindle hu d (fun q => { q with angle := some 0 }) (fun h => h) (by
        intro hl hc a ha
        cases ha
        exact (hu.sound hl).sectors _ _ (State.typeOf_loaded (hu.sound hl) hc))
      rw [← hu.protect d]
      exact .inr ⟨_, State.serveClaims_kept (State.indexAtConnection_kept (State.marked_kept (State.holdTick_kept h1 d) d) d)⟩

/-- READY GAINED changes at most its drive's counter. -/
theorem execReadyGained_angle (hk : Kept K s) (d : Drive) (e : execReadyGained d s = .next t) :
    Kept K t ∨ ∃ a, Kept (K.withSpindle d a (K.protect d)) t := by
  unfold execReadyGained at e
  rcases State.perform_cases hk _ e with ⟨_, rfl⟩ | ⟨_, hu, rfl⟩
  · exact .inl hk
  · rcases State.gainReady_spindle hu d with h1 | ⟨_, h1⟩
    · exact .inl (State.serveClaims_kept h1)
    · rw [hu.protect d] at h1
      exact .inr ⟨_, State.serveClaims_kept h1⟩

/-- READY LOST changes at most its drive's counter and write-protect setting. -/
theorem execReadyLost_spindle (hk : Kept K s) (d : Drive) (e : execReadyLost d s = .next t) :
    Kept K t ∨ Kept (K.withSpindle d none false) t := by
  unfold execReadyLost at e
  rcases State.perform_cases hk _ e with ⟨_, rfl⟩ | ⟨_, hu, rfl⟩
  · exact .inl hk
  · unfold State.fromReady
    split
    · exact .inl (State.serveClaims_kept hu)
    · exact .inr (State.serveClaims_kept (State.loseReady_spindle hu d))

/-- WRITE-PROTECT CHANGE changes at most its drive's setting. -/
theorem execWriteProtectChange_protect (hk : Kept K s) (d : Drive) (on : Bool) (e : execWriteProtectChange d on s = .next t) :
    Kept K t ∨ Kept (K.withSpindle d (K.angle d) on) t := by
  unfold execWriteProtectChange at e
  rcases State.perform_cases hk _ e with ⟨_, rfl⟩ | ⟨_, hu, rfl⟩
  · exact .inl hk
  · unfold State.fromReady
    split
    · exact .inl (State.serveClaims_kept hu)
    · rw [← hu.angle d]
      exact .inr (State.serveClaims_kept (State.modPos_spindle hu d (fun q => { q with writeProtect := on }) (fun h => h)
        fun hl hc a ha => (hu.sound hl).counters d hc a ha))

/-- SEEK DEADLINE EXPIRY changes at most the timebase. -/
theorem execSeekDeadlineExpiry_now (hk : Kept K s) (d : Drive) (e : execSeekDeadlineExpiry d s = .next t) :
    ∃ n, Kept (K.later n) t := by
  unfold execSeekDeadlineExpiry at e
  rcases State.perform_cases hk _ e with ⟨_, rfl⟩ | ⟨_, hu, rfl⟩
  · exact ⟨0, hk⟩
  · obtain ⟨n, h1⟩ := State.reachTime_kept hu (s.settle.pos d).deadline
    exact ⟨n, State.serveClaims_kept (State.deadlineExpire_kept h1 d)⟩

/-- UNIT IDLE TIMER EXPIRY changes at most the timebase. -/
theorem execUnitIdleTimerExpiry_now (hk : Kept K s) (p : Port) (e : execUnitIdleTimerExpiry p s = .next t) :
    ∃ n, Kept (K.later n) t := by
  unfold execUnitIdleTimerExpiry at e
  rcases State.perform_cases hk _ e with ⟨_, rfl⟩ | ⟨_, hu, rfl⟩
  · exact ⟨0, hk⟩
  · obtain ⟨n, h1⟩ := State.reachTime_kept hu (s.settle.port p).idleTimer
    exact ⟨n, State.serveClaims_kept (State.unitIdleExpire_kept h1 p)⟩

/-- Whatever the command but POWER ON: some frame that differs from K in the items of the thirteen alone is kept. -/
theorem exec_keptSome (hk : Kept K s) (i : Instr) (hi : ∀ straps levels, i ≠ .powerOn straps levels)
    (e : exec i s = .next t) :
    ∃ K' : Frame, Kept K' t ∧ K'.lawful = K.lawful ∧ K'.joint = K.joint ∧ K'.powered = K.powered ∧ K'.pending = K.pending ∧ K.now ≤ K'.now ∧
      (beginsOperation i = false → K'.idle = K.idle) := by
  cases hc : changesFrame i with
  | false =>
    cases hb : beginsOperation i with
    | false => exact ⟨_, exec_kept hk i hc hb e, rfl, rfl, rfl, rfl, Nat.le_refl _, fun _ => rfl⟩
    | true => exact ⟨_, exec_opens hk i hc e, rfl, rfl, rfl, rfl, Nat.le_refl _, nofun⟩
  | true =>
    cases i with
    | powerOn a b => exact absurd rfl (hi a b)
    | loadDriveType h n x =>
      rcases execLoadDriveType_types hk h n x e with h1 | ⟨_, h1⟩ <;> exact ⟨_, h1, rfl, rfl, rfl, rfl, Nat.le_refl _, fun _ => rfl⟩
    | loadDriveRecord h n c ty w cur =>
      rcases execLoadDriveRecord_table hk h n c ty w cur e with h1 | ⟨_, _, _, _, _, h1⟩ <;>
        exact ⟨_, h1, rfl, rfl, rfl, rfl, Nat.le_refl _, fun _ => rfl⟩
    | setPathGroup h g => rcases execSetPathGroup_group hk h g e with h1 | h1 <;>
      exact ⟨_, h1, rfl, rfl, rfl, rfl, Nat.le_refl _, fun _ => rfl⟩
    | setNoticeMask h a b => rcases execSetNoticeMask_mask hk h a b e with h1 | ⟨_, h1⟩ <;>
      exact ⟨_, h1, rfl, rfl, rfl, rfl, Nat.le_refl _, fun _ => rfl⟩
    | portReset p => rcases execPortReset_settings hk p e with h1 | h1 <;>
      exact ⟨_, h1, rfl, rfl, rfl, rfl, Nat.le_refl _, fun _ => rfl⟩
    | sectorMark d => rcases execSectorMark_angle hk d e with h1 | ⟨_, h1⟩ <;>
      exact ⟨_, h1, rfl, rfl, rfl, rfl, Nat.le_refl _, fun _ => rfl⟩
    | indexMark d => rcases execIndexMark_angle hk d e with h1 | ⟨_, h1⟩ <;>
      exact ⟨_, h1, rfl, rfl, rfl, rfl, Nat.le_refl _, fun _ => rfl⟩
    | readyGained d => rcases execReadyGained_angle hk d e with h1 | ⟨_, h1⟩ <;>
      exact ⟨_, h1, rfl, rfl, rfl, rfl, Nat.le_refl _, fun _ => rfl⟩
    | readyLost d => rcases execReadyLost_spindle hk d e with h1 | h1 <;>
      exact ⟨_, h1, rfl, rfl, rfl, rfl, Nat.le_refl _, fun _ => rfl⟩
    | writeProtectChange d on =>
      rcases execWriteProtectChange_protect hk d on e with h1 | h1 <;>
        exact ⟨_, h1, rfl, rfl, rfl, rfl, Nat.le_refl _, fun _ => rfl⟩
    | seekDeadlineExpiry d =>
      obtain ⟨n, h1⟩ := execSeekDeadlineExpiry_now hk d e
      exact ⟨_, h1, rfl, rfl, rfl, rfl, Nat.le_add_right _ _, fun _ => rfl⟩
    | unitIdleTimerExpiry p =>
      obtain ⟨n, h1⟩ := execUnitIdleTimerExpiry_now hk p e
      exact ⟨_, h1, rfl, rfl, rfl, rfl, Nat.le_add_right _ _, fun _ => rfl⟩
    | _ => cases hc

/-! ## Before POWER ON -/

theorem State.performInner_unpowered (s : State) (d : Drive) (f : State → State) (h : s.powered = false) : s.performInner d f = .next s := by
  simp [State.performInner, h]

/-- Before POWER ON no other command changes anything (R189, log 2). -/
theorem exec_unpowered (i : Instr) (s : State) (hi : ∀ a b, i ≠ .powerOn a b) (hp : s.powered = false) : exec i s = .next s := by
  cases i with
  | powerOn a b => exact absurd rfl (hi a b)
  | locate h x r o => unfold exec execLocate; exact State.perform_unpowered _ hp
  | recalibrate h => unfold exec execRecalibrate; exact State.perform_unpowered _ hp
  | search h c a => unfold exec execSearch; exact State.perform_unpowered _ hp
  | read h c a => unfold exec execRead; exact State.perform_unpowered _ hp
  | write h c => unfold exec execWrite; exact State.perform_unpowered _ hp
  | formatTrack h c => unfold exec execFormatTrack; exact State.perform_unpowered _ hp
  | readDriveState h => unfold exec execReadDriveState; exact State.perform_unpowered _ hp
  | readFaultRecord h => unfold exec execReadFaultRecord; exact State.perform_unpowered _ hp
  | reserve h => unfold exec execReserve; exact State.perform_unpowered _ hp
  | reserveUnconditional h => unfold exec execReserveUnconditional; exact State.perform_unpowered _ hp
  | release h => unfold exec execRelease; exact State.perform_unpowered _ hp
  | unknownCommandCode h c ps => unfold exec execUnknownCommandCode; exact State.perform_unpowered _ hp
  | readDriveTables h => unfold exec execReadDriveTables; exact State.perform_unpowered _ hp
  | loadSpareEntries h es => unfold exec execLoadSpareEntries; exact State.perform_unpowered _ hp
  | deleteSpareEntry h d x => unfold exec execDeleteSpareEntry; exact State.perform_unpowered _ hp
  | readSpareMap h n => unfold exec execReadSpareMap; exact State.perform_unpowered _ hp
  | assignAlternate h d x => unfold exec execAssignAlternate; exact State.perform_unpowered _ hp
  | restoreTrack h d x => unfold exec execRestoreTrack; exact State.perform_unpowered _ hp
  | readSuspectList h => unfold exec execReadSuspectList; exact State.perform_unpowered _ hp
  | readUnitState h => unfold exec execReadUnitState; exact State.perform_unpowered _ hp
  | unitClear h => unfold exec execUnitClear; exact State.perform_unpowered _ hp
  | data p a o c bs => unfold exec execData; exact State.perform_unpowered _ hp
  | close p a => unfold exec execClose; exact State.perform_unpowered _ hp
  | halt p a => unfold exec execHalt; exact State.perform_unpowered _ hp
  | take p a => unfold exec execTake; exact State.perform_unpowered _ hp
  | defer p a => unfold exec execDefer; exact State.perform_unpowered _ hp
  | outboundFrameLeft p => unfold exec execOutboundFrameLeft; exact State.perform_unpowered _ hp
  | onCylinder d => unfold exec execOnCylinder; exact State.perform_unpowered _ hp
  | seekIncomplete d => unfold exec execSeekIncomplete; exact State.perform_unpowered _ hp
  | seekDeadlineExpiry d => unfold exec execSeekDeadlineExpiry; exact State.perform_unpowered _ hp
  | homeFieldRead d c => unfold exec execHomeFieldRead; exact State.perform_unpowered _ hp
  | idFieldRead d x => unfold exec execIdFieldRead; exact State.perform_unpowered _ hp
  | keyFieldRead d c => unfold exec execKeyFieldRead; exact State.perform_unpowered _ hp
  | dataFieldRead d bs ends good => unfold exec execDataFieldRead; exact State.perform_unpowered _ hp
  | fieldWritten d g => unfold exec execFieldWritten; exact State.perform_unpowered _ hp
  | requestRaised d => unfold exec execRequestRaised; exact State.performInner_unpowered _ _ _ hp
  | requestLapse d => unfold exec execRequestLapse; exact State.performInner_unpowered _ _ _ hp
  | idleExpiry d => unfold exec execIdleExpiry; exact State.performInner_unpowered _ _ _ hp
  | unitIdleTimerExpiry p => unfold exec execUnitIdleTimerExpiry; exact State.perform_unpowered _ hp
  | holdTimerExpiry d => unfold exec execHoldTimerExpiry; exact State.performInner_unpowered _ _ _ hp
  | locateSearchBound d => unfold exec execLocateSearchBound; exact State.performInner_unpowered _ _ _ hp
  | searchIndexCountLimit d => unfold exec execSearchIndexCountLimit; exact State.performInner_unpowered _ _ _ hp
  | bytesDrawnForWriting d => unfold exec execBytesDrawnForWriting; exact State.perform_unpowered _ hp
  | loadDriveType h n x => unfold exec execLoadDriveType; exact State.perform_unpowered _ hp
  | loadDriveRecord h n c ty w cur => unfold exec execLoadDriveRecord; exact State.perform_unpowered _ hp
  | setPathGroup h g => unfold exec execSetPathGroup; exact State.perform_unpowered _ hp
  | setNoticeMask h a b => unfold exec execSetNoticeMask; exact State.perform_unpowered _ hp
  | portReset p => unfold exec execPortReset; exact State.perform_unpowered _ hp
  | sectorMark d => unfold exec execSectorMark; exact State.perform_unpowered _ hp
  | indexMark d => unfold exec execIndexMark; exact State.perform_unpowered _ hp
  | readyGained d => unfold exec execReadyGained; exact State.perform_unpowered _ hp
  | readyLost d => unfold exec execReadyLost; exact State.perform_unpowered _ hp
  | writeProtectChange d on => unfold exec execWriteProtectChange; exact State.perform_unpowered _ hp

end Sys2Proof.Machine
end

