-- ==== Sys2Proof/Tests/Slice0.lean ====
section
/-! SUPPORT. Tests: ill-formed commands that the checks refuse, frames written out from their layout, the manual's worked
examples, one step of most commands on a small state, and, for each statement with hypotheses, a concrete state and operands
that meet them. -/

namespace Sys2Proof.Tests

open Sys2Proof Sys2Proof.Machine

/-! ## Small states -/

/-- A drive type: 100 data cylinders, 2 alternate ones, 3 heads, 64 sectors, L = 6, M = 2, retry budget 2. -/
def ty : DriveType :=
  { dataCyls := 100, altCyls := 2, heads := 3, sectors := 64, lead := 6, setup := 2, stepTime := 60, settleTime := 8,
    capacity := 12800, retryBudget := 2, missLimit := 3, threshold := 2, holdLimit := 4 }

/-- The last sector of the type. Its bound is decided where it stands, so that all that comes before this file has been checked
when the theorems below begin, and few of them wait at one time. -/
def lastSector : Fin ty.sectors := ⟨63, by decide +kernel⟩

/-- Ports A to C enabled at windows 0x10, 0x20 and 0x30, A and C control permitted; D disabled. -/
def straps : Vector Straps 4 :=
  #v[{ enabled := true, window := 1, control := true }, { enabled := true, window := 2, control := false },
     { enabled := true, window := 3, control := true }, { enabled := false, window := 0, control := false }]

/-- Drives 0 to 6 ready, 7 not. -/
def levels : Vector Level 8 :=
  (Vector.replicate 8 { ready := true, writeProtect := false }).set 7 { ready := false, writeProtect := false }

def rec0 (cursor : Nat) : DriveRecord := { configured := true, typeNo := 0, writePermitted := true, cursor := cursor }

/-- A position found ready at power-on. -/
def ready : Positioner := Positioner.notReady.readyGained

/-- The unit after power-on, type 0 loaded and drives 0, 1, 2 and 7 configured. -/
def up : State :=
  { State.reset with
    powered := true
    ports := #v[PortRec.powerOn straps[0], PortRec.powerOn straps[1], PortRec.powerOn straps[2], PortRec.powerOn straps[3]]
    positioners := #v[ready, ready, ready, ready, ready, ready, ready, Positioner.notReady]
    types := (Vector.replicate 4 none).set 0 (some ty)
    records := #v[rec0 0, rec0 0, rec0 0, DriveRecord.unconfigured, DriveRecord.unconfigured, DriveRecord.unconfigured,
      DriveRecord.unconfigured, rec0 0] }

/-- A SELECT or COMMAND for an address. -/
def sel (p : Port) (a : Nat) : Hdr := { port := p, via := .select, address := a }
def com (p : Port) (a : Nat) : Hdr := { port := p, via := .command, address := a }

/-- Drive d stands on cylinder c, head h, with this track status and counter. -/
def standing (s : State) (d : Drive) (c h : Nat) (st : Option Condition) (a : Option Nat) : State :=
  s.modPos d fun q => { q with actuator := .onCylinder, cyl := some c, head := some h, status := st, angle := a }

/-- Port p connected with this. -/
def joined (s : State) (p : Port) (c : Conn) : State := s.modPort p fun r => { r with state := .connected, conn := some c }

def t51 : Track := { cyl := 5, head := 1 }

/-- A record of track 5/1. -/
def id1 (n kl dl : Nat) : IdField := { address := t51, number := n, keyLength := kl, dataLength := dl }

/-- A LOCATE's operation for track 5/1, issued by port A. -/
def op : Operation :=
  { Operation.fresh .locate 0 0 (some t51) with record := 1, target := some t51, expected := some .good }

/-- A record that starts at byte 24, the first of its track. -/
def at24 (f : IdField) : RecordAt := { start := 24, id := f }

/-- The same in its connection on port A, with this command in progress and this current record. Its 11 marks since the arming,
at counter 10, reach back to sector 0, where that record's fields start. -/
def opOn (cur : Option IdField) (c : Option Cmd) : Operation :=
  { op with
    conn := some 0, work := .connected, reconnected := true, current := cur.map at24, cmd := c, marksSince := 11 }

/-- Drive 0 on track 5/1 with operation o in a connection on port A. -/
def busy (o : Operation) : State := joined ((standing up 0 5 1 (some .good) (some 10)).setOp 0 (some o)) 0 (.drive 0)

/-- Port A in a connection with the unit. -/
def atUnit : State := joined up 0 .unit

/-- A sharing record: owner, holding port and timer, and port B's mark in the owed set. -/
def shr (owner : Option Nat) (hold : Option (Port × Nat)) (b : Option OwedMark) : Sharing :=
  { owner := owner
    hold := hold.map fun x => { port := x.1, timer := x.2, record := FaultRecord.empty }
    owed := (Vector.replicate 4 none).set 1 b }

/-- The state after a command. -/
def after (c : Instr) (s : State) : State :=
  match exec c s with
  | .next t => t
  | .fault _ => s
  | .refused _ => s

theorem finds_self (s : State) (h : s.powered = true) (hd : s.due = none) : s.Finds s := by
  refine ⟨h, ?_⟩
  unfold State.settle
  rw [hd]

theorem test_up_is_powerOn_with_tables :
    after (.powerOn straps levels) State.reset =
      { up with types := Vector.replicate 4 none, records := Vector.replicate 8 DriveRecord.unconfigured } := by
  decide +kernel

theorem test_states_sound : up.checks = true ∧ (busy (opOn none none)).checks = true ∧ atUnit.checks = true := by
  decide +kernel

/-! ## Ill-formed commands -/

theorem test_ill_formed_drive_commands :
    (Instr.locate (sel 0 256) t51 1 0).wellFormed = false ∧
    (Instr.locate (sel 0 16) { cyl := 65536, head := 0 } 1 0).wellFormed = false ∧
    (Instr.locate (sel 0 16) { cyl := 0, head := 256 } 1 0).wellFormed = false ∧
    (Instr.locate (sel 0 16) t51 256 0).wellFormed = false ∧ (Instr.locate (sel 0 16) t51 1 256).wellFormed = false ∧
    (Instr.search (sel 0 256) 1 [0]).wellFormed = false ∧ (Instr.search (com 0 16) 256 [0]).wellFormed = false ∧
    (Instr.search (com 0 16) 1 []).wellFormed = false ∧
    (Instr.search (com 0 16) 1 (List.replicate 33 0)).wellFormed = false ∧
    (Instr.read (sel 0 256) 1 0).wellFormed = false ∧ (Instr.read (com 0 16) 65536 0).wellFormed = false ∧
    (Instr.read (com 0 16) 1 256).wellFormed = false ∧ (Instr.write (sel 0 256) 1).wellFormed = false ∧
    (Instr.write (com 0 16) 65536).wellFormed = false ∧ (Instr.formatTrack (sel 0 256) [⟨1, 0, 1⟩]).wellFormed = false ∧
    (Instr.formatTrack (com 0 16) []).wellFormed = false ∧
    (Instr.formatTrack (com 0 16) (List.replicate 65 ⟨1, 0, 1⟩)).wellFormed = false ∧
    (Instr.formatTrack (com 0 16) [⟨256, 0, 1⟩]).wellFormed = false ∧
    (Instr.formatTrack (com 0 16) [⟨1, 256, 1⟩]).wellFormed = false ∧
    (Instr.formatTrack (com 0 16) [⟨1, 0, 65536⟩]).wellFormed = false ∧
    (Instr.recalibrate (sel 0 256)).wellFormed = false ∧ (Instr.readDriveState (sel 0 256)).wellFormed = false ∧
    (Instr.readFaultRecord (sel 0 256)).wellFormed = false ∧ (Instr.reserve (sel 0 256)).wellFormed = false ∧
    (Instr.reserveUnconditional (sel 0 256)).wellFormed = false ∧ (Instr.release (sel 0 256)).wellFormed = false ∧
    (Instr.unknownCommandCode (sel 0 256) 0 []).wellFormed = false ∧
    (Instr.unknownCommandCode (sel 0 16) 256 []).wellFormed = false ∧
    (Instr.unknownCommandCode (sel 0 16) 0 (List.replicate 260 0)).wellFormed = false ∧
    (Instr.unknownCommandCode (sel 0 16) 0x15 []).wellFormed = false := by decide +kernel

theorem test_ill_formed_unit_orders :
    (Instr.loadDriveType (sel 0 256) 0 ty).wellFormed = false ∧ (Instr.loadDriveType (sel 0 24) 256 ty).wellFormed = false ∧
    (Instr.loadDriveType (sel 0 24) 0 { ty with dataCyls := 65536 }).wellFormed = false ∧
    (Instr.loadDriveType (sel 0 24) 0 { ty with altCyls := 256 }).wellFormed = false ∧
    (Instr.loadDriveType (sel 0 24) 0 { ty with heads := 256 }).wellFormed = false ∧
    (Instr.loadDriveType (sel 0 24) 0 { ty with sectors := 256 }).wellFormed = false ∧
    (Instr.loadDriveType (sel 0 24) 0 { ty with lead := 256 }).wellFormed = false ∧
    (Instr.loadDriveType (sel 0 24) 0 { ty with setup := 256 }).wellFormed = false ∧
    (Instr.loadDriveType (sel 0 24) 0 { ty with stepTime := 65536 }).wellFormed = false ∧
    (Instr.loadDriveType (sel 0 24) 0 { ty with settleTime := 256 }).wellFormed = false ∧
    (Instr.loadDriveType (sel 0 24) 0 { ty with capacity := 65536 }).wellFormed = false ∧
    (Instr.loadDriveType (sel 0 24) 0 { ty with retryBudget := 256 }).wellFormed = false ∧
    (Instr.loadDriveType (sel 0 24) 0 { ty with missLimit := 256 }).wellFormed = false ∧
    (Instr.loadDriveType (sel 0 24) 0 { ty with threshold := 256 }).wellFormed = false ∧
    (Instr.loadDriveType (sel 0 24) 0 { ty with holdLimit := 256 }).wellFormed = false ∧
    (Instr.loadDriveRecord (sel 0 256) 0 1 0 1 0).wellFormed = false ∧
    (Instr.loadDriveRecord (sel 0 24) 256 1 0 1 0).wellFormed = false ∧
    (Instr.loadDriveRecord (sel 0 24) 0 256 0 1 0).wellFormed = false ∧
    (Instr.loadDriveRecord (sel 0 24) 0 1 256 1 0).wellFormed = false ∧
    (Instr.loadDriveRecord (sel 0 24) 0 1 0 256 0).wellFormed = false ∧
    (Instr.loadDriveRecord (sel 0 24) 0 1 0 1 65536).wellFormed = false ∧
    (Instr.readDriveTables (sel 0 256)).wellFormed = false ∧ (Instr.loadSpareEntries (sel 0 256) []).wellFormed = false ∧
    (Instr.loadSpareEntries (sel 0 24) (List.replicate 37 ⟨0, t51, t51⟩)).wellFormed = false ∧
    (Instr.loadSpareEntries (sel 0 24) [⟨256, t51, t51⟩]).wellFormed = false ∧
    (Instr.loadSpareEntries (sel 0 24) [⟨0, ⟨65536, 0⟩, t51⟩]).wellFormed = false ∧
    (Instr.loadSpareEntries (sel 0 24) [⟨0, t51, ⟨0, 256⟩⟩]).wellFormed = false ∧
    (Instr.deleteSpareEntry (sel 0 256) 0 t51).wellFormed = false ∧
    (Instr.deleteSpareEntry (sel 0 24) 256 t51).wellFormed = false ∧
    (Instr.deleteSpareEntry (sel 0 24) 0 ⟨65536, 0⟩).wellFormed = false ∧
    (Instr.readSpareMap (sel 0 256) 1).wellFormed = false ∧ (Instr.readSpareMap (sel 0 24) 256).wellFormed = false ∧
    (Instr.assignAlternate (sel 0 256) 0 t51).wellFormed = false ∧
    (Instr.assignAlternate (sel 0 24) 256 t51).wellFormed = false ∧
    (Instr.assignAlternate (sel 0 24) 0 ⟨0, 256⟩).wellFormed = false ∧
    (Instr.restoreTrack (sel 0 256) 0 t51).wellFormed = false ∧ (Instr.restoreTrack (sel 0 24) 256 t51).wellFormed = false ∧
    (Instr.restoreTrack (sel 0 24) 0 ⟨0, 256⟩).wellFormed = false ∧ (Instr.readSuspectList (sel 0 256)).wellFormed = false ∧
    (Instr.setPathGroup (sel 0 256) 1).wellFormed = false ∧ (Instr.setPathGroup (sel 0 24) 256).wellFormed = false ∧
    (Instr.setNoticeMask (sel 0 256) 1 1).wellFormed = false ∧ (Instr.setNoticeMask (sel 0 24) 256 1).wellFormed = false ∧
    (Instr.setNoticeMask (sel 0 24) 1 256).wellFormed = false ∧ (Instr.readUnitState (sel 0 256)).wellFormed = false ∧
    (Instr.unitClear (sel 0 256)).wellFormed = false := by decide +kernel

theorem test_ill_formed_frames_and_events :
    (Instr.data 0 256 0 1 [0]).wellFormed = false ∧ (Instr.data 0 16 65536 1 [0]).wellFormed = false ∧
    (Instr.data 0 16 0 65536 [0]).wellFormed = false ∧ (Instr.data 0 16 0 257 (List.replicate 257 0)).wellFormed = false ∧
    (Instr.close 0 256).wellFormed = false ∧ (Instr.halt 0 256).wellFormed = false ∧ (Instr.take 0 256).wellFormed = false ∧
    (Instr.defer 0 256).wellFormed = false ∧
    (Instr.homeFieldRead 0 (some ⟨⟨1016, 0⟩, .good⟩)).wellFormed = false ∧
    (Instr.homeFieldRead 0 (some ⟨⟨0, 24⟩, .good⟩)).wellFormed = false ∧
    (Instr.homeFieldRead 0 (some ⟨⟨0, 0⟩, .defective ⟨1016, 0⟩⟩)).wellFormed = false ∧
    (Instr.homeFieldRead 0 (some ⟨⟨0, 0⟩, .alternate ⟨0, 24⟩⟩)).wellFormed = false ∧
    (Instr.idFieldRead 0 ⟨24, 24, some ⟨⟨1016, 0⟩, 1, 0, 1⟩⟩).wellFormed = false ∧
    (Instr.idFieldRead 0 ⟨24, 24, some ⟨⟨0, 0⟩, 0, 0, 1⟩⟩).wellFormed = false ∧
    (Instr.idFieldRead 0 ⟨24, 24, some ⟨⟨0, 0⟩, 256, 0, 1⟩⟩).wellFormed = false ∧
    (Instr.idFieldRead 0 ⟨24, 24, some ⟨⟨0, 0⟩, 1, 33, 1⟩⟩).wellFormed = false ∧
    (Instr.idFieldRead 0 ⟨24, 24, some ⟨⟨0, 0⟩, 1, 0, 0⟩⟩).wellFormed = false ∧
    (Instr.idFieldRead 0 ⟨24, 24, some ⟨⟨0, 0⟩, 1, 0, 8193⟩⟩).wellFormed = false ∧
    (Instr.keyFieldRead 0 (List.replicate 33 0)).wellFormed = false ∧
    (Instr.idFieldRead 0 ⟨23, 24, none⟩).wellFormed = false ∧ (Instr.idFieldRead 0 ⟨20480, 24, none⟩).wellFormed = false ∧
    (Instr.idFieldRead 0 ⟨24, 23, none⟩).wellFormed = false ∧ (Instr.idFieldRead 0 ⟨24, 20480, none⟩).wellFormed = false ∧
    (Instr.dataFieldRead 0 (List.replicate 8193 0) false false).wellFormed = false ∧
    (Instr.dataFieldRead 0 [] false true).wellFormed = false := by decide +kernel

/-! ## Frames from their layout (8.10) -/

/-- A drive command of each shape, byte by byte. -/
theorem test_decode_drive_commands :
    decodeFrame 0 [0x01, 0x12, 0x00, 0x06, 0x10, 0x03, 0xE7, 0x17, 0xFF, 0x7F] =
      some (.locate (sel 0 0x12) { cyl := 999, head := 23 } 255 127) ∧
    decodeFrame 0 [0x02, 0x12, 0x00, 0x04, 0x11, 0x02, 0xA0, 0xA1] =
      some (.search (com 0 0x12) 2 [0xA0, 0xA1]) ∧
    decodeFrame 0 [0x02, 0x12, 0x00, 0x04, 0x12, 0x10, 0x01, 0x01] = some (.read (com 0 0x12) 4097 1) ∧
    decodeFrame 0 [0x02, 0x12, 0x00, 0x03, 0x13, 0x20, 0x00] = some (.write (com 0 0x12) 8192) ∧
    decodeFrame 0 [0x02, 0x12, 0x00, 0x09, 0x14, 0x01, 0x20, 0x20, 0x00, 0x02, 0x00, 0x00, 0x01] =
      some (.formatTrack (com 0 0x12) [⟨1, 32, 8192⟩, ⟨2, 0, 1⟩]) ∧
    decodeFrame 0 [0x01, 0x12, 0x00, 0x01, 0x15] = some (.recalibrate (sel 0 0x12)) ∧
    decodeFrame 0 [0x01, 0x12, 0x00, 0x01, 0x16] = some (.readDriveState (sel 0 0x12)) ∧
    decodeFrame 0 [0x01, 0x12, 0x00, 0x01, 0x17] = some (.readFaultRecord (sel 0 0x12)) ∧
    decodeFrame 0 [0x01, 0x12, 0x00, 0x01, 0x19] = some (.reserveUnconditional (sel 0 0x12)) ∧
    decodeFrame 0 [0x01, 0x12, 0x00, 0x01, 0x1A] = some (.release (sel 0 0x12)) := by decide +kernel

/-- A unit order of each shape. -/
theorem test_decode_unit_orders :
    decodeFrame 1 [0x01, 0x28, 0x00, 0x12, 0x40, 0x00, 0x00, 0x64, 0x02, 0x03, 0x40, 0x06, 0x02, 0x00, 0x3C, 0x08, 0x32,
      0x00, 0x02, 0x03, 0x02, 0x04] = some (.loadDriveType (sel 1 0x28) 0 ty) ∧
    decodeFrame 1 [0x01, 0x28, 0x00, 0x07, 0x41, 0x07, 0x01, 0x03, 0x01, 0x01, 0x80] =
      some (.loadDriveRecord (sel 1 0x28) 7 1 3 1 384) ∧
    decodeFrame 1 [0x01, 0x28, 0x00, 0x09, 0x43, 0x01, 0x02, 0x00, 0x05, 0x01, 0x01, 0x90, 0x0B] =
      some (.loadSpareEntries (sel 1 0x28) [⟨2, t51, ⟨400, 11⟩⟩]) ∧
    decodeFrame 1 [0x01, 0x28, 0x00, 0x05, 0x44, 0x02, 0x00, 0x05, 0x01] = some (.deleteSpareEntry (sel 1 0x28) 2 t51) ∧
    decodeFrame 1 [0x01, 0x28, 0x00, 0x02, 0x45, 0x51] = some (.readSpareMap (sel 1 0x28) 81) ∧
    decodeFrame 1 [0x01, 0x28, 0x00, 0x05, 0x46, 0x02, 0x00, 0x05, 0x01] = some (.assignAlternate (sel 1 0x28) 2 t51) ∧
    decodeFrame 1 [0x01, 0x28, 0x00, 0x05, 0x47, 0x02, 0x00, 0x05, 0x01] = some (.restoreTrack (sel 1 0x28) 2 t51) ∧
    decodeFrame 1 [0x01, 0x28, 0x00, 0x01, 0x48] = some (.readSuspectList (sel 1 0x28)) ∧
    decodeFrame 1 [0x01, 0x28, 0x00, 0x03, 0x4A, 0x01, 0x00] = some (.setNoticeMask (sel 1 0x28) 1 0) ∧
    decodeFrame 1 [0x01, 0x28, 0x00, 0x01, 0x4B] = some (.readUnitState (sel 1 0x28)) ∧
    decodeFrame 1 [0x01, 0x28, 0x00, 0x01, 0x4C] = some (.unitClear (sel 1 0x28)) ∧
    decodeFrame 1 [0x01, 0x28, 0x00, 0x01, 0x42] = some (.readDriveTables (sel 1 0x28)) := by decide +kernel

/-- The other inbound frames. -/
theorem test_decode_other_frames :
    decodeFrame 3 [0x04, 0x05, 0x00, 0x00] = some (.close 3 5) ∧ decodeFrame 3 [0x05, 0x05, 0x00, 0x00] = some (.halt 3 5) ∧
    decodeFrame 3 [0x06, 0x05, 0x00, 0x00] = some (.portReset 3) ∧ decodeFrame 3 [0x08, 0x05, 0x00, 0x00] = some (.defer 3 5) ∧
    decodeTableWord 8 0x15 = none ∧ up.withFetchWord 8 0x15 = up := by decide +kernel

/-- Outbound frames as bytes: a STATUS, a DATA frame, a data request, offers (8.10). -/
theorem test_outbound_layouts :
    OutFrame.bytes (.status 0x12 {
      fault := true, disconnect := true, reason := .fault .spareConflict, detail := .pointerHeld, residual := 258 } true) =
      [0x81, 0x12, 0x00, 0x05, 0x41, 0x1A, 0x0C, 0x01, 0x02] ∧
    OutFrame.bytes (.data 0x12 256 [0xAB]) = [0x83, 0x12, 0x00, 0x05, 0x01, 0x00, 0x00, 0x01, 0xAB] ∧
    OutFrame.bytes (.request 0x12 512 7) = [0x83, 0x12, 0x00, 0x04, 0x02, 0x00, 0x00, 0x07] ∧
    OutFrame.bytes (.offer 0x12 (.reconnect 2)) = [0x85, 0x12, 0x00, 0x01, 0x01] ∧
    OutFrame.bytes (.offer 0x12 (.notice (.spareAdvised 2 t51))) =
      [0x85, 0x12, 0x00, 0x06, 0x03, 0x04, 0x02, 0x00, 0x05, 0x01] := by decide +kernel

/-! ## The manual's worked examples -/

/-- 1.4, worked capacities and layout. -/
theorem test_worked_capacities :
    let five := List.replicate 5 (⟨1, 8, 1024⟩ : Descriptor)
    ({ ty with capacity := 5000 }.fits five = false) ∧ ({ ty with capacity := 6000 }.fits five = true) ∧
    ({ ty with capacity := 2048 }.fits (List.replicate 49 ⟨1, 0, 1⟩) = true) ∧
    ({ ty with capacity := 2048 }.fits (List.replicate 50 ⟨1, 0, 1⟩) = false) ∧
    ({ ty with capacity := 20480 }.fits (List.replicate 2 ⟨1, 32, 8192⟩) = true) ∧
    ({ ty with capacity := 20480 }.fits (List.replicate 3 ⟨1, 32, 8192⟩) = false) ∧
    ty.sectorOf 4072 = 20 ∧ ty.sectorOf 8156 = 40 ∧ ty.sectorOf 12168 = 60 := by decide +kernel

/-- 2.2, worked enumeration. -/
theorem test_worked_enumeration :
    let t := { ty with dataCyls := 400, altCyls := 3, heads := 12 }
    t.alternateIndex ⟨400, 11⟩ = 11 ∧ t.alternateIndex ⟨401, 1⟩ = 13 ∧ t.alternateIndex ⟨402, 11⟩ = 35 ∧
    t.alternateAt 13 = ⟨401, 1⟩ ∧ t.alternates = 36 := by decide +kernel

/-- 3.3, the table of deadlines. -/
theorem test_worked_deadlines :
    ty.motionTime 300 = 36 ∧ ty.motionTime 7 = 19 ∧ ty.motionTime 16 = 19 ∧ ty.motionTime 17 = 20 ∧
    { ty with stepTime := 5, settleTime := 1 }.motionTime 1 = 12 ∧
    { ty with stepTime := 40, settleTime := 6 }.motionTime 412 = 33 := by decide +kernel

/-- 4.2, the request sector and the run of the slack. -/
theorem test_worked_slack :
    requestSector ty 3 = 61 ∧
    ([60, 61, 62, 63, 0, 1, 2, 3, 4].map (slackAt ty 3)) = [7, 6, 5, 4, 3, 2, 1, 0, 63] := by decide +kernel

/-- 5.4, worked comparisons. -/
theorem test_worked_comparisons :
    (keyMeets .eq [0, 0, 0x10, 0, 0, 0, 0, 1] [0, 0, 0x10, 0] = true) ∧
    (keyMeets .highOrEq [0, 0, 0x0A, 0, 0xFF, 0xFF, 0xFF, 0xFF] [0, 0, 0x10, 0] = false) ∧
    (keyMeets .eq [0x4C, 0x21] [0x4C, 0x21, 0] = true) ∧ (keyMeets .high [0x4C, 0x21] [0x4C, 0x20, 0xFF] = true) ∧
    (keyMeets .eq [0x4C, 0x21] [0x4C, 0x20, 0xFF] = false) ∧ (keyMeets .high [] [0] = false) ∧ (keyMeets .eq [] [0] = true) ∧
    (keyMeets .highOrEq [] [1] = false) := by decide +kernel

/-! ## One step -/

def on1 : State := standing up 0 5 1 (some .good) (some 10)

/-- LOCATE of 8/2 from 5/1: 3 cylinders, 8 + 1 + 10 ms (R36, R81). -/
theorem test_locate_seeks :
    let t := after (.locate (sel 0 0x10) ⟨8, 2⟩ 1 70) on1
    (t.pos 0).actuator = .seeking ∧ (t.pos 0).deadline = some 19 ∧ (t.pos 0).status = none ∧
    (t.op 0).map Operation.sector = some 6 ∧
    (t.port 0).link = [.status 0x10 { accept := true, disconnect := true } true] := by decide +kernel

/-- Outside the data cylinders it is refused and the port holds the drive (R81, R166). -/
theorem test_locate_refused :
    let t := after (.locate (sel 0 0x10) ⟨100, 0⟩ 1 0) on1
    t.op 0 = none ∧ (t.share 0).hold.map Hold.port = some 0 ∧ (t.share 0).hold.map Hold.timer = some 4 := by decide +kernel

theorem test_recalibrate_orders :
    let t := after (.recalibrate (sel 1 0x20)) up
    (t.pos 0).actuator = .recalibrating ∧ (t.pos 0).deadline = some 25 := by decide +kernel

theorem test_read_drive_state :
    ((after (.readDriveState (sel 0 0x10)) on1).port 0).link =
      [.data 0x10 0 [1, 2, 0, 5, 1, 1, 0xFF, 0xFF, 0xFF, 1, 0, 0, 0, 0]] := by decide +kernel

theorem test_write_asks_twice :
    let t := after (.write (com 0 0x10) 600) (busy (opOn (some (id1 1 0 700)) none))
    (t.port 0).link = [.request 0x10 0 256, .request 0x10 256 256] ∧ (t.port 0).requests = [(0, 256), (256, 256)] := by
  decide +kernel

theorem test_write_protected :
    let s := (busy (opOn (some (id1 1 0 700)) none)).modPos 0 fun q => { q with writeProtect := true }
    ((after (.write (com 0 0x10) 600) s).share 0).hold.map (fun h => h.record.kind) = some (some .notWritable) := by
  decide +kernel

theorem test_search_without_current_waits_for_index :
    let t := after (.search (com 0 0x10) 1 [7]) (busy (opOn none none))
    (t.op 0).bind Operation.cmd = some (.search .eq [7] (.id .afterIndex)) := by decide +kernel

/-- After the last record of the track, at byte 9000, the next record is the first after the INDEX MARK, at byte 24 (R83). -/
theorem test_next_record_after_the_last :
    let last : RecordAt := { start := 9000, id := id1 9 0 8 }
    let s := busy { opOn none none with current := some last }
    let t := after (.search (com 0 0x10) 1 [7]) s
    let passing := { opOn none (some (.search .eq [7] (.id (.after 9000)))) with current := some last }
    (t.op 0).bind Operation.cmd = some (.search .eq [7] (.id (.after 9000))) ∧
    ((after (.idFieldRead 0 ⟨24, 9000, some (id1 1 1 1)⟩) (busy passing)).op 0).bind Operation.current =
      some (at24 (id1 1 1 1)) ∧
    ((after (.idFieldRead 0 ⟨24, 24, some (id1 1 1 1)⟩) (busy passing)).op 0).bind Operation.current = some last := by
  decide +kernel

/-- A count that stood at 1 ends a SEARCH that waits for its record, and not one that still finds where it stopped (R46, R87). -/
theorem test_index_count_limit :
    let at1 (ph : SearchPhase) := after (.indexMark 0) (busy { opOn none (some (.search .eq [7] ph)) with searchIndex := 1 })
    let f : Finding := { marks := 0, noted := false, waitIndex := true }
    ((after (.searchIndexCountLimit 0) (at1 (.id .next))).port 0).link =
      [.status 0x10 { fault := true, disconnect := true, reason := .fault .notFound } true] ∧
    ((after (.searchIndexCountLimit 0) (at1 (.find none f))).op 0).bind Operation.cmd =
      some (.search .eq [7] (.find none { f with marks := 1, waitIndex := false })) := by decide +kernel

/-- The key read is compared; DONE with MATCH (R85). -/
theorem test_key_matches :
    let s := busy (opOn (some (id1 3 1 100)) (some (.search .highOrEq [7] .key)))
    ((after (.keyFieldRead 0 [8]) s).port 0).link = [.status 0x10 { done := true, matched := true } false] ∧
    ((after (.keyFieldRead 0 [6]) s).port 0).link = [.status 0x10 { done := true } false] := by decide +kernel

/-- A READ of 3 of 4 bytes: one frame, and DONE waits for it (R89, R90). -/
theorem test_read_frame :
    let r : ReadCmd := { span := false, phase := .data, got := 0, formed := 0, forming := [], sentTo := 0 }
    let s := busy { opOn (some (id1 3 0 4)) (some (.read r)) with byteCount := 3 }
    let t := after (.dataFieldRead 0 [1, 2, 3, 4] true true) s
    (t.port 0).link = [.data 0x10 0 [1, 2, 3]] ∧ (t.port 0).answer.map (·.status) = some { done := true } ∧
    ((after (.outboundFrameLeft 0) t).port 0).link = [.status 0x10 { done := true } false] := by decide +kernel

/-- R149: a STATUS produced to let its connection stand, which has not left when the connection ends, carries DISCONNECT. -/
theorem test_status_left_after_the_connection :
    let u := after (.setPathGroup (sel 0 0x18) 3) up
    (u.port 0).link = [.status 0x18 { done := true } false] ∧ u.checks = true ∧
    ((after (.close 0 0x18) u).port 0).link = [.status 0x18 { done := true, disconnect := true } false] ∧
    ((after (.portReset 0) u).port 0).link = [.status 0x18 { done := true, disconnect := true } false] ∧
    (after (.close 0 0x18) u).checks = true := by decide +kernel

/-- Log 73: a stop discards the DATA frame of a READ DRIVE STATE in progress in an operation's connection, and its DONE. -/
theorem test_read_drive_state_stopped :
    let u := after (.readDriveState (com 0 0x10)) (busy (opOn none none))
    (u.op 0).bind Operation.cmd = some .driveState ∧ (u.port 0).slots = 1 ∧
    (after (.halt 0 0x10) u).op 0 = none ∧
    ((after (.halt 0 0x10) u).port 0).link = [.status 0x10 { done := true, halted := true, disconnect := true } true] ∧
    ((after (.readDriveState (com 0 0x10)) u).port 0).link =
      [.status 0x10 { fault := true, disconnect := true, reason := .fault .commandReject } true] := by decide +kernel

/-- Log 74: a READ is taken on a current record of another track, and an ID field of the track selected is no misposition. -/
theorem test_read_with_current_on_another_track :
    let o := { opOn (some (id1 1 0 700)) none with logical := some ⟨5, 2⟩ }
    let u := after (.read (com 0 0x10) 600 0) (busy o)
    let x : IdRead := ⟨24, 24, some { id1 2 0 1 with address := ⟨5, 2⟩ }⟩
    (u.op 0).bind Operation.current = some (at24 (id1 1 0 700)) ∧ (u.port 0).link = [] ∧
    (u.op 0).map (·.byteCount) = some 600 ∧ ((u.op 0).bind Operation.cmd).isSome = true ∧
    after (.idFieldRead 0 x) u = u := by decide +kernel

theorem test_reserve_and_release :
    let s := on1.modPort 0 fun r => { r with group := 3 }
    let t := after (.reserve (sel 0 0x10)) s
    (t.share 0).owner = some 3 ∧ t.op 0 = none ∧
    ((after (.reserve (sel 1 0x20)) t).port 1).link = [.status 0x20 { held := true, disconnect := true, reason := .reserved } true] ∧
    ((after (.release (sel 0 0x10)) (after (.outboundFrameLeft 0) t)).share 0).owner = none := by decide +kernel

theorem test_reserve_unconditional_breaks :
    let s := (on1.modPort 0 fun r => { r with group := 3 }).setShare 0 (shr (some 5) none (some .command))
    let t := after (.reserveUnconditional (sel 0 0x10)) s
    (t.share 0).owner = some 3 ∧ (t.share 0).owed = Vector.replicate 4 none ∧
    (t.port 1).offer = some (.notice (.deviceFree 0), false) := by decide +kernel

theorem test_load_drive_type_residual :
    ((after (.loadDriveType (sel 0 0x18) 1 { ty with lead := 17 }) up).port 0).link =
      [.status 0x18 { fault := true, reason := .fault .commandReject, residual := 6 } false] ∧
    ((after (.loadDriveType (sel 0 0x18) 0 { ty with heads := 4 }) up).port 0).link =
      [.status 0x18 { fault := true, reason := .fault .commandReject, residual := 4 } false] ∧
    (after (.loadDriveType (sel 0 0x18) 1 ty) up).types[1] = some ty := by decide +kernel

theorem test_control_strap :
    ((after (.unitClear (sel 1 0x28)) up).port 1).link =
      [.status 0x28 { fault := true, reason := .fault .commandReject } false] := by decide +kernel

theorem test_load_spare_entries_appends :
    (after (.loadSpareEntries (sel 0 0x18) [⟨1, t51, ⟨100, 2⟩⟩]) up).spareMap =
      [{ drive := 1, home := t51, current := some ⟨100, 2⟩, pending := none, origin := .loaded, active := true }] ∧
    ((after (.loadSpareEntries (sel 0 0x18) [⟨1, t51, ⟨100, 2⟩⟩, ⟨1, ⟨6, 0⟩, ⟨100, 2⟩⟩]) up).port 0).link =
      [.status 0x18 { fault := true, reason := .fault .commandReject, residual := 2 } false] := by decide +kernel

theorem test_assign_seeks_the_candidate :
    let t := after (.assignAlternate (sel 0 0x18) 0 t51) on1
    (t.pos 0).motionTarget = some 100 ∧ (t.op 0).bind Operation.target = some ⟨100, 0⟩ ∧
    (t.record 0).cursor = 0 := by decide +kernel

theorem test_set_path_group :
    ((after (.setPathGroup (sel 1 0x28) 15) up).port 1).group = 15 ∧
    ((after (.setPathGroup (sel 1 0x28) 16) up).port 1).group = 0 := by decide +kernel

/-- At the index the hold's timer falls, and at 0 the hold ends (R168). -/
theorem test_hold_ends_at_index :
    let s := on1.setShare 0 (shr none (some (0, 1)) (some .command))
    let t := after (.holdTimerExpiry 0) (after (.indexMark 0) s)
    (t.share 0).hold = none ∧ (t.port 1).offer = some (.notice (.deviceFree 0), false) ∧ (t.pos 0).angle = some 0 := by
  decide +kernel

/-- Raised at L = 6, granted path 0, offered to the issuing port (R59, R67, R69). -/
theorem test_request_raised_and_offered :
    let s := (standing up 0 5 1 (some .good) (some 13)).setOp 0
      (some { op with work := .reconnect, orient := some (Orientation.handed true 20) })
    let t := after (.requestRaised 0) (after (.sectorMark 0) s)
    t.path 0 = some { drive := 0, port := some 0 } ∧ (t.port 0).offer = some (.reconnect 0, false) ∧
    (t.port 0).link = [.offer 0x10 (.reconnect 0)] := by decide +kernel

theorem test_ready_lost :
    let t := after (.readyLost 0) on1
    (t.pos 0).actuator = .notReady ∧ (t.pos 0).head = none ∧ (t.port 0).offer = some (.notice (.stateChange 0), false) := by
  decide +kernel

theorem test_port_reset :
    let s := joined ((on1.modPort 0 fun r => { r with group := 3 }).setOp 0 (some (opOn none none))) 0 (.drive 0)
    let t := after (.portReset 0) s
    (t.port 0).state = .idle ∧ (t.port 0).group = 0 ∧ t.op 0 = none := by decide +kernel

/-! ## Witnesses: for each statement with hypotheses, concrete states and operands that meet them, clause by clause -/

theorem of_all {α : Type} {o : Option α} {f : α → Bool} (h : o.all f = true) : ∀ e, o = some e → f e = true := by
  intro e he; subst he; exact h

theorem witness_StepTakesTheFrontCommand : (up.inFront (.portReset 0)).pending = .portReset 0 :: [] := rfl

/-- One millisecond before a deadline and an idle timer that come due in the next one. -/
def waiting : State :=
  (up.modPos 0 fun q => { q with deadline := some 2 }).modPort 0 fun r => { r with idleTimer := some 2 }

/-- A seek of drive 0 due in the next millisecond. -/
def seekDue : State :=
  up.modPos 0 fun q => { q with actuator := .seeking, motionTarget := some 9, owned := true, deadline := some 1 }

/-- Port A's unit idle timer due in the next millisecond. -/
def idleDue : State := atUnit.modPort 0 fun r => { r with idleTimer := some 1 }

theorem witness_EmptyQueuePassesOneMillisecond :
    (State.reset.pending = [] ∧ State.reset.powered = false) ∧
    (waiting.pending = [] ∧ waiting.Finds waiting ∧ (∀ d e, (waiting.pos d).deadline = some e → waiting.now + 1 < e) ∧
      ∀ p e, (waiting.port p).idleTimer = some e → waiting.now + 1 < e) ∧
    (seekDue.pending = [] ∧ seekDue.Finds seekDue ∧ (seekDue.pos 0).deadline = some 1 ∧ 1 ≤ seekDue.now + 1 ∧
      (∀ d, seekDue.op d = none) ∧ (∀ d, d ≠ 0 → (seekDue.pos d).deadline = none) ∧
      ∀ p, (seekDue.port p).idleTimer = none) ∧
    (idleDue.pending = [] ∧ idleDue.Finds idleDue ∧ (idleDue.port 0).idleTimer = some 1 ∧ 1 ≤ idleDue.now + 1 ∧
      (∀ d, (idleDue.pos d).deadline = none) ∧ ∀ p, p ≠ 0 → (idleDue.port p).idleTimer = none) := by
  refine ⟨⟨rfl, rfl⟩, ⟨rfl, finds_self _ rfl rfl, fun d e h => ?_, fun p e h => ?_⟩,
    ⟨rfl, finds_self _ rfl rfl, by decide +kernel⟩, rfl, finds_self _ rfl rfl, by decide +kernel⟩
  · have : ∀ d, (waiting.pos d).deadline.all (fun e => decide (waiting.now + 1 < e)) = true := by decide +kernel
    exact of_decide_eq_true (of_all (this d) e h)
  · have : ∀ p, (waiting.port p).idleTimer.all (fun e => decide (waiting.now + 1 < e)) = true := by decide +kernel
    exact of_decide_eq_true (of_all (this p) e h)

theorem witness_EveryCommandAnswers :
    (∀ straps levels, Instr.halt 0 16 ≠ .powerOn straps levels) ∧ State.reset.powered = false := ⟨by nofun, rfl⟩

/-- Eleven notices that are not SPARE-ADVISED. -/
def eleven : List Notice := (allDrives.map Notice.deviceFree) ++ [.stateChange 0, .stateChange 1, .stateChange 2]

def suspect (n count : Nat) (advised : Bool) : Suspect :=
  { drive := 0, physical := ⟨n, 0⟩, logical := t51, count := count, lastKind := .dataCheck, advised := advised }

/-- The type with 16 alternate cylinders and 12 heads: room for 192 alternates. -/
def roomy : DriveType := { ty with altCyls := 16, heads := 12 }

/-- Every bound reached: 12 notices beside a SET overflow flag, 32 suspects of count 15, 96 entries with two alternates each, 15
misses, two orders unanswered, a counter of S − 1, a buffer with two frames, a hold without an operation, a path held for a
connection. -/
def bounds : State :=
  let s := (up.setQueue 1 { notices := eleven ++ [.rescan], held := true }).setOp 1 (some { op with
    miss := 15, conn := some 2, work := .connected })
  let s := { s with types := s.types.set 0 (some roomy) }
  let s := s.modPort 1 fun r => { r with overflow := true }
  let s := s.modPort 2 fun r => { r with held := [{ offset := 0, bytes := [1] }, { offset := 1, bytes := [2] }] }
  let s := (s.modPos 0 fun q => { q with unanswered := 2, angle := some 63 }).setShare 0
    (shr none (some (0, 0)) none)
  let s := (joined s 2 (.drive 1)).setPath 0 (some { drive := 1, port := some 2 })
  { s with
    suspects := (List.range 32).map fun n => suspect n 15 true
    spareMap := (List.range 96).map fun n =>
      { drive := 0, home := ⟨n, 0⟩, current := some ⟨100 + n % 8, n / 8⟩, pending := some ⟨108 + n % 8, n / 8⟩,
        origin := .loaded, active := true } }

theorem witness_StepKeepsTheLaws : bounds.Sound ∧ bounds.Joined ∧ ∃ t, step bounds = .next t := by
  refine ⟨⟨?_, ⟨by decide +kernel, by decide +kernel, by decide +kernel⟩, by decide +kernel, ?_, ?_, by decide +kernel, ?_,
      by decide +kernel, ?_, ?_, ?_, by decide +kernel, ?_⟩,
    ⟨by decide +kernel, ?_, by decide +kernel⟩, _, rfl⟩
  · intro p; exact ⟨by revert p; decide +kernel, by revert p; decide +kernel⟩
  · refine List.pairwise_map.2 (List.nodup_range.imp fun h => ?_)
    simp [SpareEntry.apart, SpareEntry.alternates, h]
    omega
  · intro d x h
    have : ∀ d, (bounds.op d).all (fun x => decide (x.miss ≤ 15)) = true := by decide +kernel
    exact of_decide_eq_true (of_all (this d) x h)
  · intro d
    show (bounds.share d).hold.isSome = true → bounds.op d = none
    revert d; decide +kernel
  · intro p; exact ⟨by revert p; decide +kernel, by revert p; decide +kernel⟩
  · have : bounds.spareMap.all (fun e => (bounds.record e.drive).configured && (bounds.typeOf e.drive).isHome e.home &&
        e.alternates.all fun q => (bounds.typeOf e.drive).isAlternate q) = true := by decide +kernel
    intro e he
    have h := List.all_eq_true.1 this e he
    simp only [Bool.and_eq_true, List.all_eq_true] at h
    exact ⟨h.1.1, h.1.2, h.2⟩
  · intro n x h
    have : ∀ n : TypeNo, (bounds.types[n]).all (fun x => decide (0 < x.sectors)) = true := by decide +kernel
    exact of_decide_eq_true (of_all (this n) x h)
  · intro d _ a h
    have : ∀ d, (bounds.pos d).angle.all (fun a => decide (a < (bounds.typeOf d).sectors)) = true := by decide +kernel
    exact of_decide_eq_true (of_all (this d) a h)
  · intro n h p hn hp
    have : ∀ n, (bounds.path n).all (fun h => h.port.all fun p => decide ((bounds.port p).conn = some (.drive h.drive))) = true := by
      decide +kernel
    exact .inl (of_decide_eq_true (of_all (of_all (this n) h hn) p hp))

/-- A LOCATE on a drive that the issuing port's group has reserved opens an operation, and so do the other three. -/
theorem witness_StepKeepsTheLaws_openings :
    (up.pending = [] ∧ ∃ t, step up = .next t ∧ up.op 0 = none) ∧
    (let s := on1.setShare 0 (shr (some 0) (some (0, 3)) none)
     let c := Instr.locate (sel 0 0x10) ⟨8, 2⟩ 1 70
     s.Finds s ∧ exec c s = .next (after c s) ∧ s.op 0 = none ∧ ((after c s).op 0).isSome = true ∧ (s.share 0).owner = some 0 ∧
       (s.share 0).hold.map Hold.port = some 0) ∧
    (∀ c ∈ [Instr.recalibrate (sel 0 0x10), .assignAlternate (sel 0 0x18) 0 t51],
      on1.Finds on1 ∧ exec c on1 = .next (after c on1) ∧ on1.op 0 = none ∧ ((after c on1).op 0).isSome = true) ∧
    (let s := { on1 with spareMap := [⟨0, t51, some ⟨100, 2⟩, none, .loaded, true⟩] }
     let c := Instr.restoreTrack (sel 0 0x18) 0 t51
     s.Finds s ∧ exec c s = .next (after c s) ∧ s.op 0 = none ∧ ((after c s).op 0).isSome = true) := by
  refine ⟨⟨rfl, _, rfl, by decide +kernel⟩,
    ⟨finds_self _ rfl rfl, rfl, by decide +kernel, by decide +kernel, by decide +kernel, by decide +kernel⟩, ?_,
    finds_self _ rfl rfl, rfl, by decide +kernel, by decide +kernel⟩
  intro c hc
  simp only [List.mem_cons, List.not_mem_nil, or_false] at hc
  rcases hc with rfl | rfl <;> exact ⟨finds_self _ rfl rfl, rfl, by decide +kernel, by decide +kernel⟩

theorem witness_PortSettingsHaveOneSource :
    (up.pending = [] ∧ step up = .next up.tick) ∧
    (let c := Instr.setPathGroup (sel 0 0x18) 3
     exec c up = .next (after c up) ∧ (∀ a b, c ≠ .powerOn a b) ∧ ((after c up).port 0).group ≠ (up.port 0).group) ∧
    (let c := Instr.setNoticeMask (sel 0 0x18) 0 1
     exec c up = .next (after c up) ∧ (∀ a b, c ≠ .powerOn a b) ∧
       ((after c up).port 0).maskStateChange ≠ (up.port 0).maskStateChange) := by
  refine ⟨⟨rfl, rfl⟩, ⟨rfl, by nofun, by decide +kernel⟩, rfl, by nofun, by decide +kernel⟩

theorem witness_TableStoreHasOneSource :
    (up.pending = [] ∧ step up = .next up.tick) ∧
    (let c := Instr.loadDriveType (sel 0 0x18) 3 ty
     exec c up = .next (after c up) ∧ (∀ a b, c ≠ .powerOn a b) ∧ (after c up).types ≠ up.types) ∧
    (let c := Instr.loadDriveRecord (sel 0 0x18) 7 0 0 0 0
     exec c up = .next (after c up) ∧ (∀ a b, c ≠ .powerOn a b) ∧
       ((after c up).record 7).configured ≠ (up.record 7).configured) := by
  refine ⟨⟨rfl, rfl⟩, ⟨rfl, by nofun, by decide +kernel⟩, rfl, by nofun, by decide +kernel⟩

theorem witness_ConfiguredRecordsNameLoadedTypes :
    (∀ d, (up.record d).configured = true → (up.loadedType d).isSome = true) ∧ ∃ t, step up = .next t :=
  ⟨by decide +kernel, _, rfl⟩

theorem witness_SpindleHasItsOwnEvents :
    (up.pending = [] ∧ step up = .next up.tick) ∧
    (let c := Instr.sectorMark 0
     exec c on1 = .next (after c on1) ∧ (∀ a b, c ≠ .powerOn a b) ∧ ((after c on1).pos 0).angle ≠ (on1.pos 0).angle) ∧
    (let c := Instr.writeProtectChange 0 true
     exec c on1 = .next (after c on1) ∧ (∀ a b, c ≠ .powerOn a b) ∧
       ((after c on1).pos 0).writeProtect ≠ (on1.pos 0).writeProtect) := by
  refine ⟨⟨rfl, rfl⟩, ⟨rfl, by nofun, by decide +kernel⟩, rfl, by nofun, by decide +kernel⟩

theorem witness_FramesRoundTrip :
    (Instr.readSpareMap (com 2 255) 255).wellFormed = true ∧
    encodeFrame (.readSpareMap (com 2 255) 255) = some (2, [0x02, 0xFF, 0x00, 0x02, 0x45, 0xFF]) := by decide +kernel

/-- Port A in this state, with this offer and connection. -/
def portAs (st : PortState) (offer : Option (Offer × Bool)) (c : Option Conn) : State :=
  up.modPort 0 fun r => { r with state := st, offer := offer, conn := c }

/-- A READ, WRITE and FORMAT TRACK as they stand in a connection. -/
def aRead : ReadCmd := { span := true, phase := .data, got := 0, formed := 0, forming := [], sentTo := 0 }
def aWrite (begun : Bool) (stop : Option StopEnd) : WriteCmd :=
  { need := 4, bytes := [1, 2], toAsk := [], begun := begun, zeroFill := false, seek := none, stop := stop }
def aFormat (begun : Bool) (stop : Option StopEnd) : FormatCmd :=
  { fields := [.id (at24 (id1 1 0 4)), .keyData [] [0, 0, 0, 0]], last := none, begun := begun, stop := stop }

/-- Port A CONNECTED with this, these frames on the link, and this answer due. -/
def talking (c : Conn) (link : List OutFrame) (a : Option Answer) (draining : Bool) : State :=
  (portAs .connected none (some c)).modPort 0 fun r => { r with link := link, answer := a, draining := draining }

def due0 : Option Answer := some { status := Status.doneWith 0, found := none, resets := false }

theorem witness_FramesByPortState_commands :
    (∀ c, (busy (opOn none c)).Finds (busy (opOn none c)) ∧ (busy (opOn none c)).Stands (com 0 0x10) (.drive 0) ∧
      (busy (opOn none c)).op 0 = some (opOn none c) ∧ (opOn none c).conn = some 0 ∧ (opOn none c).cmd = c) ∧
    ((aWrite true (some .closed)).stop.isSome = true ∧ (aFormat true (some .halted)).stop.isSome = true) ∧
    (∀ a w, let s := (joined on1 0 (.drive 0)).modPort 0 fun r => { r with answer := a, awaiting := w }
     s.Finds s ∧ s.Stands (com 0 0x10) (.drive 0) ∧ s.op 0 = none ∧ (s.port 0).answer = a ∧ (s.port 0).awaiting = w) ∧
    (∀ c ∈ [0x15, 0x18, 0x1B], c ∉ [0x16, 0x17, 0x19, 0x1A]) ∧ 0x16 ∈ [0x16, 0x17, 0x19, 0x1A] :=
  ⟨fun _ => ⟨finds_self _ rfl rfl, rfl, rfl, rfl, rfl⟩, by decide, fun _ _ => ⟨finds_self _ rfl rfl, rfl, rfl, rfl, rfl⟩,
    by decide, by decide⟩

theorem witness_FramesByPortState :
    ((up.port 3).state = .disabled ∧ (up.port 0).named 0x0F = none ∧ (up.port 0).named 0x19 = none ∧
      (up.port 0).named 0x10 = some (.drive 0) ∧ (up.port 0).named 0x17 = some (.drive 7) ∧
      (up.port 0).named 0x18 = some .unit ∧ (up.port 0).state = .idle) ∧
    (let s := portAs .offering (some (.notice .rescan, false)) none
     (s.port 0).state = .offering ∧ (s.port 0).sent = false ∧ (s.port 0).named 0x18 = some .unit) ∧
    (let s := portAs .offering (some (.notice .rescan, true)) none
     (s.port 0).state = .offering ∧ (s.port 0).sent = true ∧ (s.port 0).named 0x18 = some .unit) ∧
    (let s := portAs .resetting none none
     (s.port 0).state = .resetting ∧ (s.port 0).named 0x18 = some .unit) ∧
    (∀ r ∈ [(talking (.drive 7) [.status 0x17 Status.accepted true] none false).port 0,
        (talking (.drive 7) [.data 0x17 0 [1]] none true).port 0],
      r.named 0x17 = some (.drive 7) ∧ r.state = .connected ∧ r.conn = some (.drive 7) ∧
        (r.ending = true ∨ r.draining = true)) ∧
    (∀ r ∈ [(talking (.drive 7) [] none false).port 0, (talking .unit [] none false).port 0,
        (talking .unit [] due0 false).port 0],
      r.named 0x17 = some (.drive 7) ∧ r.state = .connected ∧ r.ending = false ∧ r.draining = false) ∧
    ((talking (.drive 7) [] none false).port 0).conn = some (.drive 7) ∧
    (((talking .unit [] none false).port 0).conn = some .unit ∧ ((talking .unit [] none false).port 0).closing = false ∧
      ((talking .unit [] none false).port 0).answer = none ∧ ((talking .unit [] due0 false).port 0).conn = some .unit ∧
      ((talking .unit [] due0 false).port 0).answer.isSome = true ∧ Conn.unit ≠ .drive 7) ∧
    (∀ d, (talking (.drive 7) [] none false).op d = none) ∧
    (∀ c, ((busy (opOn none c)).port 0).named 0x11 = some (.drive 1) ∧ ((busy (opOn none c)).port 0).state = .connected ∧
      ((busy (opOn none c)).port 0).conn = some (.drive 0) ∧ ((busy (opOn none c)).port 0).ending = false ∧
      ((busy (opOn none c)).port 0).draining = false ∧ (busy (opOn none c)).op 0 = some (opOn none c) ∧
      (opOn none c).conn = some 0 ∧ (opOn none c).cmd = c) ∧
    ((aWrite false none).begun = false ∧ (aWrite true none).begun = true ∧ (aWrite true none).stop = none ∧
      (aFormat false none).begun = false ∧ (aFormat true none).begun = true ∧ (aFormat true none).stop = none) := by
  refine ⟨by decide +kernel, by decide +kernel, by decide +kernel, by decide +kernel, by decide +kernel, by decide +kernel,
    rfl, by decide +kernel, by decide +kernel, fun c => ⟨rfl, rfl, rfl, rfl, rfl, rfl, rfl, rfl⟩, by decide +kernel⟩

/-- Drive 0 with this sharing record and, perhaps, an operation of port B's. -/
def shared (x : Sharing) (o : Option Operation) : State := (on1.setShare 0 x).setOp 0 o

theorem witness_AdmissionTakesTheFirstConditionMet :
    ((up.record 3).configured = false ∧ (up.record 7).configured = true ∧ (up.pos 7).actuator = .notReady) ∧
    (let s := shared (shr none (some (1, 1)) none) none
     (s.record 0).configured = true ∧ (s.pos 0).actuator ≠ .notReady ∧ (s.share 0).hold.map Hold.port = some 1 ∧
       s.admission 0 0 .all = .held .hold) ∧
    (let s := shared (shr (some 15) (some (0, 1)) none) none
     (s.share 0).hold.map Hold.port = some 0 ∧ (s.share 0).owner = some 15 ∧ 15 ≠ (s.port 0).group ∧
       s.admission 0 0 .all = .held .reserved) ∧
    (let s := shared (shr none none none) (some op)
     (s.share 0).hold = none ∧ (s.share 0).owner = none ∧ (s.op 0).isSome = true ∧ s.admission 0 0 .all = .held .busy) ∧
    (joined up 0 (.drive 7)).admission 7 0 .all = .fault .notReady := by decide +kernel

theorem witness_AdmissionTakesTheFirstConditionMet_commands :
    up.Finds up ∧ up.Opens (sel 0 0x17) (.drive 7) (joined up 0 (.drive 7)) ∧
    (∀ st, (joined up 0 (.drive 7)).admission 7 0 st = .fault .notReady) ∧
    (let s := shared (shr (some 15) none none) none
     s.Finds s ∧ s.Opens (sel 0 0x10) (.drive 0) (joined s 0 (.drive 0)) ∧
       (joined s 0 (.drive 0)).admission 0 0 .all = .held .reserved) ∧
    (let s := shared (shr none none none) (some op)
     s.Finds s ∧ s.Opens (sel 0 0x10) (.drive 0) (joined s 0 (.drive 0)) ∧
       (joined s 0 (.drive 0)).admission 0 0 .release = .held .busy ∧ ((joined s 0 (.drive 0)).share 0).hold = none) ∧
    (((joined (shared (shr none (some (0, 1)) none) none) 0 (.drive 0)).share 0).hold.map Hold.port = some 0 ∧
      (0x15 : Nat) ∉ [0x16, 0x17, 0x19, 0x1A]) :=
  ⟨finds_self _ rfl rfl, rfl, fun st => by cases st <;> decide +kernel, ⟨finds_self _ rfl rfl, rfl, by decide +kernel⟩,
    ⟨finds_self _ rfl rfl, rfl, by decide +kernel⟩, by decide +kernel⟩

theorem witness_ConnectionEnds :
    (up.port 0).offer = none ∧
    (∀ b w, let x : Orientation := { Orientation.handed true 20 with req := .granted, windowOpen := w }
     let s := (portAs .offering (some (.reconnect 0, b)) none).setOp 0 (some { op with orient := some x })
     (s.port 0).offer = some (.reconnect 0, b) ∧ s.op 0 = some { op with orient := some x } ∧ x.windowOpen = w) ∧
    (∀ b, let s := (portAs .offering (some (.status 0, b)) none).setOp 0 (some op)
     (s.port 0).offer = some (.status 0, b) ∧ s.op 0 = some op) ∧
    (∀ n b, ((portAs .offering (some (.notice n, b)) none).port 0).offer = some (.notice n, b)) ∧
    ((busy (opOn none none)).path 0 = none ∧ (1 : Port) ≠ 0 ∧
      (((busy (opOn none none)).setPath 0 (some { drive := 0, port := some 0 })).path 0).bind PathHold.port = some 0) ∧
    (let offers (s : State) (q : Port) : Prop :=
       (s.port q).offer.map Prod.fst = some (.reconnect 0) ∨ (s.port q).offer.map Prod.fst = some (.status 0)
     (∀ q, ¬ offers (portAs .offering (some (.reconnect 1, true)) none) q) ∧
     (∀ o ∈ ([.reconnect 0, .status 0] : List Offer), offers (portAs .offering (some (o, false)) none) 0 ∧
       ∀ q, q ≠ 0 → ¬ offers (portAs .offering (some (o, false)) none) q)) := by
  refine ⟨rfl, fun _ _ => ⟨rfl, rfl, rfl⟩, fun _ => ⟨rfl, rfl⟩, fun _ _ => rfl, by decide +kernel, by decide +kernel,
    by decide +kernel⟩

theorem witness_OwedSetTested :
    ((shr none (some (0, 1)) none).hold.map Hold.port = some 0 ∧ (shr none (some (1, 1)) none).hold.map Hold.port = some 1 ∧
      (1 : Port) ≠ 0 ∧ (shr none none none).hold = none) ∧
    (let s := shared (shr (some 15) (some (1, 1)) (some .command)) none
     let t := s.modPort 1 fun r => { r with group := 15 }
     (s.share 0).owes 0 = none ∧ (t.share 0).owes 1 = some .command ∧ t.op 0 = none ∧
       (t.share 0).hold.map Hold.port = some 1 ∧ (t.share 0).owner = some (t.port 1).group) ∧
    (let s := shared (shr (some 15) (some (0, 1)) (some .order)) none
     (s.share 0).owes 1 = some .order ∧ s.op 0 = none) ∧
    (let s := shared (shr (some 15) none (some .command)) none
     (s.share 0).owes 1 = some .command ∧ (s.share 0).owner = some 15 ∧ 15 ≠ (s.port 1).group) ∧
    (let s := shared (shr none (some (0, 1)) (some .command)) none
     (s.share 0).hold.map Hold.port = some 0 ∧ (0 : Port) ≠ 1) ∧
    (let s := shared (shr none none (some .order)) (some op)
     (s.share 0).owes 1 = some .order ∧ s.op 0 ≠ none) ∧ (7 : Drive) ≠ 0 := by decide +kernel

def advice (n : Nat) : Notice := .spareAdvised 0 ⟨n, 0⟩

theorem witness_NoticeEntersItsQueue :
    ((up.port 3).state = .disabled ∧ (bounds.port 1).state ≠ .disabled ∧ (bounds.port 1).offersNotice = false ∧
      Notice.stateChange 7 ∉ (bounds.queue 1).notices ∧ (bounds.queue 1).notices.length = 12 ∧
      ((portAs .offering (some (.notice .rescan, false)) none).port 0).offersNotice = true) ∧
    (Notice.deviceFree 0 ∈ eleven) ∧ (Notice.rescan ∉ eleven ∧ eleven.length < 12) ∧
    (let a := [advice 1]
     let b := eleven.take 10
     Notice.rescan ∉ a ++ advice 2 :: b ∧ 12 ≤ (a ++ advice 2 :: b).length ∧ Notice.rescan.isSpareAdvised = false ∧
       (advice 2).isSpareAdvised = true ∧ a ≠ [] ∧ ∀ y ∈ a.tail, y.isSpareAdvised = false) ∧
    (Notice.rescan ∉ advice 1 :: eleven ∧ 12 ≤ (advice 1 :: eleven).length ∧
      ∀ y ∈ (advice 1 :: eleven).tail, y.isSpareAdvised = false) ∧
    (advice 2 ∉ advice 1 :: eleven ∧ (advice 2).isSpareAdvised = true) := by decide +kernel

theorem witness_SuspectListUpdated :
    (let a := [suspect 1 3 false]
     let b := [suspect 3 1 false]
     (∀ x ∈ a ++ b, ¬ (x.drive = 0 ∧ x.physical = ⟨2, 0⟩)) ∧ (suspect 2 15 true).advised = true ∧
       (up.typeOf 0).threshold ≤ min 15 ((suspect 2 1 false).count + 1) ∧
       min 15 ((suspect 2 0 false).count + 1) < (up.typeOf 0).threshold) ∧
    ((∀ x ∈ bounds.suspects, ¬ (x.drive = 0 ∧ x.physical = (⟨32, 0⟩ : Track))) ∧ bounds.suspects.length = 32 ∧
      1 < (bounds.typeOf 0).threshold) ∧
    (let s := { up with types := (Vector.replicate 4 none).set 0 (some { ty with threshold := 1 }) }
     (s.typeOf 0).threshold ≤ 1 ∧ s.suspects = []) ∧
    (let s := (on1.setShare 0 (shr (some 15) none none)).modPort 0 fun r => { r with group := 15, state := .connected }
     (s.share 0).owner = some 15 ∧ (s.port 0).group = 15 ∧ (s.port 0).maskSpareAdvised = true ∧
       (s.port 0).state ≠ .disabled ∧ (s.port 0).state ≠ .resetting ∧ (s.port 1).group ≠ 15) ∧
    ((on1.share 0).owner = none ∧ (on1.port 1).state = .idle ∧ (on1.port 1).maskSpareAdvised = true) := by decide +kernel

def entry (home : Track) (current pending : Option Track) (active : Bool) : SpareEntry :=
  { drive := 0, home := home, current := current, pending := pending, origin := .loaded, active := active }

/-- Drive 0 on 5/1 with this spare map. -/
def mapped (l : List SpareEntry) : State := { on1 with spareMap := l }

/-- 96 entries for tracks of head 0. -/
def fullMap : List SpareEntry := (List.range 96).map fun n => entry ⟨n, 0⟩ (some ⟨n, 1⟩) none true

theorem witness_TranslationAndVerification :
    (let e := entry t51 (some ⟨101, 2⟩) none true
     (mapped [e]).entryFor 0 t51 = some e ∧ e.active = true ∧ e.current = some ⟨101, 2⟩) ∧
    (let e := entry t51 (some ⟨101, 2⟩) none false
     (mapped [e]).entryFor 0 t51 = some e ∧ e.active = false) ∧
    (let e := entry t51 none (some ⟨101, 2⟩) true
     (mapped [e]).entryFor 0 t51 = some e ∧ e.current = none) ∧
    ((mapped []).entryFor 0 t51 = none ∧ (mapped (fullMap.drop 1)).entryFor 0 t51 = none ∧ (fullMap.drop 1).length = 95 ∧
      (mapped fullMap).entryFor 0 t51 = none ∧ fullMap.length = 96) ∧
    (∀ p ∈ ([⟨99, 0⟩, ⟨102, 0⟩, ⟨100, 3⟩] : List Track),
      ¬ ((on1.typeOf 0).dataCyls ≤ p.cyl ∧ p.cyl < (on1.typeOf 0).dataCyls + (on1.typeOf 0).altCyls ∧ p.head < (on1.typeOf 0).heads)) ∧
    (∀ p ∈ ([⟨100, 0⟩, ⟨101, 2⟩] : List Track),
      (on1.typeOf 0).dataCyls ≤ p.cyl ∧ p.cyl < (on1.typeOf 0).dataCyls + (on1.typeOf 0).altCyls ∧ p.head < (on1.typeOf 0).heads) ∧
    (∃ e ∈ (mapped [entry ⟨6, 0⟩ none (some ⟨101, 2⟩) true]).spareMap,
      e.drive = 0 ∧ e.home ≠ t51 ∧ (e.current = some ⟨101, 2⟩ ∨ e.pending = some ⟨101, 2⟩)) ∧
    (∀ e ∈ (mapped [entry t51 (some ⟨101, 2⟩) none false]).spareMap,
      e.drive = 0 → e.home ≠ t51 → e.current ≠ some ⟨101, 2⟩ ∧ e.pending ≠ some ⟨101, 2⟩) := by decide +kernel

/-- Drive 0 with this operation, its positioner as given. -/
def posed (o : Operation) (f : Positioner → Positioner) : State := (on1.modPos 0 f).setOp 0 (some o)

theorem witness_PositioningByActuatorState :
    op.target = some t51 ∧
    (let s := posed op fun q => { q with cyl := some 6, unanswered := 1 }
     s.op 0 = some op ∧ (s.pos 0).actuator = .onCylinder ∧ (s.pos 0).cyl = some 6 ∧ 6 ≠ t51.cyl ∧ (s.pos 0).unanswered < 2) ∧
    (let s := posed op fun q => { q with actuator := .uncalibrated, cyl := none, unanswered := 1 }
     s.op 0 = some op ∧ (s.pos 0).actuator = .uncalibrated ∧ (s.pos 0).unanswered < 2) ∧
    (let s := posed op fun q => { q with actuator := .seeking, cyl := none, motionTarget := some 8 }
     s.op 0 = some op ∧ (s.pos 0).actuator = .seeking) ∧
    (let s := posed op fun q => { q with cyl := some 6, unanswered := 2 }
     s.op 0 = some op ∧ (s.pos 0).actuator = .onCylinder ∧ (s.pos 0).cyl ≠ some t51.cyl ∧ 2 ≤ (s.pos 0).unanswered) ∧
    (let s := posed op fun q => { q with head := some 2 }
     s.op 0 = some op ∧ (s.pos 0).cyl = some t51.cyl ∧ (s.pos 0).head ≠ some t51.head) ∧
    (let s := posed op fun q => { q with status := none }
     s.op 0 = some op ∧ (s.pos 0).cyl = some t51.cyl ∧ (s.pos 0).head = some t51.head ∧ (s.pos 0).status = none) ∧
    (let s := posed op id
     s.op 0 = some op ∧ (s.pos 0).actuator = .onCylinder ∧ (s.pos 0).cyl = some t51.cyl ∧ (s.pos 0).head = some t51.head ∧
       (s.pos 0).status = some .good ∧ op.alt = none) := by decide +kernel

theorem witness_RequestSectorAndSlack :
    (0 < ty.sectors ∧ ty.lead ≤ ty.sectors ∧ lastSector.val < ty.sectors ∧ 0 < ty.sectors) ∧ (up.pos 0).angle = none ∧
    (on1.pos 0).angle = some 10 := by decide +kernel

/-- Drives 0 and 1 with ACTIVE requests at slack 4, drive 1 with more misses; path 0 taken. -/
def asking : State :=
  let x : Orientation := { Orientation.handed false 14 with req := .active, windowOpen := true, later := true }
  (((standing on1 1 5 1 none (some 10)).setOp 0 (some { op with work := .readHome, orient := some x })).setOp 1
    (some { op with work := .readHome, orient := some x, miss := 2 })).setPath 0 (some { drive := 2, port := none })

/-- The same with an EXTERNAL request of port A's group 3, port A not idle. -/
def askingPorts : State :=
  let x : Orientation := { Orientation.handed true 14 with req := .active, windowOpen := true, later := true }
  let s := (on1.setOp 0 (some { op with group := 3, work := .reconnect, orient := some x }))
  (s.modPort 0 fun r => { r with state := .connected }).modPort 2 fun r => { r with group := 3 }

theorem witness_ArbiterGrantOrder :
    asking.decision = some (1, { drive := 1, urgent := false, slack := 4, miss := 2, port := none }) ∧
    asking.contender 0 = some { drive := 0, urgent := false, slack := 4, miss := 0, port := none } ∧ (0 : Drive) ≠ 1 ∧
    asking.path 1 = none ∧ (asking.contender 0).isSome = true ∧
    askingPorts.contender 0 = some { drive := 0, urgent := false, slack := 4, miss := 0, port := some 2 } ∧
    (2 : Port) ≠ op.issuer ∧
    (∀ s ∈ [asking, askingPorts], ∃ o x, s.op 0 = some o ∧ o.orient = some x ∧ x.req = .active ∧
      s.slack 0 x.sector = some 4 ∧ (s.typeOf 0).setup ≤ 4 ∧
      (∀ n y, s.path n = some y → y.drive ≠ 0) ∧
      (x.external = false ∨ ((s.port 2).state = .idle ∧ x.deferred[(2 : Port)] = false ∧ (s.port 2).group ≠ 0 ∧
        (s.port 2).group = o.group))) ∧
    (let x : Orientation := { Orientation.handed false 12 with req := .active }
     (on1.setOp 0 (some { op with orient := some x })).slack 0 x.sector = some 2 ∧ (on1.typeOf 0).setup ≤ 2) := by
  refine ⟨by decide +kernel, by decide +kernel, by decide, by decide +kernel, by decide +kernel, by decide +kernel,
    by decide, fun s hs => ?_, by decide +kernel⟩
  simp only [List.mem_cons, List.not_mem_nil, or_false] at hs
  rcases hs with rfl | rfl
  · refine ⟨_, _, rfl, rfl, rfl, by decide +kernel, by decide +kernel, fun n y h => ?_, .inl rfl⟩
    have : ∀ n, (asking.path n).all (fun y => decide (y.drive ≠ 0)) = true := by decide +kernel
    exact of_decide_eq_true (of_all (this n) y h)
  · refine ⟨_, _, rfl, rfl, rfl, by decide +kernel, by decide +kernel, fun n y h => ?_, .inr ⟨rfl, rfl, by decide, rfl⟩⟩
    have : ∀ n, (askingPorts.path n).all (fun y => decide (y.drive ≠ 0)) = true := by decide +kernel
    exact of_decide_eq_true (of_all (this n) y h)

theorem witness_SearchKeyComparison :
    ([1, 2] : List Byte).length = ([3, 4] : List Byte).length ∧ (1 : Byte).toNat < (255 : Byte).toNat := by decide +kernel

theorem witness_AlternatesAreEnumerated :
    0 < ty.altCyls * ty.heads ∧ 5 < ty.altCyls * ty.heads ∧ ty.isAlternate ⟨101, 2⟩ = true := by decide +kernel

/-- Drive 0's ACTIVE request at slack 4, INTERNAL or EXTERNAL. -/
def oneAsks (external : Bool) : Operation :=
  { op with
    work := if external then .reconnect else .readHome
    orient := some { Orientation.handed external 14 with req := .active, windowOpen := true, later := true } }

/-- A status kept for port A. -/
def keeping : Operation :=
  { op with work := .ended, pending := some { status := Status.accepted, record := some FaultRecord.empty } }

/-- A notice at the head of port A's queue. -/
def noticed (n : Notice) : State := up.setQueue 0 { notices := [n], held := false }

/-- An INTERNAL request of drive 0 for the write of its candidate's home field, write-protected, its port not IDLE. -/
def protectedWrite : State :=
  let o : Operation := { oneAsks false with
    kind := .assignAlternate, work := .writeHome { address := ⟨101, 2⟩, condition := .alternate t51 }
    alt := some { AltOp.begun .markAlt none with candidate := some ⟨101, 2⟩, fresh := true, hasEntry := true } }
  joined ((({ on1 with spareMap := [entry t51 none (some ⟨101, 2⟩) true] } : State).setOp 0 (some o)).modPos 0
    fun q => { q with writeProtect := true }) 0 .unit

theorem witness_ClaimsTakenOnlyWhereTheyStand_protected :
    protectedWrite.decision = some (0, { drive := 0, urgent := false, slack := 4, miss := 0, port := none }) ∧
    (protectedWrite.pos 0).writeProtect = true ∧
    ∃ o f, protectedWrite.op 0 = some o ∧ o.work = .writeHome f ∧
      ((protectedWrite.setOp 0 (some { o with orient := none, miss := 0, marksSince := 0 })).altWritten 0 false).Quiet :=
  ⟨by decide +kernel, rfl, _, _, rfl, rfl, by decide +kernel, by decide +kernel⟩

theorem witness_ClaimsTakenOnlyWhereTheyStand :
    up.Quiet ∧
    (let u := on1.setOp 0 (some (oneAsks false))
     u.decision = some (0, { drive := 0, urgent := false, slack := 4, miss := 0, port := none }) ∧
     (∀ f, (oneAsks false).work ≠ .writeHome f) ∧ State.Quiet ((u.setPath 0 (some { drive := 0, port := none })).setOp 0
       (some { oneAsks false with orient := none, miss := 0, marksSince := 0 }))) ∧
    (let u := on1.setOp 0 (some (oneAsks true))
     u.claims 0 = [.reconnect 0 0] ∧ (∀ q, q ≠ 0 → u.claims q = []) ∧ (oneAsks true).orient.isSome = true ∧
     (u.takeClaim 0 (.reconnect 0 0)).Quiet) ∧
    (let u := on1.setOp 0 (some keeping)
     u.decision = none ∧ u.claims 0 = [.status 0] ∧ (∀ q, q ≠ 0 → u.claims q = []) ∧ (u.takeClaim 0 (.status 0)).Quiet) ∧
    (∀ n ∈ [Notice.rescan, .deviceFree 7],
      (noticed n).decision = none ∧ (noticed n).claims 0 = [.notice n] ∧ (∀ q, q ≠ 0 → (noticed n).claims q = []) ∧
      ((noticed n).takeClaim 0 (.notice n)).Quiet) := by
  refine ⟨⟨by decide +kernel, by decide +kernel⟩, ⟨by decide +kernel, by nofun, by decide +kernel, by decide +kernel⟩,
    ⟨by decide +kernel, by decide +kernel, by decide, by decide +kernel, by decide +kernel⟩,
    ⟨by decide +kernel, by decide +kernel, by decide +kernel, by decide +kernel, by decide +kernel⟩, fun n hn => ?_⟩
  simp only [List.mem_cons, List.not_mem_nil, or_false] at hn
  rcases hn with rfl | rfl <;>
    exact ⟨by decide +kernel, by decide +kernel, by decide +kernel, by decide +kernel, by decide +kernel⟩

theorem witness_LocateBegins :
    on1.Finds on1 ∧ on1.Admits (sel 0 0x10) 0 (joined on1 0 (.drive 0)) ∧
    (let t := joined on1 0 (.drive 0)
     99 < (t.typeOf 0).dataCyls ∧ 2 < (t.typeOf 0).heads ∧ (t.typeOf 0).dataCyls ≤ 100 ∧ (t.typeOf 0).heads ≤ 3) :=
  ⟨finds_self _ rfl rfl, ⟨_, rfl, rfl, rfl⟩, by decide +kernel⟩

theorem witness_RecalibrateBegins :
    (let s := on1.modPos 0 fun q => { q with unanswered := 1 }
     let t := joined s 0 (.drive 0)
     s.Finds s ∧ s.Admits (sel 0 0x10) 0 t ∧ (t.pos 0).actuator = .onCylinder ∧ (t.pos 0).unanswered < 2) ∧
    (let s := on1.modPos 0 fun q => { q with actuator := .seeking }
     let t := joined s 0 (.drive 0)
     s.Finds s ∧ s.Admits (sel 0 0x10) 0 t ∧ (t.pos 0).actuator = .seeking) :=
  ⟨⟨finds_self _ rfl rfl, ⟨_, rfl, rfl, rfl⟩, by decide +kernel⟩, finds_self _ rfl rfl, ⟨_, rfl, rfl, rfl⟩, by decide +kernel⟩

theorem witness_SearchAndReadBegin :
    (busy (opOn none none)).Finds (busy (opOn none none)) ∧
    (∀ o ∈ [opOn none none, opOn (some (id1 1 0 1)) none, { opOn none none with searchIndex := 2 }],
      (busy o).Chains (com 0 0x10) 0 o) ∧
    (opOn none none).current = none ∧ (opOn (some (id1 1 0 1)) none).current = some (at24 (id1 1 0 1)) ∧
    (opOn none none).searchIndex < 2 ∧ 2 ≤ { opOn none none with searchIndex := 2 }.searchIndex ∧
    (let a : List Byte := List.replicate 33 0
     32 < a.length ∧ 1 ≤ (a.drop 1).length ∧ (a.drop 1).length ≤ 32 ∧ ([] : List Byte).length < 1) ∧
    ((opOn (some (id1 1 0 1)) none).logical = some t51 ∧ (at24 (id1 1 0 1)).id.address = t51 ∧
      { opOn (some (id1 1 0 1)) none with logical := some ⟨5, 2⟩ }.logical ≠ some (at24 (id1 1 0 1)).id.address ∧
      { opOn (some (id1 1 0 1)) none with logical := none }.logical = none) ∧
    on1.Finds on1 ∧ on1.Admits (sel 0 0x10) 0 (joined on1 0 (.drive 0)) := by
  refine ⟨finds_self _ rfl rfl, fun o ho => ?_, rfl, rfl, by decide +kernel, by decide +kernel, by decide +kernel,
    by decide +kernel, finds_self _ rfl rfl, _, rfl, rfl, rfl⟩
  simp only [List.mem_cons, List.not_mem_nil, or_false] at ho
  rcases ho with rfl | rfl | rfl <;> exact ⟨rfl, rfl, rfl⟩

/-- Drive 0 in a connection of port A whose current record has 700 data bytes, the drive's record and positioner as given. -/
def writable (w : Bool) (f : Positioner → Positioner) : State :=
  ((busy (opOn (some (id1 1 0 700)) none)).setRecord 0 { rec0 0 with writePermitted := w }).modPos 0 f

theorem witness_WriteBegins :
    (let o := opOn (some (id1 1 0 700)) none
     (∀ w f, (writable w f).Finds (writable w f) ∧ (writable w f).Chains (com 0 0x10) 0 o) ∧
     o.current = some (at24 (id1 1 0 700)) ∧ ((writable false id).record 0).writePermitted = false ∧
     ((writable true fun q => { q with writeProtect := true }).pos 0).writeProtect = true ∧
     ((writable true id).record 0).writePermitted = true ∧ ((writable true id).pos 0).writeProtect = false ∧
     ((writable true id).port 0).requests = [] ∧ ((writable true id).port 0).held = []) ∧
    min 256 700 ≤ 256 ∧ 256 < min 257 700 ∧ min 512 700 ≤ 512 ∧ ¬ min 513 700 ≤ 512 := by
  refine ⟨⟨fun w f => ⟨finds_self _ rfl rfl, rfl, rfl, rfl⟩, rfl, ?_⟩, by decide⟩
  decide +kernel

theorem witness_FormatBegins :
    (let o := { opOn none none with record := 0 }
     (∀ f, ((busy o).modPos 0 f).Finds ((busy o).modPos 0 f) ∧ ((busy o).modPos 0 f).Chains (com 0 0x10) 0 o) ∧
     o.record = 0 ∧ o.current = none ∧ ((busy o).pos 0).cyl = some 5 ∧ ((busy o).pos 0).head = some 1 ∧
     ((busy o).pos 0).status = some .good ∧ ((busy o).record 0).writePermitted = true ∧
     ((busy o).pos 0).writeProtect = false ∧
     (∀ x ∈ ([⟨1, 0, 1⟩, ⟨255, 32, 8192⟩] : List Descriptor), 1 ≤ x.number ∧ x.number ≤ 255) ∧
     ((busy o).typeOf 0).fits [⟨1, 0, 1⟩, ⟨255, 32, 8192⟩] = true) ∧
    (¬ ∀ x ∈ ([⟨256, 0, 1⟩] : List Descriptor), 1 ≤ x.number ∧ x.number ≤ 255) ∧ (opOn none none).record ≠ 0 := by
  refine ⟨⟨fun f => ⟨finds_self _ rfl rfl, rfl, rfl, rfl⟩, rfl, rfl, ?_⟩, by decide +kernel, by decide +kernel⟩
  decide +kernel

theorem witness_ReadDriveStateAnswers :
    up.Finds up ∧ up.Reaches (sel 0 0x17) 7 (joined up 0 (.drive 7)) ∧
    (joined on1 0 (.drive 0)).Reaches (com 0 0x10) 0 (joined on1 0 (.drive 0)) ∧
    (busy (opOn none none)).Chains (com 0 0x10) 0 (opOn none none) ∧
    (let u := (busy (opOn none (some .driveState))).modPort 0 fun r =>
       { r with link := [.data 0x10 0 [1]], answer := some { status := { done := true }, found := none, resets := false } }
     u.Finds u ∧ (u.port 0).conn = some (.drive 0) ∧ u.op 0 = some (opOn none (some .driveState)) ∧
       (opOn none (some .driveState)).conn = some 0 ∧ (opOn none (some .driveState)).cmd = some .driveState ∧
       (u.port 0).link = .data 0x10 0 [1] :: [] ∧ (u.port 0).draining = false ∧ (u.port 0).answer.isSome = true) :=
  ⟨finds_self _ rfl rfl, .inl rfl, .inr ⟨rfl, rfl, rfl, rfl, rfl⟩, ⟨rfl, rfl, rfl⟩, finds_self _ rfl rfl, rfl, rfl, rfl, rfl,
    rfl, rfl, rfl⟩

/-- Drive 0 with this sharing record, port A of this group. -/
def inGroup (g : Nat) (x : Sharing) (o : Option Operation) : State := (shared x o).modPort 0 fun r => { r with group := g }

theorem inGroup_finds (g x o) : (inGroup g x o).Finds (inGroup g x o) := finds_self _ rfl rfl

theorem witness_ReadFaultRecordAnswers :
    (let s := inGroup 0 (shr none (some (0, 1)) none) none
     s.Reaches (sel 0 0x10) 0 (joined s 0 (.drive 0)) ∧ ((joined s 0 (.drive 0)).share 0).hold.map Hold.port = some 0 ∧
       ((joined s 0 (.drive 0)).record 0).configured = true ∧ ((joined s 0 (.drive 0)).pos 0).actuator ≠ .notReady) ∧
    (let s := inGroup 0 (shr none (some (1, 1)) none) none
     s.Reaches (sel 0 0x10) 0 (joined s 0 (.drive 0)) ∧ ((joined s 0 (.drive 0)).share 0).hold.map Hold.port = some 1) ∧
    (let s := inGroup 0 (shr none none none) none
     s.Reaches (sel 0 0x10) 0 (joined s 0 (.drive 0)) ∧ ((joined s 0 (.drive 0)).share 0).hold = none ∧
       (joined s 0 (.drive 0)).admission 0 0 .all = .admitted) ∧
    (busy (opOn none none)).Finds (busy (opOn none none)) ∧ (busy (opOn none none)).Chains (com 0 0x10) 0 (opOn none none) :=
  ⟨⟨.inl rfl, by decide +kernel⟩, ⟨.inl rfl, by decide +kernel⟩, ⟨.inl rfl, by decide +kernel⟩, finds_self _ rfl rfl,
    rfl, rfl, rfl⟩

theorem witness_ReserveTakesTheDrive :
    (∀ g, (inGroup g (shr none none none) none).Reaches (sel 0 0x10) 0 (joined (inGroup g (shr none none none) none) 0 (.drive 0))) ∧
    (let r := joined (inGroup 0 (shr none none none) none) 0 (.drive 0)
     r.admission 0 0 .all = .admitted ∧ ((r.endOwnHold 0 0).port 0).group = 0) ∧
    (let r := joined (inGroup 15 (shr (some 15) (some (0, 1)) none) none) 0 (.drive 0)
     r.admission 0 0 .all = .admitted ∧ ((r.endOwnHold 0 0).port 0).group = 15 ∧ (15 : Nat) ≠ 0 ∧
       ((r.endOwnHold 0 0).share 0).owner = some 15) :=
  ⟨fun _ => .inl rfl, by decide +kernel, by decide +kernel⟩

theorem witness_ReleaseClearsTheOwner :
    (∀ g x, (inGroup g x none).Reaches (sel 0 0x10) 0 (joined (inGroup g x none) 0 (.drive 0))) ∧
    (let r := joined (inGroup 15 (shr (some 15) none none) none) 0 (.drive 0)
     r.admission 0 0 .release = .admitted ∧ (r.share 0).owner = some (r.port 0).group ∧ (r.share 0).hold = none) ∧
    (let r := joined (inGroup 15 (shr (some 15) (some (0, 1)) none) none) 0 (.drive 0)
     r.admission 0 0 .release = .admitted ∧ (r.share 0).owner = some (r.port 0).group ∧
       (r.share 0).hold.map Hold.port = some 0) ∧
    (let r := joined (inGroup 15 (shr (some 14) (some (0, 1)) none) none) 0 (.drive 0)
     r.admission 0 0 .release = .admitted ∧ (r.share 0).owner ≠ some (r.port 0).group ∧
       (r.share 0).hold.map Hold.port = some 0) ∧
    (let r := joined (inGroup 15 (shr none (some (1, 1)) none) none) 0 (.drive 0)
     r.admission 0 0 .release = .admitted ∧ (r.share 0).owner ≠ some (r.port 0).group ∧
       (r.share 0).hold.map Hold.port ≠ some 0) :=
  ⟨fun _ _ => .inl rfl, by decide +kernel, by decide +kernel, by decide +kernel, by decide +kernel⟩

/-- Drive 0 reserved by group 1, in a connection of port B's, of that group, with this command in progress. -/
def broken (c : Option Cmd) : State :=
  (inGroup 15 (shr (some 1) none none) (some { opOn none c with issuer := 1, group := 1, conn := some 1 })).modPort 1 fun r =>
    { r with group := 1, state := .connected, conn := some (.drive 0) }

theorem witness_ReserveUnconditionalBreaks_connected :
    (∀ c, let o := { opOn none c with issuer := 1, group := 1, conn := some 1 }
     let r := joined (broken c) 0 (.drive 0)
     (broken c).Finds (broken c) ∧ (broken c).Reaches (sel 0 0x10) 0 r ∧ r.op 0 = some o ∧ o.conn = some 1 ∧ o.alt = none ∧
       o.cmd = c ∧ (1 : Port) ≠ (sel 0 0x10).port ∧ o.group ≠ 15) ∧
    (let r := joined (broken none) 0 (.drive 0)
     (r.record 0).configured = true ∧ (r.pos 0).actuator ≠ .notReady ∧ (r.port 0).group = 15 ∧
       (r.port 0).straps.control = true ∧ ∀ x, (r.port x).awaiting = false) ∧
    ((aWrite false none).begun = false ∧ (aWrite true none).begun = true ∧ (aWrite true none).stop = none ∧
      (aFormat false none).begun = false ∧ (aFormat true none).begun = true ∧ (aFormat true none).stop = none) ∧
    (∀ b, let a := { AltOp.begun .probe none with writePassed := b }
     let r := joined (inGroup 15 (shr none none none) (some { op with issuer := 1, group := 1, alt := some a })) 0 (.drive 0)
     (r.op 0).bind Operation.alt = some a ∧ a.writePassed = b ∧ (r.op 0).map Operation.group = some 1 ∧
       (r.op 0).map Operation.conn = some none) :=
  ⟨fun _ => ⟨finds_self _ rfl rfl, .inl rfl, rfl, rfl, rfl, rfl, by decide, (show (1 : Nat) ≠ 15 by decide)⟩, by decide +kernel,
    by decide, fun _ => ⟨rfl, rfl, rfl, rfl⟩⟩

theorem witness_ReserveUnconditionalBreaks :
    (∀ g x o, (inGroup g x o).Reaches (sel 0 0x10) 0 (joined (inGroup g x o) 0 (.drive 0))) ∧
    (let r := joined (inGroup 0 (shr none none none) none) 0 (.drive 0)
     (r.record 0).configured = true ∧ (r.pos 0).actuator ≠ .notReady ∧ (r.port 0).group = 0) ∧
    (let r := joined (inGroup 15 (shr none none none) (some { op with issuer := 1, group := 15 })) 0 (.drive 0)
     (r.port 0).straps.control = true ∧ (r.port 0).group ≠ 0 ∧ (r.op 0).map Operation.group = some (r.port 0).group) ∧
    (let r := joined (inGroup 15 (shr none none none) (some { op with issuer := 1, group := 1 })) 0 (.drive 0)
     (r.op 0).map Operation.group = some 1 ∧ 1 ≠ (r.port 0).group ∧ (r.op 0).bind Operation.conn = none ∧
       (r.op 0).bind Operation.alt = none) ∧
    (let r := joined (inGroup 15 (shr none (some (1, 1)) (some .command)) none) 0 (.drive 0)
     r.op 0 = none ∧ (r.share 0).hold.isSome = true ∧ ((r.share 0).owes 1).isSome = true ∧ (r.share 0).owner = none) ∧
    (let r := joined ((inGroup 15 (shr (some 1) none none) none).modPort 2 fun x => { x with group := 1 }) 0 (.drive 0)
     (r.share 0).owes 2 = none ∧ (r.share 0).owner = some 1 ∧ 1 ≠ (r.port 0).group ∧ (r.port 2).group = 1 ∧
       (r.port 2).state ≠ .disabled ∧ (r.port 2).state ≠ .resetting ∧ (r.port 1).group ≠ 1) := by
  refine ⟨fun _ _ _ => .inl rfl, by decide +kernel, by decide +kernel, by decide +kernel, by decide +kernel, by decide +kernel⟩

theorem witness_UnknownCodesAreRefused :
    on1.Finds on1 ∧ on1.Admits (sel 0 0x10) 0 (joined on1 0 (.drive 0)) ∧
    (∀ c ∈ [0x15, 0x18, 0x1B], c ∉ [0x16, 0x17, 0x19, 0x1A]) ∧ on1.Opens (sel 0 0x10) (.drive 0) (joined on1 0 (.drive 0)) ∧
    (busy (opOn none none)).Chains (com 0 0x10) 0 (opOn none none) ∧
    (∀ a, (atUnit.modPort 0 fun r => { r with answer := a }).Stands (com 0 0x18) .unit) ∧
    (atUnit.port 0).answer = none ∧ (atUnit.port 0).closing = false ∧
    up.Opens (sel 0 0x18) .unit atUnit ∧
    (∀ c, (busy (opOn none c)).Stands (com 0 0x10) (.drive 0) ∧ (busy (opOn none c)).op 0 = some (opOn none c) ∧
      (opOn none c).conn = some 0 ∧ (opOn none c).cmd = c) ∧
    ((aWrite false none).begun = false ∧ (aWrite true none).begun = true ∧ (aWrite true none).stop = none ∧
      (aFormat true none).begun = true ∧ (aFormat true none).stop = none) :=
  ⟨finds_self _ rfl rfl, ⟨_, rfl, rfl, rfl⟩, by decide, rfl, ⟨rfl, rfl, rfl⟩, fun _ => rfl, rfl, rfl, rfl,
    fun _ => ⟨rfl, rfl, rfl, rfl⟩, by decide⟩

/-! The unit orders are taken from port A, which is control permitted, in t = joined s 0 .unit. -/

theorem takesControl_select (s : State) (h0 : (s.port 0) = PortRec.powerOn straps[0]) :
    s.TakesControl (sel 0 0x18) ((joined s 0 .unit).modPort 0 fun x => { x with idleTimer := none }) := by
  refine ⟨⟨_, .inl ?_, rfl⟩, ?_⟩
  · show s.receive (sel 0 0x18) = _
    unfold State.receive
    have h1 : (s.port (sel 0 0x18).port) = PortRec.powerOn straps[0] := h0
    rw [h1]
    show s.selectAt 0 .unit = _
    unfold State.selectAt
    rw [h0]
    rfl
  · show ((State.modPort _ 0 _).port 0).straps.control = true
    simp only [State.modPort_port, if_true, joined, h0]
    rfl

/-- Where a unit order from port A finds itself. -/
def taken (s : State) : State := (joined s 0 .unit).modPort 0 fun x => { x with idleTimer := none }

theorem witness_UnitOrderAnswers :
    (atUnit.port 0).closing = false ∧ ((atUnit.modPort 0 fun r => { r with closing := true }).port 0).closing = true ∧
    up.Finds up ∧ up.TakesOrder (sel 1 0x28) ((joined up 1 .unit).modPort 1 fun x => { x with idleTimer := none }) ∧
    (((joined up 1 .unit).modPort 1 fun x => { x with idleTimer := none }).port 1).straps.control = false :=
  ⟨rfl, rfl, finds_self _ rfl rfl, ⟨_, .inl rfl, rfl⟩, rfl⟩

theorem witness_LoadDriveTypeStores :
    up.Finds up ∧ up.TakesControl (sel 0 0x18) (taken up) ∧
    (ty.inRange = true ∧ { ty with dataCyls := 64 }.inRange = true ∧ { ty with dataCyls := 1000, lead := 15 }.inRange = true) ∧
    -- items 2, 6 and 14 outside their range, the last behind twelve that are not
    (¬ 64 ≤ { ty with dataCyls := 63 }.dataCyls ∧ ¬ 4 * { ty with lead := 17 }.lead ≤ ty.sectors ∧
      (let x := { ty with holdLimit := 0 }
       (64 ≤ x.dataCyls ∧ x.dataCyls ≤ 1000) ∧ (1 ≤ x.altCyls ∧ x.altCyls ≤ 16) ∧ (1 ≤ x.heads ∧ x.heads ≤ 24) ∧
       (32 ≤ x.sectors ∧ x.sectors ≤ 128) ∧ (2 ≤ x.lead ∧ x.lead ≤ 15 ∧ 4 * x.lead ≤ x.sectors) ∧
       (1 ≤ x.setup ∧ x.setup ≤ x.lead) ∧ (5 ≤ x.stepTime ∧ x.stepTime ≤ 500) ∧ (1 ≤ x.settleTime ∧ x.settleTime ≤ 40) ∧
       (2048 ≤ x.capacity ∧ x.capacity ≤ 20480) ∧ x.retryBudget ≤ 3 ∧ (1 ≤ x.missLimit ∧ x.missLimit ≤ 15) ∧
       (1 ≤ x.threshold ∧ x.threshold ≤ 7) ∧ ¬ 1 ≤ x.holdLimit)) ∧
    ((taken up).types[(0 : TypeNo)] = some ty ∧ ((taken up).record 7).configured = true ∧ ((taken up).record 7).typeNo = 0 ∧
      (let x := { ty with capacity := 12801 }
       x.inRange = true ∧ x.dataCyls = ty.dataCyls ∧ x.altCyls = ty.altCyls ∧ x.heads = ty.heads ∧ x.sectors = ty.sectors ∧
         x.capacity ≠ ty.capacity)) ∧
    ((taken up).types[(3 : TypeNo)] = none ∧ (∀ d, ((taken up).record d).configured = true → ((taken up).record d).typeNo ≠ 3) ∧
      ∀ d, ((taken up).record d).configured = true → ((taken up).record d).typeNo = 0 → (taken up).op d = none) ∧
    ∃ d, ((taken (up.setOp 1 (some op))).record d).configured = true ∧ ((taken (up.setOp 1 (some op))).record d).typeNo = 0 ∧
      ((taken (up.setOp 1 (some op))).op d).isSome = true :=
  ⟨finds_self _ rfl rfl, takesControl_select up rfl, by decide +kernel, by decide +kernel, by decide +kernel,
    by decide +kernel, by decide +kernel⟩

theorem witness_LoadDriveRecordReplaces :
    up.Finds up ∧ up.TakesControl (sel 0 0x18) (taken up) ∧ (8 : Nat) ≤ 8 ∧ (7 : Drive).val = 7 ∧
    (taken up).types[(0 : TypeNo)] = some ty ∧ (taken up).types[(3 : TypeNo)] = none ∧
    ty.altCyls * ty.heads < 7 ∧ 6 ≤ ty.altCyls * ty.heads ∧
    (((taken (up.setOp 0 (some op))).op 0).isSome = true ∧ ((taken (shared (shr none (some (0, 1)) none) none)).op 0) = none ∧
      ((taken (shared (shr none (some (0, 1)) none) none)).share 0).hold.isSome = true) ∧
    ((taken on1).op 0 = none ∧ ((taken on1).share 0).hold = none ∧ ((taken on1).record 0).configured ≠ false ∧
      ((taken on1).pos 0).actuator = .onCylinder ∧
      ((taken (on1.modPos 0 fun q => { q with actuator := .seeking })).pos 0).actuator = .seeking ∧
      ((taken up).pos 0).actuator = .uncalibrated ∧ ((taken up).pos 7).actuator = .notReady) :=
  ⟨finds_self _ rfl rfl, takesControl_select up rfl, by decide, by decide, by decide +kernel, by decide +kernel,
    by decide +kernel, by decide +kernel, by decide +kernel, by decide +kernel⟩

theorem witness_StateReadingOrdersAnswer :
    bounds.Finds bounds ∧ bounds.TakesOrder (sel 0 0x18) (taken bounds) ∧ (taken bounds).suspects.length ≤ 32 ∧
    (1 ≤ 1 ∧ 96 ≤ 96) ∧ (0 < 1 ∧ 96 < 97) :=
  ⟨finds_self _ rfl rfl, (takesControl_select bounds rfl).1, by decide +kernel, by decide, by decide⟩

theorem witness_SpareMapOrders :
    up.Finds up ∧ up.TakesControl (sel 0 0x18) (taken up) ∧
    -- the entries of an order, one that fails second in each list; then lists that pass
    (let t := taken up
     let undriven (e : SpareItem) : Bool := decide (∀ d : Drive, d.val = e.drive → (t.record d).configured = false)
     let misplaced (e : SpareItem) : Bool := decide (∀ d : Drive, d.val = e.drive →
       ¬ (e.home.cyl < (t.typeOf d).dataCyls ∧ e.home.head < (t.typeOf d).heads ∧
         (t.typeOf d).dataCyls ≤ e.alternate.cyl ∧ e.alternate.cyl < (t.typeOf d).dataCyls + (t.typeOf d).altCyls ∧
         e.alternate.head < (t.typeOf d).heads))
     let a : SpareItem := ⟨1, t51, ⟨101, 2⟩⟩
     let b : SpareItem := ⟨7, ⟨99, 2⟩, ⟨100, 0⟩⟩
     (List.replicate 17 a).length > 16 ∧ (List.replicate 16 a).length ≤ 16 ∧
     (¬ undriven a ∧ ¬ undriven b ∧ undriven ⟨3, t51, ⟨101, 2⟩⟩ ∧ undriven ⟨8, t51, ⟨101, 2⟩⟩) ∧
     (¬ misplaced a ∧ ¬ misplaced b ∧ misplaced ⟨1, ⟨100, 0⟩, ⟨101, 2⟩⟩ ∧ misplaced ⟨1, ⟨99, 3⟩, ⟨101, 2⟩⟩ ∧
       misplaced ⟨1, t51, ⟨99, 2⟩⟩ ∧ misplaced ⟨1, t51, ⟨102, 0⟩⟩) ∧
     (∀ e ∈ [a, b], ∀ d : Drive, d.val = e.drive → t.op d = none) ∧ t.spareMap = [] ∧
     -- within the list: the second entry's alternate is the first's
     ((⟨1, ⟨6, 0⟩, ⟨101, 2⟩⟩ : SpareItem).alternate = a.alternate ∧ (⟨1, ⟨6, 0⟩, ⟨101, 2⟩⟩ : SpareItem).drive = a.drive ∧
       b.drive ≠ a.drive)) ∧
    -- against the map: its pending alternate, a full map, one place left
    (∃ x ∈ (taken (mapped [entry t51 (some ⟨101, 1⟩) (some ⟨101, 2⟩) true])).spareMap, x.drive.val = 0 ∧
      x.pending = some ⟨101, 2⟩) ∧
    (96 < (taken (mapped fullMap)).spareMap.length + 1 ∧ (taken (mapped (fullMap.drop 1))).spareMap.length + 1 ≤ 96 ∧
      ∀ x ∈ (taken (mapped fullMap)).spareMap, x.drive.val ≠ 1) ∧
    -- an operation in flight on a drive named
    (let s := up.setOp 1 (some op)
     s.Finds s ∧ s.TakesControl (sel 0 0x18) (taken s) ∧ ((taken s).op 1).isSome = true ∧ (taken s).op 0 = none) ∧
    -- DELETE SPARE ENTRY
    ((¬ (((taken up).record 0).configured = true → 100 < ((taken up).typeOf 0).dataCyls)) ∧
      (((taken up).record 0).configured = true → 99 < ((taken up).typeOf 0).dataCyls) ∧
      ((taken up).record 3).configured = false ∧ (taken up).op 0 = none ∧
      (∃ e ∈ (taken (mapped [entry t51 (some ⟨101, 2⟩) none true])).spareMap, e.drive = 0 ∧ e.home = t51) ∧
      ∀ e ∈ (taken up).spareMap, e.drive = 0 → e.home ≠ t51) :=
  ⟨finds_self _ rfl rfl, takesControl_select up rfl, by decide +kernel, by decide +kernel, by decide +kernel,
    ⟨finds_self _ rfl rfl, takesControl_select _ rfl, by decide +kernel⟩, by decide +kernel⟩

theorem witness_AlternateOperationsBegin :
    on1.Finds on1 ∧ on1.TakesControl (sel 0 0x18) (taken on1) ∧
    (let t := taken on1
     (t.record 0).configured = true ∧ (t.pos 0).actuator ≠ .notReady ∧ 99 < (t.typeOf 0).dataCyls ∧ 2 < (t.typeOf 0).heads ∧
     (t.share 0).hold = none ∧ (t.share 0).owner = none ∧ t.op 0 = none ∧ (t.pos 0).writeProtect = false ∧
     t.spareMap.length < 96 ∧ t.entryFor 0 t51 = none) ∧
    (8 ≤ 8 ∧ ((taken on1).record 6).configured = false ∧ ((taken on1).record 7).configured = true ∧
      ((taken on1).pos 7).actuator = .notReady ∧ ¬ 100 < ((taken on1).typeOf 0).dataCyls ∧
      ¬ 3 < ((taken on1).typeOf 0).heads) ∧
    (((taken (shared (shr none (some (0, 1)) none) none)).share 0).hold.isSome = true ∧
      (let t := taken (shared (shr (some 15) none none) none)
       (t.share 0).hold = none ∧ (t.share 0).owner = some 15 ∧ (t.port 0).group ≠ 15) ∧
      ((taken (shared (shr none none none) (some op))).op 0).isSome = true) ∧
    (let t := taken (mapped fullMap)
     t.entryFor 0 t51 = none ∧ 96 ≤ t.spareMap.length) ∧
    (let e := entry t51 none (some ⟨101, 2⟩) true
     (taken (mapped [e])).entryFor 0 t51 = some e ∧ e.current = none) ∧
    ((taken (on1.modPos 0 fun q => { q with writeProtect := true })).pos 0).writeProtect = true ∧
    (let e := entry t51 (some ⟨101, 2⟩) none true
     (taken (mapped [e])).entryFor 0 t51 = some e ∧ e.current.isSome = true) :=
  ⟨finds_self _ rfl rfl, takesControl_select on1 rfl, by decide +kernel, by decide +kernel, by decide +kernel,
    by decide +kernel, by decide +kernel, by decide +kernel, by decide +kernel⟩

/-- An ASSIGN ALTERNATE of track 5/1 at PICK with this many candidates tried, the cursor here. -/
def picking (tried cursor : Nat) (l : List SpareEntry) : State :=
  let a : AltOp := { AltOp.begun .pick none with tried := tried }
  ({ on1 with spareMap := l } : State).setRecord 0 (rec0 cursor)
    |>.setOp 0 (some { op with kind := .assignAlternate, alt := some a })

/-- Drive 0 on 5/1 with an alternate operation of track 5/1 that has come this far. -/
def alternating (a : AltOp) (kind : OpKind) (l : List SpareEntry) : State :=
  (mapped l).setOp 0 (some { op with kind := kind, alt := some a })

theorem alternating_op (a k l) :
    (alternating a k l).op 0 = some { op with kind := k, alt := some a } ∧ { op with kind := k, alt := some a }.alt = some a ∧
    { op with kind := k, alt := some a }.target = some t51 ∧ { op with kind := k, alt := some a }.home = t51 :=
  ⟨rfl, rfl, rfl, rfl⟩

/-- The further items of an alternate operation at this step, with this candidate and old alternate. -/
def altAt (step : AltStep) (fresh : Bool) (candidate old : Option Track) : AltOp :=
  { AltOp.begun step none with candidate := candidate, fresh := fresh, hasEntry := fresh, old := old }

theorem witness_PickTakesTheTrackAtTheCursor :
    (((picking 8 0 []).op 0).bind Operation.alt).map AltOp.tried = some 8 ∧
    (((picking 7 6 []).op 0).bind Operation.alt).map AltOp.tried = some 7 ∧
    ((picking 7 6 []).typeOf 0).altCyls * ((picking 7 6 []).typeOf 0).heads ≤ ((picking 7 6 []).record 0).cursor ∧
    ((picking 7 5 []).record 0).cursor < ((picking 7 5 []).typeOf 0).altCyls * ((picking 7 5 []).typeOf 0).heads ∧
    (∃ e ∈ (picking 7 5 [entry ⟨6, 0⟩ (some ⟨101, 2⟩) none true]).spareMap,
      e.drive = 0 ∧ e.current = some (((picking 7 5 []).typeOf 0).alternateAt 5)) ∧
    (∀ e ∈ (picking 7 5 [entry ⟨6, 0⟩ none (some ⟨101, 2⟩) true]).spareMap,
      e.drive = 0 → e.current ≠ some (((picking 7 5 []).typeOf 0).alternateAt 5)) ∧
    (((picking 7 5 []).pos 0).actuator = .onCylinder ∧ ((picking 7 5 []).pos 0).cyl = some 5 ∧
      5 ≠ (((picking 7 5 []).typeOf 0).alternateAt 5).cyl ∧ ((picking 7 5 []).pos 0).unanswered < 2) ∧
    -- the steps, the candidate, the entry
    (∀ k ∈ [AltStep.pick, .probe, .markAlt, .markHome, .commit, .approach, .rewriteHome, .retireAlt], ∀ b c q,
      (altAt k b c q).step = k ∧ (altAt k b c q).fresh = b ∧ (altAt k b c q).hasEntry = b ∧ (altAt k b c q).candidate = c ∧
      (altAt k b c q).old = q) ∧
    (96 ≤ (alternating (altAt .probe false (some ⟨101, 2⟩) none) .assignAlternate fullMap).spareMap.length ∧
      (alternating (altAt .probe false (some ⟨101, 2⟩) none) .assignAlternate (fullMap.drop 1)).spareMap.length < 96) ∧
    -- the candidate held by another entry, the home track entered, neither
    (let held (l : List SpareEntry) : Prop := ∃ e ∈ (alternating (altAt .probe true (some ⟨101, 2⟩) none) .assignAlternate l).spareMap,
       e.drive = 0 ∧ e.home ≠ op.home ∧ (e.current = some ⟨101, 2⟩ ∨ e.pending = some ⟨101, 2⟩)
     let entered (l : List SpareEntry) : Prop := ∃ e ∈ (alternating (altAt .probe true none none) .assignAlternate l).spareMap,
       e.drive = 0 ∧ e.home = op.home
     held [entry ⟨6, 0⟩ none (some ⟨101, 2⟩) true] ∧ ¬ entered [entry ⟨6, 0⟩ none (some ⟨101, 2⟩) true] ∧
       ¬ held [entry t51 (some ⟨101, 1⟩) none true] ∧ entered [entry t51 (some ⟨101, 1⟩) none true] ∧ ¬ held [] ∧ ¬ entered []) ∧
    -- tracks in their places, and out of them
    (let s := alternating (altAt .probe true (some ⟨101, 2⟩) none) .assignAlternate []
     let ty := s.typeOf 0
     let placed (home q : Track) : Prop := (s.record 0).configured = true ∧ home.cyl < ty.dataCyls ∧ home.head < ty.heads ∧
       ty.dataCyls ≤ q.cyl ∧ q.cyl < ty.dataCyls + ty.altCyls ∧ q.head < ty.heads
     op.home = t51 ∧ placed t51 ⟨101, 2⟩ ∧ ¬ placed t51 ⟨102, 0⟩ ∧ ¬ placed ⟨100, 0⟩ ⟨101, 2⟩) ∧
    -- positions
    (let s := alternating (altAt .markAlt false (some ⟨101, 2⟩) none) .assignAlternate []
     (s.pos 0).actuator = .onCylinder ∧ (s.pos 0).cyl = some t51.cyl ∧ (s.pos 0).head = some t51.head ∧
     (s.pos 0).status = some .good ∧ 5 ≠ (⟨101, 2⟩ : Track).cyl ∧ (s.pos 0).unanswered < 2 ∧
     ((s.modPos 0 fun q => { q with cyl := some 101 }).pos 0).cyl = some 101 ∧ 101 ≠ t51.cyl) ∧
    -- faults noted, kinds, claims
    ((∀ x, (altAt .markHome false none (some ⟨101, 2⟩)).firstFault ≠ some (.equipmentCheck, x)) ∧
      { altAt .markHome false none (some ⟨101, 2⟩) with firstFault := some (.equipmentCheck, .seek) }.firstFault =
        some (.equipmentCheck, .seek) ∧
      ((up.setOp 0 (some op)).pos 0).actuator = .uncalibrated) ∧
    (OpKind.assignAlternate ≠ .restoreTrack ∧ (altAt .commit true none none).issuerHeld = true ∧
      { altAt .commit true none none with issuerHeld := false }.issuerHeld = false ∧ op.group = 0 ∧
      { op with group := 15 }.group ≠ 0 ∧ ((up.modPort 2 fun r => { r with group := 15 }).port 2).group = 15 ∧
      ∀ p, (up.port p).group ≠ 15) := by
  refine ⟨by decide +kernel, by decide +kernel, by decide +kernel, by decide +kernel, by decide +kernel, by decide +kernel,
    by decide +kernel, fun k _ b c q => ⟨rfl, rfl, rfl, rfl, rfl⟩, by decide +kernel, by decide +kernel, by decide +kernel,
    by decide +kernel, ⟨by nofun, rfl, by decide +kernel⟩, by decide +kernel⟩

/-- The first fault is kept where it ends the operation, and a candidate skipped at once is the candidate (R124, R126). -/
theorem test_first_fault_and_candidate_at_exhaustion :
    let s := (picking 0 5 [entry ⟨6, 0⟩ (some ⟨101, 2⟩) none true]).pick 0 9
    ((s.op 0).bind Operation.alt).map (fun a => (a.firstFault, a.candidate, a.tried, a.step)) =
      some (some (.noAlternate, .exhausted), some ⟨101, 2⟩, 1, .pick) := by decide +kernel

/-- An ended ASSIGN ALTERNATE whose issuer claim is LOST, its group 3 port A's alone. -/
def unclaimed : State :=
  (on1.setOp 0 (some { keeping with alt := some { altAt .commit false none none with issuerHeld := false }, group := 3 })
    ).modPort 0 fun r => { r with group := 3 }

theorem witness_GroupAndMaskOrders :
    up.Finds up ∧ up.TakesOrder (sel 0 0x18) (taken up) ∧ 15 < 16 ∧ 15 ≤ 15 ∧
    ((taken (shared (shr none (some (0, 1)) none) none)).share 0).hold.map Hold.port = some 0 ∧
    (∀ d, ((taken up).share d).hold = none ∧ ((taken up).share d).owes 0 = none ∧ (taken up).op d = none) ∧
    (((taken up).port 0).group = 0 ∧ (15 : Nat) ≠ 0) ∧
    (let t := taken unclaimed
     (∀ d, (t.share d).hold = none ∧ (t.share d).owes 0 = none) ∧ (∀ e, e ≠ 0 → t.op e = none) ∧
     ∃ o a x, t.op 0 = some o ∧ o.alt = some a ∧ o.pending = some x ∧ a.issuerHeld = false ∧ o.group ≠ 4 ∧
       4 ≠ (t.port 0).group ∧ ∀ q, q ≠ 0 → (t.port q).group ≠ o.group) ∧
    (2 ≤ 2 ∧ true.toNat = 1 ∧ false.toNat = 0) :=
  ⟨finds_self _ rfl rfl, (takesControl_select up rfl).1, by decide, by decide, by decide +kernel, by decide +kernel,
    by decide +kernel, ⟨by decide +kernel, by decide +kernel, _, _, _, rfl, rfl, rfl, rfl, by decide, by decide,
      by decide +kernel⟩, by decide⟩

theorem witness_UnitClearEmptiesTheUnit :
    on1.Finds on1 ∧ on1.TakesControl (sel 0 0x18) (taken on1) ∧
    ((1 : Port) ≠ 0 ∧ ((joined on1 1 .unit).port 1).state = .connected ∧
      ((on1.modPort 1 fun r => { r with state := .resetting }).port 1).state = .resetting) ∧
    (((on1.modPos 0 fun q => { q with actuator := .seeking }).pos 0).actuator = .seeking ∧ (on1.pos 0).actuator ≠ .seeking ∧
      (on1.pos 0).actuator ≠ .recalibrating) ∧ (∀ d, (taken on1).op d = none) ∧
    (∀ b, let t := taken (alternating (altAt .markAlt b (some ⟨101, 2⟩) none) .assignAlternate
       [entry t51 none (some ⟨101, 2⟩) true])
     (t.op 0).bind Operation.alt = some (altAt .markAlt b (some ⟨101, 2⟩) none) ∧ (t.op 0).map Operation.home = some t51 ∧
     (altAt .markAlt b (some ⟨101, 2⟩) none).fresh = b ∧
     ∃ e ∈ t.spareMap, e.drive = 0 ∧ e.home = t51 ∧ e.pending = some ⟨101, 2⟩) ∧
    ((entry ⟨6, 0⟩ none none true).home ≠ t51 ∧ (opOn none none).alt = none) :=
  ⟨finds_self _ rfl rfl, takesControl_select on1 rfl, by decide +kernel, by decide +kernel, by decide +kernel,
    fun b => ⟨rfl, rfl, rfl, _, List.mem_cons_self, rfl, rfl, rfl⟩, by decide⟩

theorem witness_FaultInAConnection :
    ((busy (opOn none none)).op 0 = some (opOn none none) ∧ ((busy (opOn none none)).port 0).conn = some (.drive 0) ∧
      ∀ q, ((busy (opOn none none)).port q).awaiting = false) ∧
    (let s := (busy (opOn none none)).setShare 0 (shr none none (some .order))
     (1 : Port) ≠ 0 ∧ (s.share 0).owes 1 = some .order ∧ (s.port 1).state ≠ .disabled ∧
       ((s.setShare 0 (shr none none (some .command))).share 0).owes 1 = some .command) ∧
    (let s := (joined on1 2 (.drive 0)).modPort 2 fun r => { r with awaiting := true }
     (s.port 2).awaiting = true ∧ (s.port 2).conn = some (.drive 0) ∧ ∀ q, q ≠ 2 → (s.port q).awaiting = false) := by
  decide +kernel

/-- A search for the current record, just begun: nothing is read before the next INDEX MARK. -/
def anew : Finding := { marks := 0, noted := false, waitIndex := true }

/-- A WRITE of n bytes in progress on port A. -/
def writing (n drawn : Nat) (begun : Bool) (requests : List (Nat × Nat)) (held : List Chunk) : State :=
  (busy { opOn (some (id1 1 0 700)) (some (.write {
    need := n, bytes := List.replicate drawn 0, toAsk := [], begun := begun, zeroFill := false, seek := none,
    stop := none })) with byteCount := n }).modPort 0 fun r => { r with requests := requests, held := held }

/-- A WRITE of 700 bytes in progress, of which the last 188 have not been asked for. -/
def asking700 (requests : List (Nat × Nat)) (held : List Chunk) : State :=
  (busy (opOn (some (id1 1 0 700)) (some (.write { need := 700, bytes := [], toAsk := [(512, 188)], begun := false,
                                                   zeroFill := false, seek := none, stop := none })))).modPort 0
    fun r => { r with requests := requests, held := held }

theorem writing_finds (n drawn b l h) : (writing n drawn b l h).Finds (writing n drawn b l h) := finds_self _ rfl rfl

theorem witness_HostBytesOfAWrite :
    (let u := writing 256 0 false [(0, 256)] []
     u.Finds u ∧ (u.op 0).bind Operation.conn = some 0 ∧ (u.port 0).state = .connected ∧ (u.port 0).conn = some (.drive 0) ∧
     (u.port 0).named 0x0F = none ∧ (u.port 0).named 0x10 ≠ none ∧ (256 : Nat) ≠ (List.replicate 255 (0 : Byte)).length ∧
     256 = (List.replicate 256 (0 : Byte)).length ∧ (u.port 0).requests = (0, 256) :: [] ∧ (0, 256).1 ≠ 1 ∧
     (u.port 0).held = [] ∧ (1 : Nat) < 256 ∧ (u.port 0).slots + (u.port 0).held.length < 2) ∧
    -- a request that stands while no slot is free, and a WRITE that draws nothing
    (let c : Chunk := { offset := 0, bytes := [9] }
     let u := writing 256 0 false [(0, 256)] [c, c]
     (u.port 0).requests = (0, 256) :: [] ∧ 2 ≤ (u.port 0).slots + (u.port 0).held.length) ∧
    ({ aWrite false none with seek := some anew }.seek.isSome = true ∧ (aWrite false none).seek = none ∧
      { opOn none none with lost := true }.lost = true ∧ (opOn none none).lost = false) ∧
    -- with bytes left to be asked for: two requests outstanding, or one and a frame, or two frames
    (∀ rq held, let u := asking700 rq held
     u.Finds u ∧ ((u.op 0).bind Operation.cmd).isSome = true ∧ (u.port 0).requests = rq ∧ (u.port 0).held = held ∧
       (u.op 0).bind Operation.current = some (at24 (id1 1 0 700))) ∧
    ((asking700 [] []).op 0).map (fun o => (asking700 [] []).inTime 0 o (24 + 28)) = some true ∧
    (let c : Chunk := { offset := 0, bytes := [9] }
     let y : Chunk := { offset := 256, bytes := [9] }
     [y, c] = [y] ++ c :: [] ∧ c.offset = ([] : List Byte).length ∧ (∀ x ∈ [y] ++ [], x.offset ≠ ([] : List Byte).length) ∧
       ([(256, 256)] : List (Nat × Nat)).length + ([] : List Chunk).length = 1 ∧ ([] : List (Nat × Nat)).length + [y].length = 1) ∧
    ((writing 256 256 true [] []).op 0 ≠ none ∧ ((writing 256 256 true [] []).port 0).requests = []) ∧
    (let c : Chunk := { offset := 255, bytes := [9] }
     let u := writing 256 255 true [] [c]
     (u.port 0).held = [] ++ c :: [] ∧ c.offset = 255 ∧ 255 < 256 ∧ (u.op 0).bind Operation.current = some (at24 (id1 1 0 700)) ∧
     (u.op 0).map (fun o => u.inTime 0 o (24 + 28)) = some true) ∧
    (let u := (writing 256 0 false [] []).modOp 0 fun o => { o with marksSince := 10 }
     (u.op 0).map (fun o => u.inTime 0 o (24 + 28)) = some false) :=
  ⟨⟨finds_self _ rfl rfl, by decide +kernel⟩, by decide +kernel, by decide, fun _ _ => ⟨finds_self _ rfl rfl, rfl, rfl, rfl, rfl⟩,
    by decide +kernel, by decide +kernel, by decide +kernel, by decide +kernel, by decide +kernel⟩

theorem witness_ConnectionsAreClosed :
    atUnit.Finds atUnit ∧ (atUnit.port 0).named 0x18 ≠ none ∧ (atUnit.port 0).named 0x19 = none ∧
    (atUnit.port 0).state = .connected ∧ (atUnit.port 0).conn = some .unit ∧ (atUnit.port 0).answer = none ∧
    (let s := after (.readUnitState (com 0 0x18)) atUnit
     (s.port 0).answer.isSome = true ∧ (s.port 0).conn = some .unit ∧ s.powered = true ∧ s.due = none) ∧
    (∀ c, let s := busy (opOn none c)
     (s.port 0).conn = some (.drive 0) ∧ s.op 0 = some (opOn none c) ∧ (opOn none c).conn = some 0 ∧ (opOn none c).cmd = c) ∧
    ((joined up 0 (.drive 7)).op 7 = none ∧ (up.port 1).state ≠ .connected) ∧
    (let u := atUnit.modPort 0 fun r => { r with idleTimer := some 1 }
     (u.port 0).idleTimer = some 1 ∧ u.now < 1 ∧ u.Quiet ∧ u.due = none ∧ (∀ d, (u.pos d).deadline = none) ∧
     (∀ q, q ≠ 0 → (u.port q).idleTimer = none) ∧ State.Quiet (({ u with now := 1 } : State).endConnection 0) ∧
     (({ u with now := 1 } : State).port 0).idleTimer = some 1 ∧ 1 ≤ ({ u with now := 1 } : State).now) ∧
    (waiting.port 1).idleTimer = none :=
  ⟨finds_self _ rfl rfl, by decide +kernel, by decide +kernel, by decide +kernel, by decide +kernel, by decide +kernel,
    by decide +kernel, fun _ => ⟨rfl, rfl, rfl, rfl⟩, by decide +kernel,
    ⟨by decide +kernel, by decide +kernel, ⟨by decide +kernel, by decide +kernel⟩, by decide +kernel, by decide +kernel,
      by decide +kernel, ⟨by decide +kernel, by decide +kernel⟩, by decide +kernel, by decide +kernel⟩, by decide +kernel⟩

theorem witness_HaltStops :
    (∀ c, (busy (opOn none c)).Finds (busy (opOn none c)) ∧ (busy (opOn none c)).addressed 0 0x10 = some (.drive 0) ∧
      ((busy (opOn none c)).port 0).state = .connected ∧ ((busy (opOn none c)).port 0).conn = some (.drive 0) ∧
      (busy (opOn none c)).op 0 = some (opOn none c) ∧ (opOn none c).conn = some 0 ∧ (opOn none c).cmd = c) ∧
    ((aWrite true (some .halted)).stop.isSome = true ∧ (aFormat true (some .closed)).stop.isSome = true) ∧
    (let s := joined on1 0 (.drive 0)
     (s.port 0).state = .connected ∧ (s.port 0).conn = some (.drive 0) ∧ s.op 0 = none ∧ (s.port 0).draining = false ∧
     (s.port 0).ending = false ∧
     ((s.modPort 0 fun r => { r with link := [.status 0x10 Status.accepted true] }).port 0).ending = true) ∧
    (let s := on1.setOp 0 (some { op with issuer := 1, group := 0 })
     s.addressed 0 0x10 = some (.drive 0) ∧ (s.port 0).state ≠ .resetting ∧ (s.port 0).state ≠ .connected ∧
       ¬ ((1 : Port) = 0 ∨ ((s.port 0).group ≠ 0 ∧ (s.port 0).group = 0)) ∧ s.addressed 1 0x20 = some (.drive 0)) ∧
    (let s := ((joined on1 0 (.drive 0)).setOp 0 (some op)).modPort 0 fun r => { r with draining := true }
     (s.port 0).draining = true ∧ s.op 0 = some op ∧ op.conn ≠ some 0) ∧
    (let s := (on1.setOp 0 (some { op with issuer := 1, group := 15 })).modPort 0 fun r => { r with group := 15 }
     (s.port 0).group ≠ 0 ∧ (s.port 0).group = 15 ∧ op.conn = none ∧ op.alt = none ∧ ∀ q, (s.port q).awaiting = false) ∧
    (let u := alternating (altAt .probe false none none) .assignAlternate []
     u.Finds u ∧ u.addressed 0 0x18 = some .unit ∧ (u.port 0).state ≠ .resetting ∧ op.issuer = 0 ∧
     (altAt .probe false none none).writePassed = false ∧ (∀ e, e ≠ 0 → u.op e = none) ∧
     ∀ q, (u.port q).awaiting = false ∧ (u.port q).offer = none) ∧ (∀ d, on1.op d = none) :=
  ⟨fun _ => ⟨finds_self _ rfl rfl, rfl, rfl, rfl, rfl, rfl, rfl⟩, by decide +kernel, by decide +kernel, by decide +kernel,
    by decide +kernel, by decide +kernel, ⟨finds_self _ rfl rfl, by decide +kernel⟩, by decide +kernel⟩

theorem witness_PortResetClearsThePort :
    up.Finds up ∧ (up.port 3).state = .disabled ∧ (up.port 0).state ≠ .disabled ∧ (up.port 0).state ≠ .resetting ∧
    ((portAs .resetting none none).port 0).state = .resetting ∧
    ((busy (opOn none none)).op 0 = some (opOn none none) ∧ (opOn none none).alt = none ∧ (opOn none none).issuer = 0) ∧
    (∀ b, let a := { altAt .commit false none none with writePassed := b }
     (alternating a .assignAlternate []).op 0 = some { op with kind := .assignAlternate, alt := some a } ∧ op.issuer = 0 ∧
       a.writePassed = b ∧ op.pending = none) ∧
    ((on1.share 0).owner = none) ∧
    (let s := inGroup 15 (shr (some 15) none none) none
     (s.share 0).owner = some 15 ∧ 15 = (s.port 0).group ∧ (∀ q, q ≠ 0 → (s.port q).group ≠ 15) ∧
     ∀ q, (s.port q).offer = none) :=
  ⟨finds_self _ rfl rfl, by decide +kernel, by decide +kernel, by decide +kernel, by decide +kernel, by decide +kernel,
    fun _ => ⟨rfl, rfl, rfl, rfl⟩, by decide +kernel, by decide +kernel⟩

/-- Port A OFFERING this, sent, with this operation on drive 0. -/
def offered (o : Option Operation) (x : Offer) : State :=
  ((on1.setOp 0 o).modPort 0 fun r => { r with state := .offering, offer := some (x, true) })

theorem offered_finds (o x) : (offered o x).Finds (offered o x) := finds_self _ rfl rfl

/-- The operation with its EXTERNAL request granted. -/
def granted (record : Nat) (openWindow : Bool) : Operation :=
  { op with
    record := record, work := .reconnect
    orient := some { Orientation.handed true 20 with req := .granted, windowOpen := openWindow, later := true } }

theorem witness_OffersAreTakenOrDeferred :
    ((up.port 0).state ≠ .offering ∧ ((portAs .offering (some (.notice .rescan, false)) none).port 0).sent = false) ∧
    (∀ x ∈ ([.reconnect 0, .notice (.deviceFree 0), .notice (.stateChange 0), .notice (.reserveBroken 0),
        .notice (.spareAdvised 0 t51), .notice .rescan] : List Offer),
      ((offered (some op) x).port 0).offer = some (x, true) ∧ ((offered (some op) x).port 0).named 0x11 ≠ some (.drive 0) ∧
      ((offered (some op) x).port 0).named 0x11 ≠ some .unit) ∧
    ((offered (some keeping) (.status 0)).op 0 = some keeping ∧ keeping.alt = none ∧
      (offered (some { keeping with alt := some (altAt .commit false none none) }) (.status 0)).op 0 =
        some { keeping with alt := some (altAt .commit false none none) } ∧
      ((offered (some keeping) (.status 0)).port 0).named 0x18 = some .unit) ∧
    (∀ n w, (let s := offered (some (granted n w)) (.reconnect 0)
      (s.port 0).state = .offering ∧ (s.port 0).offer = some (.reconnect 0, true) ∧ (s.port 0).named 0x10 = some (.drive 0) ∧
        s.op 0 = some (granted n w) ∧ (granted n w).cmd = none ∧ (granted n w).record = n)) ∧
    ({ granted 1 true with cmd := some (.read aRead) }.cmd = some (.read aRead)) ∧
    (∀ n, let w := { aWrite false none with need := n, bytes := [], toAsk := [(0, n)], seek := some anew }
     let o := { granted 1 true with cmd := some (.write w) }
     let s := offered (some o) (.reconnect 0)
     s.op 0 = some o ∧ o.cmd = some (.write w) ∧ w.toAsk = [(0, n)] ∧ (s.port 0).requests = [] ∧ (s.port 0).held = []) ∧
    (256 ≤ 256 ∧ 256 < 257 ∧ 512 ≤ 512 ∧ ¬ 513 ≤ 512) ∧
    (let x : Pending := { status := Status.accepted, record := some FaultRecord.empty }
     let s := offered (some keeping) (.status 0)
     (s.port 0).offer = some (.status 0, true) ∧ (s.port 0).named 0x10 = some (.drive 0) ∧ s.op 0 = some keeping ∧
       keeping.alt.isSome = false ∧ keeping.pending = some x ∧ { x with record := none }.record = none) ∧
    (let s := (offered none (.notice .rescan)).setQueue 0 { notices := [.rescan], held := false }
     (s.port 0).offer = some (.notice .rescan, true) ∧ (s.port 0).named 0x18 = some Notice.rescan.conn ∧
       (s.queue 0).notices = .rescan :: [] ∧ (s.port 0).overflow = false) ∧
    (let s := ((offered none (.notice .rescan)).setQueue 0 { notices := [.rescan], held := false }).modPort 0
       fun r => { r with overflow := true }
     (s.port 0).overflow = true ∧ (s.queue 0).notices = .rescan :: []) := by
  refine ⟨by decide +kernel, by decide +kernel, by decide +kernel, fun _ _ => ⟨rfl, rfl, rfl, rfl, rfl, rfl⟩, rfl,
    fun _ => ⟨rfl, rfl, rfl, rfl, rfl⟩, by decide, by decide +kernel, by decide +kernel, by decide +kernel⟩

/-- A READ with everything formed, these frames on the link. -/
def reading (link : List OutFrame) (answer : Option Answer) : State :=
  (busy (opOn (some (id1 1 0 4)) (some (.read {
    span := false, phase := .done, got := 4, formed := 4, forming := [], sentTo := 0 })))).modPort 0
    fun r => { r with link := link, answer := answer }

/-- A READ of 9 bytes that a misposition has set aside on port A. -/
def setAsideRead : Operation :=
  { op with cmd := some (.read { aRead with phase := .seek anew }), byteCount := 9, leaving := PortSet.none.add 0 }

/-- Port A with the connection of that READ running dry. -/
def runningDry (link : List OutFrame) : State :=
  (joined (on1.setOp 0 (some setAsideRead)) 0 (.drive 0)).modPort 0 fun r => { r with link := link, draining := true }

theorem witness_OutboundFramesLeave :
    (∀ l a, (reading l a).Finds (reading l a) ∧ ((reading l a).port 0).link = l ∧
      ((reading l a).port 0).conn = some (.drive 0) ∧ ((reading l a).port 0).draining = false ∧
      ((reading l a).port 0).answer = a ∧ ((reading l a).op 0).bind Operation.conn = some 0) ∧
    (((reading [.data 16 0 [1], .data 16 1 [2]] none).modPort 0 fun r => { r with link := [.data 16 1 [2]] }).port 0).slots ≠ 0 ∧
    (((reading [.data 16 0 [1]] none).modPort 0 fun r => { r with link := [] }).port 0).slots = 0 ∧
    ((offered none (.notice .rescan)).port 0).offer = some (.notice .rescan, true) ∧
    (let s := after (.setPathGroup (com 0 0x18) 3) (after (.readUnitState (com 0 0x18)) atUnit)
     (s.port 0).conn = some .unit ∧ (s.port 0).answer.isSome = true) ∧
    ((Status.faultOf .overrun .read 7).reason = .fault .overrun ∧ (Status.doneWith 7).reason = .none) ∧
    -- a connection without an operation, one that is being set aside among them
    (∀ a b, let u := (joined (on1.setOp 0 (some (oneAsks true))) 0 (.drive 0)).modPort 0 fun r =>
       { r with link := [.data 16 0 [1]], answer := a, draining := b }
     u.Finds u ∧ (u.port 0).link = .data 16 0 [1] :: [] ∧ (u.port 0).draining = b ∧ (u.port 0).answer = a ∧
       (u.port 0).conn = some (.drive 0) ∧ u.op 0 = some (oneAsks true) ∧ (oneAsks true).conn ≠ some 0 ∧
       ∀ r, (oneAsks true).cmd ≠ some (.read r)) ∧
    -- a READ set aside, its last frames leaving
    (∀ l, let u := runningDry l
     u.Finds u ∧ (u.port 0).link = l ∧ (u.port 0).draining = true ∧ (u.port 0).conn = some (.drive 0) ∧
       u.op 0 = some setAsideRead ∧ setAsideRead.conn ≠ some 0 ∧ setAsideRead.leaving.has 0 = true ∧
       setAsideRead.cmd = some (.read { aRead with phase := .seek anew })) := by
  refine ⟨fun _ _ => ⟨finds_self _ rfl rfl, rfl, rfl, rfl, rfl, rfl⟩, by decide +kernel, by decide +kernel, by decide +kernel,
    by decide +kernel, by decide +kernel,
    fun _ _ => ⟨finds_self _ rfl rfl, rfl, rfl, rfl, rfl, rfl, by decide +kernel, by nofun⟩,
    fun _ => ⟨finds_self _ rfl rfl, rfl, rfl, rfl, rfl, by decide +kernel, by decide +kernel, rfl⟩⟩

/-- The bytes of a frame that leaves after its connection was set aside count as sent, and the last frame ends the connection
(R90, R46). -/
theorem test_sent_counts_while_running_dry :
    (let s := after (.outboundFrameLeft 0) (runningDry [.data 16 0 [1, 2], .data 16 2 [3]])
     ((s.op 0).map Operation.stopResidual, (s.port 0).state) = (some 7, .connected)) ∧
    (let s := after (.outboundFrameLeft 0) (runningDry [.data 16 2 [3]])
     ((s.op 0).map Operation.stopResidual, (s.port 0).state) = (some 6, .idle)) := by decide +kernel

/-- A spanning READ at the end of track 5/1, its home track's head 1 of 3, and that of 5/2. -/
def spanning (head : Nat) (l : List OutFrame) : State :=
  (busy { opOn (some (id1 1 0 4)) (some (.read { aRead with phase := .nextId .next })) with
    logical := some ⟨5, head⟩, byteCount := 9, accounted := 4 }).modPort 0 fun r => { r with link := l }

theorem witness_MarksOfADrive :
    up.Finds up ∧ (up.pos 7).actuator = .notReady ∧ (up.pos 0).actuator ≠ .notReady ∧ up.op 0 = none ∧
    (up.pos 0).angle = none ∧ (on1.pos 0).angle = some 10 ∧ on1.loadedType 0 = some ty ∧ (on1.share 0).hold = none ∧
    ((shared (shr none (some (0, 0)) none) none).share 0).hold.map Hold.timer = some 0 ∧
    -- sector 0 was reached 10 marks ago, sector 11 63 marks ago
    (on1.inTime 0 { op with marksSince := 11 } 0 = true ∧ on1.inTime 0 { op with marksSince := 10 } 0 = false ∧
      on1.inTime 0 { op with marksSince := 63 } 2200 = false ∧ on1.inTime 0 { op with marksSince := 64 } 2200 = true) ∧
    (∀ c n b, let s := busy { opOn none c with idle := 3, searchIndex := n, rereadDue := b }
     (s.op 0).bind Operation.conn = some 0 ∧ (s.op 0).bind Operation.cmd = c ∧ (s.op 0).bind Operation.orient = none ∧
       (s.share 0).hold = none ∧ (s.op 0).map Operation.searchIndex = some n ∧ (s.op 0).map Operation.rereadDue = some b) ∧
    ((on1.setOp 0 (some (oneAsks true))).op 0 = some (oneAsks true) ∧ (oneAsks true).conn = none) ∧
    (let u := spanning 2 []
     u.Finds u ∧ (u.typeOf 0).heads ≤ 3 ∧ (u.port 0).slots = 0 ∧ (u.port 0).conn = some (.drive 0)) ∧
    (let u := spanning 1 []
     2 < (u.typeOf 0).heads ∧ (u.pos 0).cyl = some (u.translate 0 ⟨5, 2⟩).target.cyl ∧
       (u.pos 0).head ≠ some (u.translate 0 ⟨5, 2⟩).target.head) ∧
    (let u : State := { spanning 1 [.data 16 0 [1]] with spareMap := [entry ⟨5, 2⟩ (some ⟨101, 2⟩) none true] }
     (u.pos 0).cyl ≠ some (u.translate 0 ⟨5, 2⟩).target.cyl ∧ (u.port 0).slots ≠ 0) :=
  ⟨finds_self _ rfl rfl, by decide +kernel, by decide +kernel, by decide +kernel, by decide +kernel, by decide +kernel,
    by decide +kernel, by decide +kernel, by decide +kernel, by decide +kernel, fun _ _ _ => ⟨rfl, rfl, rfl, rfl, rfl, rfl⟩,
    by decide +kernel, ⟨finds_self _ rfl rfl, by decide +kernel⟩, by decide +kernel, by decide +kernel⟩

/-- A motion under way: its kind, the owner mark, the calibration mark, and orders unanswered. -/
def moving (k : Actuator) (owned calVoid : Bool) (n : Nat) (q : Positioner) : Positioner :=
  { q with actuator := k, cyl := none, motionTarget := some 5, owned := owned, calVoid := calVoid, unanswered := n,
           deadline := some 9 }

theorem witness_MotionsEnd :
    (∀ f, (posed op f).Finds (posed op f) ∧ (posed op f).op 0 = some op) ∧ op.work = .positioning ∧ op.target.isSome = true ∧
    op.alt = none ∧ op.recovery = false ∧
    (let s := posed op (moving .seeking true false 1)
     (s.pos 0).actuator ≠ .notReady ∧ 0 < (s.pos 0).unanswered) ∧
    (let s := posed op (moving .seeking true false 0)
     (s.pos 0).actuator = .seeking ∧ (s.pos 0).unanswered = 0 ∧ (s.pos 0).calVoid = false ∧ (s.pos 0).owned = true ∧
       (s.pos 0).deadline = some 9) ∧
    (let s := on1.modPos 0 (moving .recalibrating false true 0)
     s.op 0 = none ∧ (s.pos 0).actuator = .recalibrating ∧ (s.pos 0).unanswered = 0 ∧ (s.pos 0).calVoid = true) ∧
    (let s := posed { op with kind := .recalibrate, work := .recalibrating, recovery := true } (moving .recalibrating true false 0)
     (s.pos 0).actuator = .recalibrating ∧ (s.pos 0).owned = true ∧ s.paths = Vector.replicate 2 none) ∧
    (on1.pos 0).deadline = none ∧
    (∀ s ∈ [on1.modPos 0 (moving .seeking true false 0), posed op (moving .seeking true false 0)],
      s.now < 9 ∧ s.decision = none ∧ (∀ p, s.claims p = []) ∧ s.due = none ∧ (∀ d, d ≠ 0 → (s.pos d).deadline = none) ∧
      (∀ p, (s.port p).idleTimer = none) ∧
      (let v : State := (({ s with now := 9 } : State).deadlineExpire 0)
       v.decision = none ∧ (∀ p, v.claims p = []) ∧ (v.pos 0).unanswered = 1)) ∧
    (9 ≤ ({ on1 with now := 9 } : State).now) := by
  refine ⟨fun _ => ⟨finds_self _ rfl rfl, rfl⟩, ?_⟩
  decide +kernel

theorem witness_ReadyAndWriteProtectChange :
    up.Finds up ∧ (up.pos 7).actuator = .notReady ∧ (up.pos 0).actuator ≠ .notReady ∧
    (let s := on1.setOp 0 (some op)
     s.op 0 = some op ∧ op.conn = none ∧ op.alt = none) ∧
    (((busy (opOn none none)).op 0).bind Operation.conn = some 0 ∧ on1.op 0 = none ∧ (0 : Drive) ≠ 7) ∧
    ((opOn none (some (.read aRead))).cmd = some (.read aRead) ∧
      (opOn none (some (.write (aWrite true none)))).cmd = some (.write (aWrite true none)) ∧
      ∀ r, op.cmd ≠ some (.read r)) ∧
    (let s := busy (opOn none (some (.read aRead)))
     (s.op 0).map Operation.isClosing = some false ∧ (s.port 0).state = .connected ∧ (s.port 0).conn = some (.drive 0) ∧
       (s.port 0).awaiting = false ∧ s.finish 0 = none) ∧
    (let s := joined on1 0 (.drive 0)
     (s.port 0).conn = some (.drive 0) ∧ s.op 0 = none ∧ (s.port 0).draining = false ∧ (s.port 0).ending = false ∧
       (s.port 0).offer = none) ∧
    (∀ b, let s := alternating (altAt .markAlt b (some ⟨101, 2⟩) none) .assignAlternate []
     (s.op 0).bind Operation.conn = none ∧ (s.op 0).bind Operation.alt = some (altAt .markAlt b (some ⟨101, 2⟩) none) ∧
       (altAt .markAlt b (some ⟨101, 2⟩) none).issuerHeld = true) ∧
    ((up.port 3).state = .disabled ∧ (up.port 3).offer = none ∧ (up.port 0).state = .idle ∧
      (up.port 0).maskStateChange = true ∧ (up.port 0).state ≠ .disabled) ∧
    -- a port with the operation of the drive and no offer beside it
    (((busy (opOn none none)).port 0).offer = none ∧ ((busy (opOn none none)).port 0).state ≠ .disabled) :=
  ⟨finds_self _ rfl rfl, by decide +kernel, by decide +kernel, by decide +kernel, by decide +kernel,
    ⟨rfl, rfl, by nofun⟩, by decide +kernel, by decide +kernel, fun _ => ⟨rfl, rfl, rfl⟩, by decide +kernel, by decide +kernel⟩

/-- Drive 0 with a granted read of its home field. -/
def homeRead (o : Operation) (l : List SpareEntry) : State :=
  (((mapped l).setOp 0 (some o)).modPos 0 fun q => { q with status := none }).setPath 0 (some { drive := 0, port := none })

theorem witness_HomeFieldsAreJudged :
    (∀ o l, (homeRead o l).Finds (homeRead o l) ∧ (homeRead o l).op 0 = some o) ∧ on1.Finds on1 ∧ on1.op 0 = none ∧
    ((opOn none (some (.read aRead))).cmd = some (.read aRead) ∧ (∀ r, op.cmd ≠ some (.read r)) ∧
      ∀ w, op.cmd ≠ some (.write w)) ∧
    (let s := homeRead { op with work := .readHome, marksSince := 10 } []
     s.inTime 0 { op with work := .readHome, marksSince := 10 } 0 = false) ∧
    (let o := { op with work := .readHome, marksSince := 11 }
     let s := homeRead o []
     s.inTime 0 o 0 = true ∧ (s.pos 0).actuator ≠ .notReady ∧ o.work = .readHome ∧ o.orient = none ∧ o.alt = none ∧
     (s.pos 0).selected = some t51 ∧ (s.pos 0).selected ≠ some ⟨5, 2⟩ ∧ (s.pos 0).unanswered < 2 ∧ o.recovery = false ∧
     s.verdict 0 o.home .good .good = .verified ∧ o.expected = some .good ∧
     (s.record 0).configured = true ∧ o.home.cyl < (s.typeOf 0).dataCyls ∧ o.home.head < (s.typeOf 0).heads ∧
     s.verdict 0 o.home .good .retired = .conflict .homeCondition ∧
     s.verdict 0 o.home .good (.defective ⟨101, 2⟩) = .learn ⟨101, 2⟩) ∧
    ((homeRead op [entry t51 (some ⟨101, 2⟩) none false]).entryFor 0 t51 = some (entry t51 (some ⟨101, 2⟩) none false) ∧
      (entry t51 (some ⟨101, 2⟩) none false).active = false ∧ (homeRead op []).entryFor 0 t51 = none) ∧
    (let o := { op with work := .readHome, target := some ⟨101, 2⟩, expected := some (.alternate t51), entry := some t51 }
     let s := homeRead o []
     s.verdict 0 o.home (.alternate t51) (.alternate t51) = .verified ∧ o.expected ≠ some .good ∧
     s.verdict 0 o.home (.alternate t51) .retired = .conflict .alternateCondition ∧ o.entry = some t51) ∧
    (let o := { op with work := .readHome, reported := [t51], rereads := 1 }
     o.target = some t51 ∧ t51 ∈ o.reported ∧ t51 ∉ op.reported ∧ o.logical = some t51 ∧
       o.rereads < (on1.typeOf 0).retryBudget ∧ (on1.typeOf 0).retryBudget ≤ { o with rereads := 2 }.rereads) ∧
    { op with alt := some (altAt .probe false none none) }.alt = some (altAt .probe false none none) ∧
    (let o := opOn none (some (.read { aRead with phase := .home }))
     let u := busy o
     u.inTime 0 o 0 = true ∧ o.work ≠ .readHome ∧ o.conn = some 0 ∧ (u.pos 0).selected = some t51 ∧
     u.verdict 0 o.home .good .good = .verified ∧ u.verdict 0 o.home .good .retired = .conflict .homeCondition ∧
     u.verdict 0 o.home .good (.defective ⟨101, 2⟩) = .learn ⟨101, 2⟩ ∧ (u.record 0).configured = true ∧
     o.home.cyl < (u.typeOf 0).dataCyls ∧ o.home.head < (u.typeOf 0).heads ∧ (u.port 0).slots = 0 ∧
     (u.port 0).conn = some (.drive 0)) := by
  refine ⟨fun _ _ => ⟨finds_self _ rfl rfl, rfl⟩, finds_self _ rfl rfl, by decide +kernel, ⟨rfl, by nofun, by nofun⟩, ?_⟩
  decide +kernel

theorem witness_FieldsOfAConnection :
    (∀ o, o.conn = some 0 → (busy o).Finds (busy o) ∧ ((busy o).pos 0).actuator ≠ .notReady ∧ (busy o).op 0 = some o) ∧
    ((at24 (id1 1 0 1)).id.address = t51 ∧ op.logical = some t51 ∧ op.current = none) ∧
    (let o := opOn none none
     (busy o).inTime 0 o 24 = true ∧ (busy o).inTime 0 { o with marksSince := 10 } 24 = false ∧ o.lost = false ∧
       { o with lost := true }.lost = true) ∧
    -- a home field to be read again, and the first time
    (∀ b, let o := { opOn none (some (.read { aRead with phase := .home })) with marksSince := 1, rereadDue := b }
     o.rereadDue = b ∧ o.cmd = some (.read { aRead with phase := .home }) ∧ o.lost = false ∧
       o.logical = some (id1 1 0 1).address ∧ o.logical ≠ some ⟨5, 2⟩) ∧
    (let g : Finding := { marks := 1, noted := false, waitIndex := false }
     let o := opOn none (some (.locate g))
     o.cmd = some (.locate g) ∧ g.waitIndex = false ∧ { g with waitIndex := true }.waitIndex = true ∧
       o.logical = some (id1 1 0 1).address ∧ (id1 1 0 1).number = o.record ∧
       (id1 2 0 1).number ≠ o.record ∧ (id1 2 32 1).keyLength ≠ 0 ∧ (id1 2 0 1).keyLength = 0) ∧
    (∀ c, (opOn none c).cmd = c) ∧
    -- the phases of a READ or WRITE, and the current record sought, found and passed over
    (∀ ph, { aRead with phase := ph }.phase = ph) ∧
    ((aWrite false none).seek = none ∧ (aWrite false none).begun = false ∧
      { aWrite false none with seek := some anew }.seek = some anew ∧ anew.waitIndex = true ∧
      { anew with waitIndex := false }.waitIndex = false ∧
      (opOn (some (id1 1 0 1)) none).current = some { start := 24, id := id1 1 0 1 } ∧
      (opOn (some (id1 1 0 1)) none).current ≠ some { start := 25, id := id1 1 0 1 }) ∧
    -- the record awaited, at start 24 after one that starts at 9000, and others
    ((Awaited.after 9000 = .after 9000) ∧ (∃ k, Awaited.after 24 = .after k ∧ k ≠ 9000) ∧ Awaited.place 24 = .place 24 ∧
      ∃ k, Awaited.place 25 = .place k ∧ k ≠ 24) ∧
    (let g : Finding := { marks := 1, noted := false, waitIndex := false }
     ∀ n, (opOn none (some (.search .eq [7] (.find n g)))).cmd = some (.search .eq [7] (.find n g)) ∧ g.waitIndex = false) ∧
    (let o := { opOn none none with reported := [t51], rereads := 1 }
     o.target = some t51 ∧ t51 ∈ o.reported ∧ o.rereads < ((busy o).typeOf 0).retryBudget ∧
       ((busy o).typeOf 0).retryBudget ≤ { o with rereads := 2 }.rereads ∧ ((busy o).port 0).slots = 0 ∧
       ((busy o).port 0).conn = some (.drive 0) ∧ ((reading [.data 16 0 [1]] none).port 0).slots ≠ 0) ∧
    ((opOn none none).logical ≠ some ⟨5, 2⟩ ∧ (opOn none none).recovery = false ∧
      ((busy (opOn none none)).pos 0).unanswered < 2) ∧
    (let o := opOn (some (id1 1 1 1)) none
     o.current = some (at24 (id1 1 1 1)) ∧ (busy o).inTime 0 o (24 + 28) = true ∧
       (busy o).inTime 0 { o with marksSince := 10 } (24 + 28) = false ∧ { o with keyCheck := true }.keyCheck = true ∧
       o.keyCheck = false ∧ o.logical = some t51 ∧ t51 ∉ o.reported) ∧
    -- the data field of a READ of 600 bytes: the first 300 of 700, then the rest, which ends its transfer
    (∀ r ∈ [aRead, { aRead with got := 300, formed := 256, forming := List.replicate 44 1, sentTo := 256 }],
     let o := { opOn (some (id1 1 0 700)) (some (.read r)) with byteCount := 600 }
     o.cmd = some (.read r) ∧ r.phase = .data ∧ o.current = some (at24 (id1 1 0 700)) ∧ o.target = some t51 ∧ o.logical = some t51 ∧
       o.byteCount - o.accounted = 600 ∧ (busy o).inTime 0 o (24 + 28 + 0) = true ∧
       (busy o).inTime 0 { o with marksSince := 10 } (24 + 28 + 0) = false ∧ ((busy o).port 0).slots = 0 ∧ o.lost = false ∧
       ((busy o).port 0).held = []) ∧
    (let bytes (n : Nat) : List Byte := List.replicate n 1
     (¬ 600 ≤ 0 + (bytes 300).length ∧ [] ++ (bytes 300).take (600 - 0) = [bytes 256].flatten ++ bytes 44 ∧
       (bytes 44).length < 256 ∧ (bytes 256).length = 256 ∧ 0 + [bytes 256].length ≤ 2) ∧
     (600 ≤ 300 + (bytes 400).length ∧ bytes 44 ++ (bytes 400).take (600 - 300) = [bytes 256, bytes 88].flatten ++ [] ∧
       (∀ f ∈ [bytes 256, bytes 88], f ≠ [] ∧ f.length ≤ 256) ∧ (∀ f ∈ [bytes 256, bytes 88].dropLast, f.length = 256) ∧
       300 + (bytes 400).length = 700 ∧ 0 + [bytes 256, bytes 88].length ≤ 2 ∧ 2 < 1 + [bytes 256, bytes 88].length) ∧
     -- the frames that enter when one slot is taken, and where the farthest of them ends
     (let link : List OutFrame := [.data 16 0 (bytes 256), .data 16 256 (bytes 256)]
      OutFrame.data 16 256 (bytes 256) ∈ link ∧ 256 + (bytes 256).length = 512 ∧
        ∀ f ∈ link, match f with
          | .data _ off bs => off + bs.length ≤ 512
          | .status _ _ _ | .request _ _ _ | .offer _ _ => True)) ∧
    2 ≤ ((reading [.data 16 0 [1], .data 16 1 [2]] none).port 0).slots := by
  refine ⟨fun o _ => ⟨finds_self _ rfl rfl, ?_, rfl⟩, by decide +kernel, by decide +kernel,
    fun b => ⟨rfl, rfl, rfl, rfl, by revert b; decide +kernel⟩, by decide +kernel, fun _ => rfl,
    fun _ => rfl, by decide +kernel, ⟨rfl, ⟨24, rfl, by decide⟩, rfl, 25, rfl, by decide⟩, fun _ => ⟨rfl, rfl⟩,
    by decide +kernel, by decide +kernel,
    by decide +kernel, by decide +kernel, ⟨by decide +kernel, by decide +kernel,
      by decide +kernel, by decide +kernel, fun f hf => ?_⟩, by decide +kernel⟩
  rotate_left
  · simp only [List.mem_cons, List.not_mem_nil, or_false] at hf
    rcases hf with rfl | rfl <;> decide +kernel
  show Actuator.onCylinder ≠ Actuator.notReady
  decide

/-- Between an in-line crossing to 5/1 and its home field read, an ID field of 5/2 is a misposition, one with a check loses the
revolution, also while that home field is read again, and one of 5/1 changes nothing (R116, R117, R46, R96). -/
theorem test_id_field_before_the_inline_home_field :
    let crossed (again : Bool) : State := busy { opOn none (some (.read { aRead with phase := .home })) with
      rereadDue := again, marksSince := if again then 1 else 11 }
    let saw (b : Bool) (c : Option IdField) : Option (Bool × Bool × Bool) :=
      ((after (.idFieldRead 0 ⟨24, 0, c⟩) (crossed b)).op 0).map fun o => (o.conn.isSome, o.recovery, o.lost)
    ∀ b, saw b (some { id1 1 0 1 with address := ⟨5, 2⟩ }) = some (false, true, false) ∧
      saw b none = some (true, false, true) ∧ saw b (some (id1 1 0 1)) = some (true, false, false) := by decide +kernel

theorem witness_FieldsWritten :
    (∀ o, (busy o).Finds (busy o) ∧ (busy o).finish 0 = none ∧ (busy o).op 0 = some o ∧ ((busy o).port 0).slots = 0 ∧
      ((busy o).port 0).conn = some (.drive 0) ∧ ((busy o).port 0).held = []) ∧ on1.op 0 = none ∧
    (let f : Finishing := { physical := t51, logical := t51, reported := true, home := none, port := some 0 }
     let s := (on1.setFinish 0 (some f)).modPort 0 fun r => { r with state := .resetting }
     s.finish 0 = some f ∧ (s.port 0).state = .resetting ∧ f.home = none ∧ { f with port := none }.port = none ∧
     { f with reported := false }.reported = false ∧
     { f with home := some { address := t51, condition := .good } }.home = some { address := t51, condition := .good }) ∧
    (let w : WriteCmd := { need := 4, bytes := [1, 2, 3, 4], toAsk := [], begun := true, zeroFill := false, seek := none, stop := none }
     let o := { opOn (some (id1 1 0 4)) (some (.write w)) with reported := [t51] }
     o.cmd = some (.write w) ∧ w.bytes.length = w.need ∧ w.stop = none ∧ o.work = .connected ∧ o.conn = some 0 ∧
       o.target = some t51 ∧ t51 ∈ o.reported ∧ t51 ∉ { o with reported := [] }.reported ∧ o.logical = some t51 ∧
       { w with bytes := [1, 2, 3] }.bytes.length < w.need ∧ { w with stop := some .halted }.stop = some .halted ∧
       o.current = some (at24 (id1 1 0 4)) ∧ (busy o).inTime 0 o (24 + 28) = true ∧
       (busy o).inTime 0 { o with marksSince := 10 } (24 + 28) = false ∧ o.lost = false ∧ w.seek = none ∧
       { w with seek := some anew }.seek.isSome = true ∧ { o with lost := true }.lost = true) ∧
    (let h : HomeField := { address := t51, condition := .defective ⟨101, 2⟩ }
     let o := { op with work := .writeHome h, marksSince := 11 }
     o.work = .writeHome h ∧ o.orient = none ∧ on1.inTime 0 o 0 = true ∧ on1.inTime 0 { o with marksSince := 10 } 0 = false) ∧
    (let f : FormatCmd := { fields := [.keyData [] [0]], last := some (at24 (id1 1 0 4)), begun := true, stop := none }
     f.begun = true ∧ { f with begun := false }.begun = false ∧ f.stop = none ∧ f.fields = [.keyData [] [0]] ∧
     { f with stop := some .halted }.stop = some .halted ∧
     (aFormat true none).fields = .id (at24 (id1 1 0 4)) :: [.keyData [] [0, 0, 0, 0]] ∧
     (opOn none (some (.format f))).cmd = some (.format f)) :=
  ⟨fun _ => ⟨finds_self _ rfl rfl, rfl, rfl, rfl, rfl, rfl⟩, by decide +kernel⟩

/-- An orientation of drive 0 with target sector 20, the counter here. -/
def oriented (a : Nat) (x : Orientation) : State :=
  ({ (standing up 0 5 1 (some .good) (some a)).setOp 0 (some { op with work := .reconnect, orient := some x }) with
    due := some 0 } : State)

theorem oriented_finds (a x) : (oriented a x).FindsInner 0 (oriented a x) := ⟨rfl, rfl⟩

theorem witness_InnerEventsAtTheirBounds :
    (let x := { Orientation.handed true 20 with tested := true }
     (∀ a, (oriented a x).FindsInner 0 (oriented a x)) ∧
     ((oriented 14 x).slack 0 20 = some 6 ∧ (oriented 18 x).slack 0 20 = some 2 ∧ (oriented 19 x).slack 0 20 = some 1 ∧
       (oriented 13 x).slack 0 20 = some 7 ∧ (oriented 15 x).slack 0 20 = some 5) ∧ ((oriented 14 x).typeOf 0).setup = 2 ∧
     ((oriented 14 x).typeOf 0).lead = 6 ∧ x.req = .dormant ∧ x.tested = true ∧ x.later = false ∧
     { x with later := true }.later = true ∧ { x with tested := false }.tested = false ∧
     (oriented 14 x).positioned 0 { op with work := .reconnect, orient := some x } = true ∧
     (oriented 14 x).positioned 0 { op with target := some ⟨6, 1⟩ } = false) ∧
    (let x := { Orientation.handed true 20 with req := .active, windowOpen := true, later := true }
     x.windowOpen = true ∧ 1 < ((oriented 19 x).typeOf 0).setup ∧ ((oriented 18 x).typeOf 0).setup ≤ 2 ∧ x.req = .active ∧
       { x with req := .granted }.req = .granted) ∧
    (let s := busy { opOn none none with idle := 4 }
     s.FindsInner 0 s ∧ (s.op 0).map Operation.idle = some 4 ∧ (s.port 0).slots = 0 ∧ (s.port 0).conn = some (.drive 0)) ∧
    (let f : Finding := { marks := 2, noted := true, waitIndex := false }
     ∀ c ∈ ([.locate f, .search .eq [0] (.find none f), .read { aRead with phase := .find none f },
       .read { aRead with phase := .seek f }, .write { aWrite false none with seek := some f },
       .search .eq [0] .over, .search .eq [0] (.id .next)] : List Cmd),
     let o := opOn none (some c)
     (busy o).FindsInner 0 (busy o) ∧ (busy o).op 0 = some o ∧ o.conn = some 0 ∧ o.cmd = some c ∧ 2 ≤ f.marks ∧
       { f with marks := 1 }.marks < 2) ∧
    (let s := shared (shr none (some (0, 0)) none) none
     s.FindsInner 0 s ∧ (s.share 0).hold.map Hold.timer = some 0) := by
  refine ⟨⟨fun a => oriented_finds a _, by decide +kernel⟩, by decide +kernel, ⟨⟨rfl, rfl⟩, by decide +kernel⟩,
    fun c _ => ⟨⟨rfl, rfl⟩, rfl, rfl, rfl, Nat.le_refl 2, (show (1 : Nat) < 2 by decide)⟩, ⟨rfl, rfl⟩, by decide +kernel⟩

end Sys2Proof.Tests
end

section
/-! SUPPORT. The arbiter's decision (4.3 to 4.5): the grant order as a strict order on contenders, the port an EXTERNAL request
goes to, and what makes an operation's request a contender. -/

namespace Sys2Proof.Machine

open Sys2Proof

section Arbiter

variable {s : State} {d : Drive} {o : Operation} {x : Orientation} {k : Nat}

/-! ## The grant order (R66) -/

/-- The grant order spelt out: urgency, slack, miss count, drive number. -/
theorem Contender.before_iff (a b : Contender) :
    a.before b = true ↔ (a.urgent = true ∧ b.urgent = false) ∨
      (a.urgent = b.urgent ∧ (a.slack < b.slack ∨ (a.slack = b.slack ∧
        (b.miss < a.miss ∨ (b.miss = a.miss ∧ a.drive < b.drive))))) := by
  unfold Contender.before
  split
  next hu => grind
  next hu =>
    split
    next hs => grind
    next hs => split <;> grind

theorem Contender.before_irrefl (a : Contender) : a.before a = false := by simp [Contender.before]

/-- Not to come after is transitive: the grant order is a total preorder. -/
theorem Contender.not_before_trans {a b c : Contender} (hba : b.before a = false) (hcb : c.before b = false) :
    c.before a = false := by
  rw [Bool.eq_false_iff, ne_eq, Contender.before_iff] at hba hcb ⊢
  grind

theorem Contender.before_asymm {a b : Contender} (h : a.before b = true) : b.before a = false := by
  rw [Bool.eq_false_iff, ne_eq, Contender.before_iff]
  rw [Contender.before_iff] at h
  grind

/-- The drive number decides last: requests of different drives never tie. -/
theorem Contender.before_of_not_before {a b : Contender} (hd : b.drive ≠ a.drive) (h : b.before a = false) :
    a.before b = true := by
  rw [Bool.eq_false_iff, ne_eq, Contender.before_iff] at h
  rw [Contender.before_iff]
  grind

theorem firstContender_isSome {l : List Contender} (h : l ≠ []) : (firstContender l).isSome = true := by
  cases l with
  | nil => exact absurd rfl h
  | cons a l =>
    unfold firstContender
    split
    · split <;> rfl
    · rfl

/-- Nothing in the list comes before the first in the grant order. -/
theorem firstContender_least {l : List Contender} {c : Contender} (h : firstContender l = some c) :
    ∀ b ∈ l, b.before c = false := by
  induction l generalizing c with
  | nil => cases h
  | cons a l ih =>
    unfold firstContender at h
    split at h
    next b hb =>
      split at h
      next hba =>
        obtain rfl : b = c := Option.some.inj h
        exact List.forall_mem_cons.mpr ⟨Contender.before_asymm hba, ih hb⟩
      next hba =>
        obtain rfl : a = c := Option.some.inj h
        exact List.forall_mem_cons.mpr ⟨a.before_irrefl, fun e he =>
          Contender.not_before_trans (Bool.eq_false_iff.mpr hba) (ih hb e he)⟩
    next hn =>
      obtain rfl : a = c := Option.some.inj h
      cases l with
      | nil => simp [a.before_irrefl]
      | cons e l => exact absurd (firstContender_isSome (List.cons_ne_nil e l)) (by simp [hn])

/-! ## The issuing port, else the first in letter order (R67) -/

/-- Letter order is the order of port numbers. -/
theorem allPorts_find? (ok : Port → Bool) : allPorts.find? ok = Fin.find? ok := by
  rw [Fin.find?_eq_find?_finRange]
  rfl

theorem issuerFirst_isSome {issuer p : Port} {ok : Port → Bool} (h : ok p = true) : (issuerFirst issuer ok).isSome = true := by
  unfold issuerFirst
  split
  next => rfl
  next =>
    rw [allPorts_find?]
    exact Fin.isSome_find?_iff.mpr ⟨p, h⟩

/-- The port found is the issuing port unless that fails the test, and then none of a lower letter meets it. -/
theorem issuerFirst_first {issuer p : Port} {ok : Port → Bool} (h : issuerFirst issuer ok = some p) (hp : p ≠ issuer) :
    ok issuer = false ∧ ∀ q, q < p → ok q = false := by
  unfold issuerFirst at h
  split at h
  next => exact absurd (Option.some.inj h).symm hp
  next hi =>
    rw [allPorts_find?] at h
    exact ⟨Bool.eq_false_iff.mpr hi, (Fin.find?_eq_some_iff.mp h).2⟩

/-! ## Contenders (R61, R63, R64) -/

theorem State.eligible_iff {p : Port} :
    s.eligible o x p = true ↔ (s.port p).state = .idle ∧ x.deferred[p] = false ∧
      (o.issuer = p ∨ ((s.port p).group ≠ 0 ∧ (s.port p).group = o.group)) := by
  simp [State.eligible, PortSet.has, Operation.reaches, and_assoc]

/-- The port that the request of an orientation goes to, none for an INTERNAL one, if it is grantable (R63, R67). -/
def State.requestPort (s : State) (o : Operation) (x : Orientation) : Option (Option Port) :=
  if x.external then (issuerFirst o.issuer (s.eligible o x)).map some else some none

theorem State.requestPort_isSome (h : x.external = false ∨ ∃ p, s.eligible o x p = true) :
    (s.requestPort o x).isSome = true := by
  unfold State.requestPort
  split
  next hext =>
    obtain ⟨p, hp⟩ := h.resolve_left (by simp [hext])
    simpa using issuerFirst_isSome hp
  next => rfl

theorem State.requestPort_none_iff {r : Option Port} (h : s.requestPort o x = some r) : r = none ↔ x.external = false := by
  unfold State.requestPort at h
  split at h
  next hext =>
    obtain ⟨p, -, rfl⟩ := Option.map_eq_some_iff.mp h
    simp [hext]
  next hint => simp [← Option.some.inj h, hint]

theorem State.requestPort_port {p : Port} (h : s.requestPort o x = some (some p)) :
    issuerFirst o.issuer (s.eligible o x) = some p := by
  unfold State.requestPort at h
  split at h
  next => simpa using h
  next => simp at h

theorem State.contender_of_request (ho : s.op d = some o) (hx : o.orient = some x) (hk : s.slack d x.sector = some k) :
    s.contender d =
      if x.req ≠ .active ∨ k < (s.typeOf d).setup ∨ s.usesPath d 0 = true ∨ s.usesPath d 1 = true then none
      else (s.requestPort o x).map fun r =>
        { drive := d, urgent := decide ((s.typeOf d).missLimit ≤ o.miss), slack := k, miss := o.miss, port := r } := by
  cases hext : x.external <;>
    simp [State.contender, State.requestPort, ho, hx, hk, hext, Option.map_map, Function.comp_def]

/-- What a contender says of its drive's request. -/
theorem State.contender_request {c : Contender} (h : s.contender d = some c) :
    ∃ (o : Operation) (x : Orientation), s.op d = some o ∧ o.orient = some x ∧ s.slack d x.sector = some c.slack ∧
      x.req = .active ∧ (s.typeOf d).setup ≤ c.slack ∧ s.requestPort o x = some c.port ∧ c.miss = o.miss ∧
      c.urgent = decide ((s.typeOf d).missLimit ≤ o.miss) := by
  obtain ⟨o, ho⟩ : ∃ o, s.op d = some o := Option.ne_none_iff_exists'.mp fun e => by simp [State.contender, e] at h
  obtain ⟨x, hx⟩ : ∃ x, o.orient = some x := Option.ne_none_iff_exists'.mp fun e => by simp [State.contender, ho, e] at h
  obtain ⟨k, hk⟩ : ∃ k, s.slack d x.sector = some k :=
    Option.ne_none_iff_exists'.mp fun e => by simp [State.contender, ho, hx, e] at h
  rw [State.contender_of_request ho hx hk] at h
  split at h
  next => cases h
  next hopen =>
    obtain ⟨r, hr, rfl⟩ := Option.map_eq_some_iff.mp h
    exact ⟨o, x, ho, hx, hk, not_not.mp fun e => hopen (.inl e), not_lt.mp fun e => hopen (.inr (.inl e)), hr, rfl, rfl⟩

/-- Every grantable ACTIVE request at a slack of M or more whose operation holds no path is a contender. -/
theorem State.contender_isSome (ho : s.op d = some o) (hx : o.orient = some x) (hk : s.slack d x.sector = some k)
    (hact : x.req = .active) (hsetup : (s.typeOf d).setup ≤ k) (hpath : ∀ n, s.usesPath d n = false)
    (hport : x.external = false ∨ ∃ p, s.eligible o x p = true) : (s.contender d).isSome = true := by
  rw [State.contender_of_request ho hx hk, if_neg (by simp [hact, hsetup, hpath])]
  simpa using State.requestPort_isSome hport

/-! ## The decision (R65, R66, R67) -/

theorem State.freePath_lowest {n : PathNo} (h : s.freePath = some n) : s.path n = none ∧ (n = 1 → s.path 0 ≠ none) := by
  unfold State.freePath at h
  split at h
  next h0 => obtain rfl : 0 = n := Option.some.inj h; exact ⟨h0, fun e => absurd e (by decide)⟩
  next h0 =>
    split at h
    next h1 => obtain rfl : 1 = n := Option.some.inj h; exact ⟨h1, fun _ => h0⟩
    next => cases h

theorem State.freePath_isSome {n : PathNo} (h : s.path n = none) : s.freePath.isSome = true := by
  unfold State.freePath
  match n with
  | 0 => simp [h]
  | 1 =>
    rw [if_pos h]
    split <;> rfl

theorem State.decision_eq_some {n : PathNo} {c : Contender} :
    s.decision = some (n, c) ↔ s.freePath = some n ∧ firstContender (allDrives.filterMap s.contender) = some c := by
  unfold State.decision
  split
  next hn hc => simp [hn, hc]
  next hnot => simpa using hnot n c

theorem State.mem_contenders {c : Contender} : c ∈ allDrives.filterMap s.contender ↔ ∃ d, s.contender d = some c := by
  simp [List.mem_filterMap, mem_allDrives]

theorem State.decision_isSome {n : PathNo} {c : Contender} (hn : s.path n = none) (hc : s.contender d = some c) :
    s.decision.isSome = true := by
  obtain ⟨m, hm⟩ := Option.isSome_iff_exists.mp (State.freePath_isSome hn)
  obtain ⟨b, hb⟩ := Option.isSome_iff_exists.mp
    (firstContender_isSome (List.ne_nil_of_mem (State.mem_contenders.mpr ⟨d, hc⟩)))
  exact Option.isSome_iff_exists.mpr ⟨(m, b), State.decision_eq_some.mpr ⟨hm, hb⟩⟩

/-- The decision goes to a contender that comes before every other. -/
theorem State.decision_first {n : PathNo} {c : Contender} (h : s.decision = some (n, c)) :
    s.contender c.drive = some c ∧ ∀ e b, s.contender e = some b → e ≠ c.drive → c.before b = true := by
  obtain ⟨-, hc⟩ := State.decision_eq_some.mp h
  obtain ⟨d, hd⟩ := State.mem_contenders.mp (firstContender_mem _ _ hc)
  refine ⟨(State.contender_free hd).1.symm ▸ hd, fun e b hb he => ?_⟩
  have hdrive : b.drive = e := (State.contender_free hb).1
  exact Contender.before_of_not_before (hdrive ▸ he) (firstContender_least hc b (State.mem_contenders.mpr ⟨e, hb⟩))

end Arbiter

/-- Settles O21: the decision is the first contender on the lowest FREE path, and a contender is a grantable ACTIVE request of
an operation that holds no path. -/
theorem arbiterGrantOrder : Obligations.ArbiterGrantOrder := by
  unfold Obligations.ArbiterGrantOrder
  intro s elig holds
  have elig_iff (o x p) : elig o x p ↔ s.eligible o x p = true := State.eligible_iff.symm
  have uses_holds (d n) : s.usesPath d n = true → holds d n := by
    simpa [holds, Option.bind_eq_some_iff] using (State.usesPath_iff s d n).mp
  refine ⟨fun n c h => ?_, fun ⟨n, hn⟩ ⟨d, hd⟩ => ?_, fun d o x k ho hx hact hk hsetup hpath hport => ?_, fun d c h => ?_⟩
  · obtain ⟨hfree, hlowest⟩ := State.freePath_lowest (State.decision_eq_some.mp h).1
    obtain ⟨hc, hfirst⟩ := State.decision_first h
    refine ⟨hfree, hlowest, hc, fun e b hb he => ?_⟩
    have hdrive : b.drive = e := (State.contender_free hb).1
    exact hdrive ▸ (Contender.before_iff c b).mp (hfirst e b hb he)
  · obtain ⟨c, hc⟩ := Option.isSome_iff_exists.mp hd
    exact State.decision_isSome hn hc
  · simp only [elig_iff] at hport
    exact State.contender_isSome ho hx hk hact hsetup (fun n => Bool.eq_false_iff.mpr (hpath n ∘ uses_holds d n)) hport
  · obtain ⟨o, x, ho, hx, hk, hact, hsetup, hport, hmiss, hurgent⟩ := State.contender_request h
    refine ⟨o, x, ho, hx, (State.contender_free h).1, hact, hmiss, by simp [hurgent], hk, hsetup,
      State.requestPort_none_iff hport, fun p hp => ?_⟩
    have hfound := State.requestPort_port (hp ▸ hport)
    simp only [elig_iff, Bool.not_eq_true]
    exact ⟨issuerFirst_ok hfound, issuerFirst_first hfound⟩

end Sys2Proof.Machine
end

section
/-! SUPPORT. Byte strings as numbers, high byte first (00_scope, "Numbers"), and the comparison of a SEARCH (R86). -/

namespace Sys2Proof.Machine

open Sys2Proof

/-! ## Byte strings as numbers -/

/-- The digits to the base 256 of a byte string's number, lowest first as the library's `Nat.ofDigits` takes them. -/
def lowFirstDigits (bs : List Byte) : List Nat := bs.reverse.map BitVec.toNat

theorem numOfBytes_eq_ofDigits (bs : List Byte) : numOfBytes bs = Nat.ofDigits 256 (lowFirstDigits bs) := by
  simp [numOfBytes, lowFirstDigits, Nat.ofDigits_eq_foldr, List.foldl_map, Nat.add_comm, Nat.mul_comm]

@[simp] theorem lowFirstDigits_length (bs : List Byte) : (lowFirstDigits bs).length = bs.length := by
  simp [lowFirstDigits]

theorem lowFirstDigits_append (a b : List Byte) : lowFirstDigits (a ++ b) = lowFirstDigits b ++ lowFirstDigits a := by
  simp [lowFirstDigits]

theorem lowFirstDigits_lt (bs : List Byte) : ∀ l ∈ lowFirstDigits bs, l < 256 := by
  intro l hl
  obtain ⟨b, -, rfl⟩ := List.mem_map.mp hl
  exact b.isLt

theorem lowFirstDigits_injective {a b : List Byte} (h : lowFirstDigits a = lowFirstDigits b) : a = b :=
  List.reverse_injective (List.map_injective_iff.mpr (fun _ _ => BitVec.eq_of_toNat_eq) h)

theorem numOfBytes_lt (bs : List Byte) : numOfBytes bs < 256 ^ bs.length := by
  rw [numOfBytes_eq_ofDigits, ← lowFirstDigits_length]
  exact Nat.ofDigits_lt_base_pow_length (by decide) (lowFirstDigits_lt bs)

theorem numOfBytes_append (a b : List Byte) : numOfBytes (a ++ b) = numOfBytes a * 256 ^ b.length + numOfBytes b := by
  simp only [numOfBytes_eq_ofDigits, lowFirstDigits_append, Nat.ofDigits_append, lowFirstDigits_length]
  ring

theorem numOfBytes_singleton (x : Byte) : numOfBytes [x] = x.toNat := by simp [numOfBytes]

theorem numOfBytes_inj {a b : List Byte} (hlen : a.length = b.length) : numOfBytes a = numOfBytes b ↔ a = b := by
  refine ⟨fun h => lowFirstDigits_injective ?_, congrArg numOfBytes⟩
  rw [numOfBytes_eq_ofDigits, numOfBytes_eq_ofDigits] at h
  exact Nat.ofDigits_inj_of_len_eq (by decide) (by simp [hlen]) (lowFirstDigits_lt a) (lowFirstDigits_lt b) h

/-- High bytes that are smaller outweigh any low bytes. -/
theorem numOfBytes_append_lt {h k a b : List Byte} (hlen : a.length = b.length) (hhk : numOfBytes h < numOfBytes k) :
    numOfBytes (h ++ a) < numOfBytes (k ++ b) :=
  calc numOfBytes (h ++ a)
      = numOfBytes h * 256 ^ b.length + numOfBytes a := by rw [numOfBytes_append, hlen]
    _ < numOfBytes h * 256 ^ b.length + 256 ^ b.length := Nat.add_lt_add_left (hlen ▸ numOfBytes_lt a) _
    _ = (numOfBytes h + 1) * 256 ^ b.length := (Nat.succ_mul _ _).symm
    _ ≤ numOfBytes k * 256 ^ b.length := Nat.mul_le_mul_right _ hhk
    _ ≤ numOfBytes (k ++ b) := numOfBytes_append k b ▸ Nat.le_add_right _ _

/-- The first byte that differs decides. -/
theorem numOfBytes_lt_of_first_difference (p : List Byte) {a b : List Byte} {x y : Byte} (hlen : a.length = b.length)
    (hxy : x.toNat < y.toNat) : numOfBytes (p ++ x :: a) < numOfBytes (p ++ y :: b) := by
  have high : numOfBytes (p ++ [x]) < numOfBytes (p ++ [y]) := by
    simpa [numOfBytes_append, numOfBytes_singleton] using hxy
  simpa using numOfBytes_append_lt hlen high

/-! ## The key brought to the argument's length (R86) -/

/-- The key brought to n bytes is cut when it is long enough, and followed by zeros when it is shorter. -/
theorem take_append_zeros (key : List Byte) (n : Nat) :
    (key ++ List.replicate n 0).take n =
      if n ≤ key.length then key.take n else key ++ List.replicate (n - key.length) 0 := by
  split
  next hlong => exact List.take_append_of_le_length hlong
  next hshort =>
    rw [List.take_append, List.take_of_length_le (by omega), List.take_replicate, Nat.min_eq_left (Nat.sub_le _ _)]

/-- Each condition is the comparison of the two numbers that R86 names. -/
theorem keyMeets_iff (c : SearchCond) (key argument : List Byte) :
    keyMeets c key argument = true ↔
      let k := numOfBytes (if argument.length ≤ key.length then key.take argument.length
        else key ++ List.replicate (argument.length - key.length) 0)
      match c with
      | .eq => k = numOfBytes argument
      | .highOrEq => numOfBytes argument ≤ k
      | .high => numOfBytes argument < k := by
  rw [← take_append_zeros]
  cases c <;> exact decide_eq_true_iff

/-- Settles O22: the number of bytes high byte first is the library's number of their digits, so strings of one length are
told apart by it and the first difference decides. -/
theorem searchKeyComparison : Obligations.SearchKeyComparison := by
  unfold Obligations.SearchKeyComparison
  refine ⟨fun key argument => ?_, fun _ _ => numOfBytes_inj, fun p _ _ _ _ => numOfBytes_lt_of_first_difference p⟩
  simp only [← apply_ite numOfBytes]
  exact ⟨keyMeets_iff .eq key argument, keyMeets_iff .highOrEq key argument, keyMeets_iff .high key argument⟩

end Sys2Proof.Machine
end

section
/-! SUPPORT. The whole unit (11.4, log 2): what a step keeps, whatever it takes from the queue, and the one source of each item
of the frame. -/

namespace Sys2Proof.Machine

open Sys2Proof

-- One proof at a time: together the files of this text have to compile within the check's memory.
set_option Elab.async false

/-! ## Kept frames read at one item -/

section Read
variable {K : Frame} {s t : State}

theorem Kept.straps (h : Kept K s) (p : Port) : (s.port p).straps = K.straps p := congrArg Prod.fst (h.settings p)

theorem Kept.group (h : Kept K s) (p : Port) : (s.port p).group = K.group p := congrArg (·.2.1) (h.settings p)

theorem Kept.mask (h : Kept K s) (p : Port) :
    ((s.port p).maskStateChange, (s.port p).maskSpareAdvised) = K.mask p := congrArg (·.2.2) (h.settings p)

theorem Kept.loadedType (h : Kept K s) (d : Drive) : s.loadedType d = K.types[(K.table d).2.1] := by
  unfold State.loadedType
  simp only [← h.table d, h.types]

/-! ## A step on an empty queue -/

/-- With no command waiting, all but the timebase is kept. -/
theorem step_empty_kept (hp : s.pending = []) (e : step s = .next t) : ∃ n, Kept (s.frame.later n) t := by
  unfold step at e
  rw [hp] at e
  cases e
  split
  · exact ⟨1, State.tick_kept s.frame_kept⟩
  · exact ⟨0, s.frame_kept⟩

/-- With commands waiting, the front one is taken. -/
theorem step_front {c : Instr} {rest : List Instr} (hp : s.pending = c :: rest) :
    step s = exec c { s with pending := rest } := by
  unfold step
  rw [hp]

/-! ## The laws at power-on -/

theorem PortRec.powerOn_agrees (x : Straps) : (PortRec.powerOn x).agrees = true := by
  unfold PortRec.powerOn PortRec.agrees
  cases x.enabled <;> rfl

theorem Positioner.powerOn_unanswered (l : Level) : (Positioner.powerOn l).unanswered = 0 := by
  unfold Positioner.powerOn
  split <;> rfl

/-- A unit whose every block but its straps and levels is at its power-on value meets the laws of one block. -/
theorem State.Sound.of_blank (hr : s.records = State.reset.records) (ho : s.ops = State.reset.ops)
    (hq : s.queues = State.reset.queues) (hm : s.spareMap = []) (hs : s.suspects = [])
    (ht : s.types = State.reset.types) (hp : ∀ p, ∃ x, s.port p = PortRec.powerOn x) (hu : ∀ d, (s.pos d).unanswered = 0) :
    s.Sound := by
  have hrec (d : Drive) : (s.record d).configured = false := by
    unfold State.record
    rw [hr]
    exact congrArg DriveRecord.configured (Vector.getElem_replicate _)
  have hqueue (p : Port) : (s.queue p).notices = [] := by
    unfold State.queue
    rw [hq]
    exact congrArg NoticeQueue.notices (Vector.getElem_replicate _)
  have hop (d : Drive) : s.op d = none := by
    unfold State.op
    rw [ho]
    exact Vector.getElem_replicate _
  have hport (p : Port) : (s.port p).overflow = false ∧ (s.port p).bufferSound := by
    obtain ⟨x, hx⟩ := hp p
    rw [hx]
    exact ⟨rfl, Nat.zero_le 2, Nat.zero_le 2⟩
  refine ⟨fun p => ?_, ?_, ?_, ?_, fun d o h => ?_, fun d => ?_, fun d _ => hop d, fun p h => ?_, fun p => (hport p).2,
    fun e he => ?_, fun n x hn => ?_, fun d h => ?_, fun d h => ?_⟩
  · unfold NoticeQueue.sound
    simp [hqueue]
  · simp [hs, suspectsSound]
  · simp [hm]
  · simp [hm]
  · simp [hop] at h
  · simp [hu]
  · simp [(hport p).1] at h
  · simp [hm] at he
  · rw [ht] at hn
    simp [State.reset] at hn
  · simp [hrec] at h
  · simp [hrec] at h

/-- The same for the laws of ports and paths. -/
theorem State.Joined.of_blank (hn : s.paths = State.reset.paths) (hp : ∀ p, ∃ x, s.port p = PortRec.powerOn x) : s.Joined := by
  have hpath (n : PathNo) : s.path n = none := by
    unfold State.path
    rw [hn]
    exact Vector.getElem_replicate _
  refine ⟨fun p => ?_, fun n h p e => ?_, fun d n m e => ?_⟩
  · obtain ⟨x, hx⟩ := hp p
    rw [hx]
    exact PortRec.powerOn_agrees x
  · simp [hpath] at e
  · simp [State.usesPath, hpath] at e

theorem State.powerUp_port (straps : Vector Straps 4) (levels : Vector Level 8) (p : Port) :
    (s.powerUp straps levels).port p = PortRec.powerOn straps[p] := Vector.getElem_map _ _

theorem State.powerUp_pos (straps : Vector Straps 4) (levels : Vector Level 8) (d : Drive) :
    (s.powerUp straps levels).pos d = Positioner.powerOn levels[d] := Vector.getElem_map _ _

theorem State.reset_port (p : Port) : State.reset.port p = PortRec.powerOn Straps.unread := Vector.getElem_replicate _

theorem State.reset_pos (d : Drive) : State.reset.pos d = Positioner.notReady := Vector.getElem_replicate _

theorem State.powerUp_sound (straps : Vector Straps 4) (levels : Vector Level 8) : (s.powerUp straps levels).Sound :=
  .of_blank rfl rfl rfl rfl rfl rfl (fun p => ⟨_, powerUp_port straps levels p⟩) fun d => by
    rw [powerUp_pos]
    exact Positioner.powerOn_unanswered _

theorem State.powerUp_joined (straps : Vector Straps 4) (levels : Vector Level 8) : (s.powerUp straps levels).Joined :=
  .of_blank rfl fun p => ⟨_, powerUp_port straps levels p⟩

end Read

/-- Settles O4: every block stands at its power-on value. -/
theorem resetMeetsTheLaws : Obligations.ResetMeetsTheLaws := by
  unfold Obligations.ResetMeetsTheLaws
  have hs : State.reset.Sound :=
    .of_blank rfl rfl rfl rfl rfl rfl (fun p => ⟨_, State.reset_port p⟩) fun d => by
      rw [State.reset_pos]
      rfl
  exact ⟨hs, .of_blank rfl fun p => ⟨_, State.reset_port p⟩, hs.loaded⟩

/-- No arm of exec stops the machine. -/
theorem exec_answers (c : Instr) (s : State) : ∃ t, exec c s = .next t := by
  cases c <;> exact ⟨_, rfl⟩

/-- Settles O3: a frame is kept in which the queue stands and the timebase has not gone back. -/
theorem everyCommandAnswers : Obligations.EveryCommandAnswers := by
  unfold Obligations.EveryCommandAnswers
  intro c s
  by_cases hpow : ∃ straps levels, c = .powerOn straps levels
  · obtain ⟨straps, levels, rfl⟩ := hpow
    exact ⟨_, rfl, rfl, fun h => absurd rfl (h straps levels)⟩
  · push Not at hpow
    obtain ⟨t, ht⟩ := exec_answers c s
    obtain ⟨K, hk, -, -, -, hpend, hnow, -⟩ := exec_keptSome s.frame_kept c hpow ht
    refine ⟨t, ht, hk.pending.trans hpend, fun _ => ⟨hk.now ▸ hnow, fun hoff => ?_⟩⟩
    rw [exec_unpowered c s hpow hoff] at ht
    exact (Host.Outcome.next.inj ht).symm

/-! ## What a command can make of the frame -/

section Exec
variable {K : Frame} {s t : State}

/-- The frames that a command other than POWER ON can leave in place of K: K itself, or K with the items of that command
replaced. Which drives are to stay without an operation is left out (Kept.opens). -/
inductive FrameChange (K : Frame) : Instr → Frame → Prop where
  | none (i : Instr) : FrameChange K i K
  | later (i : Instr) (n : Nat) : FrameChange K i (K.later n)
  | types (h : Hdr) (n : Nat) (x : DriveType) (ty : TypeNo) :
    FrameChange K (.loadDriveType h n x) { K with types := K.types.set ty (some x) }
  | table (h : Hdr) (d : Drive) (c ty w cur : Nat) (r : DriveRecord) (a : Option Nat)
    (loaded : r.configured = true → (K.types[r.typeNo]).isSome = true) :
    FrameChange K (.loadDriveRecord h d.val c ty w cur) ((K.withRecord d r).withSpindle d a (K.protect d))
  | group (h : Hdr) (g : Nat) : FrameChange K (.setPathGroup h g) (K.withPort h.port g (K.mask h.port))
  | mask (h : Hdr) (a b : Nat) (m : Bool × Bool) :
    FrameChange K (.setNoticeMask h a b) (K.withPort h.port (K.group h.port) m)
  | reset (p : Port) : FrameChange K (.portReset p) (K.withPort p 0 (true, true))
  | sectorMark (d : Drive) (a : Option Nat) : FrameChange K (.sectorMark d) (K.withSpindle d a (K.protect d))
  | indexMark (d : Drive) (a : Option Nat) : FrameChange K (.indexMark d) (K.withSpindle d a (K.protect d))
  | readyGained (d : Drive) (a : Option Nat) : FrameChange K (.readyGained d) (K.withSpindle d a (K.protect d))
  | readyLost (d : Drive) : FrameChange K (.readyLost d) (K.withSpindle d Option.none false)
  | protect (d : Drive) (on : Bool) : FrameChange K (.writeProtectChange d on) (K.withSpindle d (K.angle d) on)

/-- Every command but POWER ON keeps a frame that it can leave. -/
theorem exec_frameChange (hk : Kept K s) (i : Instr) (hi : ∀ straps levels, i ≠ .powerOn straps levels)
    (e : exec i s = .next t) : ∃ K', FrameChange K i K' ∧ Kept K'.opening t := by
  have unchanged (h : Kept K t) : ∃ K', FrameChange K i K' ∧ Kept K'.opening t := ⟨K, .none i, h.opens⟩
  cases hc : changesFrame i with
  | false => exact ⟨K, .none i, exec_opens hk i hc e⟩
  | true =>
    cases i with
    | powerOn a b => exact absurd rfl (hi a b)
    | loadDriveType h n x =>
      rcases execLoadDriveType_types hk h n x e with h1 | ⟨ty, h1⟩
      · exact unchanged h1
      · exact ⟨_, .types h n x ty, h1.opens⟩
    | loadDriveRecord h n c ty w cur =>
      rcases execLoadDriveRecord_table hk h n c ty w cur e with h1 | ⟨d, r, a, rfl, hl, h1⟩
      · exact unchanged h1
      · exact ⟨_, .table h d c ty w cur r a hl, h1.opens⟩
    | setPathGroup h g =>
      rcases execSetPathGroup_group hk h g e with h1 | h1
      · exact unchanged h1
      · exact ⟨_, .group h g, h1.opens⟩
    | setNoticeMask h a b =>
      rcases execSetNoticeMask_mask hk h a b e with h1 | ⟨m, h1⟩
      · exact unchanged h1
      · exact ⟨_, .mask h a b m, h1.opens⟩
    | portReset p =>
      rcases execPortReset_settings hk p e with h1 | h1
      · exact unchanged h1
      · exact ⟨_, .reset p, h1.opens⟩
    | sectorMark d =>
      rcases execSectorMark_angle hk d e with h1 | ⟨a, h1⟩
      · exact unchanged h1
      · exact ⟨_, .sectorMark d a, h1.opens⟩
    | indexMark d =>
      rcases execIndexMark_angle hk d e with h1 | ⟨a, h1⟩
      · exact unchanged h1
      · exact ⟨_, .indexMark d a, h1.opens⟩
    | readyGained d =>
      rcases execReadyGained_angle hk d e with h1 | ⟨a, h1⟩
      · exact unchanged h1
      · exact ⟨_, .readyGained d a, h1.opens⟩
    | readyLost d =>
      rcases execReadyLost_spindle hk d e with h1 | h1
      · exact unchanged h1
      · exact ⟨_, .readyLost d, h1.opens⟩
    | writeProtectChange d on =>
      rcases execWriteProtectChange_protect hk d on e with h1 | h1
      · exact unchanged h1
      · exact ⟨_, .protect d on, h1.opens⟩
    | seekDeadlineExpiry d =>
      obtain ⟨n, h1⟩ := execSeekDeadlineExpiry_now hk d e
      exact ⟨_, .later _ n, h1.opens⟩
    | unitIdleTimerExpiry p =>
      obtain ⟨n, h1⟩ := execUnitIdleTimerExpiry_now hk p e
      exact ⟨_, .later _ n, h1.opens⟩
    | _ => cases hc

variable {K' : Frame} {i : Instr}

/-! ## The commands behind a change of one item -/

theorem FrameChange.straps_eq (h : FrameChange K i K') : K'.straps = K.straps := by
  cases h <;> rfl

theorem FrameChange.group_source (h : FrameChange K i K') {p : Port} (hp : K'.group p ≠ K.group p) :
    i = .portReset p ∨ ∃ h g, i = .setPathGroup h g ∧ h.port = p := by
  cases h with
  | group h g => exact .inr ⟨h, g, rfl, by_contra fun hne => hp (Function.update_of_ne (Ne.symm hne) _ _)⟩
  | mask h a b m => exact absurd (congrFun (Function.update_eq_self _ _) p) hp
  | reset q => exact .inl (congrArg _ (by_contra fun hne => hp (Function.update_of_ne (Ne.symm hne) _ _)))
  | _ => exact absurd rfl hp

theorem FrameChange.mask_source (h : FrameChange K i K') {p : Port} (hp : K'.mask p ≠ K.mask p) :
    i = .portReset p ∨ ∃ h a b, i = .setNoticeMask h a b ∧ h.port = p := by
  cases h with
  | group h g => exact absurd (congrFun (Function.update_eq_self _ _) p) hp
  | mask h a b m => exact .inr ⟨h, a, b, rfl, by_contra fun hne => hp (Function.update_of_ne (Ne.symm hne) _ _)⟩
  | reset q => exact .inl (congrArg _ (by_contra fun hne => hp (Function.update_of_ne (Ne.symm hne) _ _)))
  | _ => exact absurd rfl hp

theorem FrameChange.types_source (h : FrameChange K i K') (ht : K'.types ≠ K.types) :
    ∃ h ty x, i = .loadDriveType h ty x := by
  cases h with
  | types h n x ty => exact ⟨h, n, x, rfl⟩
  | _ => exact absurd rfl ht

theorem FrameChange.record_source (h : FrameChange K i K') {d : Drive}
    (hd : ¬ (K'.table d = K.table d ∧ K'.cursor d = K.cursor d)) :
    ∃ h conf ty w cur, i = .loadDriveRecord h d.val conf ty w cur := by
  cases h with
  | table h e c ty w cur r a _ =>
    have hde : d = e := by_contra fun hne => hd ⟨Function.update_of_ne hne _ _, Function.update_of_ne hne _ _⟩
    exact ⟨h, c, ty, w, cur, by rw [hde]⟩
  | _ => exact absurd ⟨rfl, rfl⟩ hd

/-- A configured record of the frame names a loaded type. -/
def Frame.namesLoaded (K : Frame) : Prop := ∀ d, (K.table d).1 = true → (K.types[(K.table d).2.1]).isSome = true

theorem FrameChange.namesLoaded (h : FrameChange K i K') (hk : K.namesLoaded) : K'.namesLoaded := by
  cases h with
  | types h n x ty =>
    intro d hd
    have hs := hk d hd
    simp only [Fin.getElem_fin, Vector.getElem_set]
    split
    · rfl
    · exact hs
  | table h e c ty w cur r a hl =>
    intro d hd
    simp only [Frame.withSpindle, Frame.withRecord, Function.update_apply] at hd ⊢
    by_cases hde : d = e
    · simp only [hde, if_true] at hd ⊢
      exact hl hd
    · simp only [hde, if_false] at hd ⊢
      exact hk d hd
  | _ => exact hk

theorem FrameChange.angle_source (h : FrameChange K i K') {d : Drive} (hd : K'.angle d ≠ K.angle d) :
    i = .sectorMark d ∨ i = .indexMark d ∨ i = .readyGained d ∨ i = .readyLost d ∨
      ∃ h conf ty w cur, i = .loadDriveRecord h d.val conf ty w cur := by
  cases h with
  | table h e c ty w cur r a _ =>
    have hde : d = e := by_contra fun hne => hd (Function.update_of_ne hne _ _)
    exact .inr (.inr (.inr (.inr ⟨h, c, ty, w, cur, by rw [hde]⟩)))
  | sectorMark e a => exact .inl (congrArg _ (by_contra fun hne => hd (Function.update_of_ne (Ne.symm hne) _ _)))
  | indexMark e a => exact .inr (.inl (congrArg _ (by_contra fun hne => hd (Function.update_of_ne (Ne.symm hne) _ _))))
  | readyGained e a =>
    exact .inr (.inr (.inl (congrArg _ (by_contra fun hne => hd (Function.update_of_ne (Ne.symm hne) _ _)))))
  | readyLost e =>
    exact .inr (.inr (.inr (.inl (congrArg _ (by_contra fun hne => hd (Function.update_of_ne (Ne.symm hne) _ _))))))
  | protect e on => exact absurd (congrFun (Function.update_eq_self _ _) d) hd
  | _ => exact absurd rfl hd

theorem FrameChange.protect_source (h : FrameChange K i K') {d : Drive} (hd : K'.protect d ≠ K.protect d) :
    i = .readyLost d ∨ ∃ on, i = .writeProtectChange d on := by
  cases h with
  | readyLost e => exact .inl (congrArg _ (by_contra fun hne => hd (Function.update_of_ne (Ne.symm hne) _ _)))
  | protect e on =>
    have hde : d = e := by_contra fun hne => hd (Function.update_of_ne hne _ _)
    exact .inr ⟨on, by rw [hde]⟩
  | table | sectorMark | indexMark | readyGained => exact absurd (congrFun (Function.update_eq_self _ _) d) hd
  | _ => exact absurd rfl hd

end Exec

/-- Settles O6: a step without a command keeps the settings, and each frame that a command can leave names its source. -/
theorem portSettingsHaveOneSource : Obligations.PortSettingsHaveOneSource := by
  unfold Obligations.PortSettingsHaveOneSource
  refine ⟨fun s t p hp e => ?_, fun c s t p e hc => ?_⟩
  · obtain ⟨n, hk⟩ := step_empty_kept hp e
    obtain ⟨hm1, hm2⟩ := Prod.mk.inj (hk.mask p)
    exact ⟨hk.straps p, hk.group p, hm1, hm2⟩
  · obtain ⟨K', hch, hk⟩ := exec_frameChange s.frame_kept c hc e
    refine ⟨(hk.straps p).trans (congrFun hch.straps_eq p), fun hg => hch.group_source fun h => hg ((hk.group p).trans h),
      fun hm => hch.mask_source fun h => ?_⟩
    obtain ⟨hm1, hm2⟩ := Prod.mk.inj ((hk.mask p).trans h)
    exact hm.elim (· hm1) (· hm2)

/-- Settles O7: likewise for types and drive records; a cursor that a frame leaves alone does not fall. -/
theorem tableStoreHasOneSource : Obligations.TableStoreHasOneSource := by
  unfold Obligations.TableStoreHasOneSource
  refine ⟨fun s t d hp e => ?_, fun c s t d e hc => ?_⟩
  · obtain ⟨n, hk⟩ := step_empty_kept hp e
    have ht := hk.table d
    simp only [Frame.later, State.frame, Prod.mk.injEq] at ht
    obtain ⟨h1, h2, h3⟩ := ht
    exact ⟨hk.types, h1, h2, h3, hk.cursor d⟩
  · obtain ⟨K', hch, hk⟩ := exec_frameChange s.frame_kept c hc e
    refine ⟨fun ht => hch.types_source fun h => ht (hk.types.trans h), fun hd => hch.record_source fun ⟨htab, hcur⟩ => ?_⟩
    have ht := (hk.table d).trans htab
    simp only [State.frame, Prod.mk.injEq] at ht
    obtain ⟨h1, h2, h3⟩ := ht
    have hle : (s.record d).cursor ≤ (t.record d).cursor := hcur.ge.trans (hk.cursor d)
    rcases hd with hd | hd | hd | hd
    · exact hd h1
    · exact hd h2
    · exact hd h3
    · exact absurd hd (Nat.not_lt.mpr hle)

/-- Settles O8: the property is one of the frame, and every frame that a command can leave has it. -/
theorem configuredRecordsNameLoadedTypes : Obligations.ConfiguredRecordsNameLoadedTypes := by
  unfold Obligations.ConfiguredRecordsNameLoadedTypes
  intro s t hs e
  have of_kept {K : Frame} (hk : Kept K t) (hl : K.namesLoaded) (d : Drive) (hd : (t.record d).configured = true) :
      (t.loadedType d).isSome = true := by
    rw [hk.loadedType d]
    exact hl d ((congrArg Prod.fst (hk.table d)).symm.trans hd)
  cases hp : s.pending with
  | nil =>
    obtain ⟨n, hk⟩ := step_empty_kept hp e
    exact of_kept hk hs
  | cons c rest =>
    rw [step_front hp] at e
    by_cases hc : ∃ straps levels, c = .powerOn straps levels
    · obtain ⟨straps, levels, rfl⟩ := hc
      cases e
      exact (State.powerUp_sound straps levels).loaded
    · push Not at hc
      obtain ⟨K', hch, hk⟩ := exec_frameChange (State.frame_kept _) c hc e
      exact of_kept hk (hch.namesLoaded hs)

/-- Settles O9: likewise for counters and write-protect settings. -/
theorem spindleHasItsOwnEvents : Obligations.SpindleHasItsOwnEvents := by
  unfold Obligations.SpindleHasItsOwnEvents
  refine ⟨fun s t d hp e => ?_, fun c s t d e hc => ?_⟩
  · obtain ⟨n, hk⟩ := step_empty_kept hp e
    exact ⟨hk.angle d, hk.protect d⟩
  · obtain ⟨K', hch, hk⟩ := exec_frameChange s.frame_kept c hc e
    exact ⟨fun ha => hch.angle_source fun h => ha ((hk.angle d).trans h),
      fun hw => hch.protect_source fun h => hw ((hk.protect d).trans h)⟩

/-! ## Where an operation begins (R160, 9.3) -/

section Begin
variable {K : Frame} {s t u : State} {d : Drive}

/-- Neither another port's hold nor another group's reservation keeps port p off drive d (R160). -/
def State.opensTo (s : State) (d : Drive) (p : Port) : Prop :=
  (∀ x, (s.share d).hold = some x → x.port = p) ∧ ∀ g, (s.share d).owner = some g → g = (s.port p).group

theorem State.heldByOther_eq_false {p : Port} :
    s.heldByOther d p = false ↔ ∀ x, (s.share d).hold = some x → x.port = p := by
  unfold State.heldByOther
  cases (s.share d).hold <;> simp

theorem State.reservedByOther_eq_false {p : Port} :
    s.reservedByOther d p = false ↔ ∀ g, (s.share d).owner = some g → g = (s.port p).group := by
  unfold State.reservedByOther
  cases (s.share d).owner <;> simp

theorem State.opensTo_of_admission {p : Port} (h : s.admission d p .all = .admitted) : s.opensTo d p := by
  refine ⟨State.heldByOther_eq_false.mp (State.admission_admitted d p h).2, State.reservedByOther_eq_false.mp ?_⟩
  unfold State.admission at h
  split at h
  next => cases h
  next =>
    split at h
    next => cases h
    next =>
      split at h
      next => cases h
      next =>
        split at h
        next => cases h
        next hr => simpa using hr

/-- Only the sharing records and the groups decide it. -/
theorem State.opensTo_congr {p : Port} (h : t.opensTo d p) (hs : t.sharing = u.sharing)
    (hg : (t.port p).group = (u.port p).group) : u.opensTo d p := by
  unfold State.opensTo State.share at h ⊢
  rwa [hs, hg] at h

/-- Where a SELECT or COMMAND takes its command, the sharing records stand as they stood. -/
theorem State.receive_sharing {h : Hdr} {y : Place} (e : s.receive h = (t, y)) (hy : y ≠ .nowhere) : t.sharing = s.sharing := by
  unfold State.receive at e
  split at e
  next => cases e; rfl
  next =>
    split at e
    next => cases e; rfl
    next c =>
      split at e
      next =>
        unfold State.selectAt at e
        split at e
        next => cases e; rfl
        next => cases e; rfl
        next => cases e; exact absurd rfl hy
        next =>
          split at e
          next => cases e; exact absurd rfl hy
          next => cases e; exact State.deferOffer_sharing s h.port
        next => cases e; exact absurd rfl hy
      next =>
        split at e
        next => cases e; exact absurd rfl hy
        next => cases e; exact absurd rfl hy
        next =>
          unfold State.commandAt at e
          split at e
          next =>
            split at e
            next => cases e; exact absurd rfl hy
            next =>
              split at e
              next => cases e; rfl
              next => split at e <;> cases e <;> exact absurd rfl hy
          next => cases e; rfl
        next => cases e; rfl
        next => cases e; rfl

/-- K with drive d alone to stay without an operation. -/
def Frame.watching (K : Frame) (d : Drive) : Frame := { K with idle := (· = d) }

theorem Kept.watch (h : Kept K s) (hd : s.op d = none) : Kept (K.watching d) s :=
  ⟨h.powered, h.pending, h.types, h.now, h.settings, h.angle, h.protect, h.table, h.cursor, fun _ he => he ▸ hd, h.sound, h.joined⟩

theorem Kept.watched (h : Kept (K.watching d) s) : s.op d = none := h.opened d rfl

/-- A command that opens an operation on the drive that has admitted it opens none on d, or the drive is d and opens to the
port. -/
theorem State.selectOnly_watched (hk : Kept (K.watching d) s) (h : Hdr) (take : State → Drive → State)
    (hf : ∀ v e, Kept (K.watching d) v → v.op e = none → (v.share e).hold = none → e ≠ d → Kept (K.watching d) (take v e)) :
    Kept (K.watching d) (s.selectOnly h fun v e => v.admitEnding e h.port fun w => take w e) ∨ s.opensTo d h.port := by
  unfold State.selectOnly State.driveCommand
  split
  next e => exact .inl (State.receive_kept hk h e)
  next e => exact .inl (State.unitRefuse_kept (State.receive_kept hk h e) _)
  next e => exact .inl (State.unitRefuse_kept (State.receive_kept hk h e) _)
  next v b e =>
    have hv := State.receive_kept hk h e
    by_cases hbd : b = d
    · subst hbd
      by_cases ha : v.admission b h.port .all = .admitted
      · refine .inr (State.opensTo_congr (State.opensTo_of_admission ha) (State.receive_sharing e (by simp)) ?_)
        exact (hv.group _).trans (hk.group _).symm
      · exact .inl (State.passAdmission_kept hv b _ _ _ fun h => absurd h ha)
    · exact .inl (State.admitEnding_kept hv b _ _ fun w hw h1 h2 => hf w b hw h1 h2 hbd)
  next v b e =>
    have hv := State.receive_kept hk h e
    split
    next =>
      split
      next => exact .inl (State.rejectWithin_kept hv _ _ _)
      next => exact .inl (State.rejectWithin_kept hv _ _ _)
    next =>
      split
      next => exact .inl (State.bareReject_kept hv _ _)
      next => exact .inl (State.bareReject_kept hv _ _)

theorem State.altCheck_passed {p : Port} {n : Nat} {x : Track} (h : s.altCheck p n x = .passed d) :
    n = d.val ∧ (s.share d).hold = none ∧ s.opensTo d p := by
  unfold State.altCheck at h
  split at h
  next => cases h
  next e he =>
    split at h
    next => cases h
    next =>
      split at h
      next => cases h
      next =>
        split at h
        next => cases h
        next =>
          split at h
          next => cases h
          next hhold =>
            split at h
            next => cases h
            next hres =>
              split at h
              next => cases h
              next =>
                cases h
                have hno : (s.share d).hold = none := by simpa using hhold
                have hn : n = d.val := by
                  unfold driveOf at he
                  split at he
                  next => cases he; rfl
                  next => cases he
                exact ⟨hn, hno, by simp [hno], State.reservedByOther_eq_false.mp (by simpa using hres)⟩

/-- Likewise an order that opens an alternate operation on the drive it names. -/
theorem State.takeAlternate_watched (hk : Kept (K.watching d) s) (p : Port) (n : Nat) (x : Track) (step9 : Drive → Option FaultKind)
    (start : Drive → State)
    (hf : ∀ e, (s.share e).hold = none → e ≠ d → Kept (K.watching d) (start e)) :
    Kept (K.watching d) (s.takeAlternate p n x step9 start) ∨ (n = d.val ∧ s.opensTo d p) := by
  by_cases hd : s.altCheck p n x = .passed d
  · obtain ⟨hn, -, ho⟩ := State.altCheck_passed hd
    exact .inr ⟨hn, ho⟩
  · left
    unfold State.takeAlternate
    split
    next => exact State.unitFault_kept hk p _
    next => exact State.unitHeld_kept hk p _ _
    next e he =>
      split
      next => exact State.unitFault_kept hk p _
      next =>
        split
        next => exact State.unitFault_kept hk p _
        next =>
          refine hf e (State.altCheck_passed he).2.1 fun hed => hd ?_
          rw [he, hed]

theorem State.controlOrder_watched (hk : Kept (K.watching d) s) (h : Hdr) (take : State → State) {Q : Prop}
    (hf : ∀ v, Kept (K.watching d) v → v.sharing = s.sharing →
      Kept (K.watching d) (take v) ∨ (Q ∧ v.opensTo d h.port)) :
    Kept (K.watching d) (s.controlOrder h take) ∨ (Q ∧ s.opensTo d h.port) := by
  have taken {v : State} (hv : Kept (K.watching d) v) (hs : v.sharing = s.sharing) :
      Kept (K.watching d) (if (v.port h.port).straps.control then take v else v.unitReject h.port 0) ∨
        (Q ∧ s.opensTo d h.port) := by
    split
    next =>
      refine (hf v hv hs).imp_right fun ⟨hq, ho⟩ => ⟨hq, State.opensTo_congr ho hs ?_⟩
      exact (hv.group _).trans (hk.group _).symm
    next => exact .inl (State.unitReject_kept hv _ 0)
  unfold State.controlOrder State.unitOrder State.unitOrderAs
  split
  next e => exact .inl (State.receive_kept hk h e)
  next e => exact .inl (State.neverFirst_kept (State.receive_kept hk h e) _ _)
  next e => exact .inl (State.refuseWithin_kept (State.receive_kept hk h e) _ _ _)
  next e =>
    exact taken (State.modPort_kept (State.receive_kept hk h e) _ _ (by intro; rfl))
        ((State.modPort_sharing ..).trans (State.receive_sharing e (by simp)))
  next e =>
    split
    next => exact .inl (State.unitRefuse_kept (State.receive_kept hk h e) _)
    next =>
      exact taken (State.modPort_kept (State.receive_kept hk h e) _ _ (by intro; rfl))
        ((State.modPort_sharing ..).trans (State.receive_sharing e (by simp)))

/-- An operation begins on a drive without one by four commands alone, where the drive opens to their port (R160). -/
theorem exec_begins {c : Instr} (hu : s.Finds u) (e : exec c s = .next t) (hs : s.op d = none)
    (ht : (t.op d).isSome = true) :
    ∃ h : Hdr, ((∃ x rec sec, c = .locate h x rec sec) ∨ c = .recalibrate h ∨ (∃ x, c = .assignAlternate h d.val x) ∨
        ∃ x, c = .restoreTrack h d.val x) ∧ u.opensTo d h.port := by
  have hk : Kept (s.frame.watching d) u := by
    obtain ⟨-, rfl⟩ := hu
    exact State.settle_kept (s.frame_kept.watch hs)
  have hclaims {v : State} (hv : Kept (s.frame.watching d) v) (hvt : t = v.serveClaims) : False := by
    rw [hvt, (State.serveClaims_kept hv).watched] at ht
    cases ht
  have ran {f : State → State} (e : s.perform f = .next t) : t = (f u).serveClaims :=
    (Host.Outcome.next.inj ((State.perform_finds f hu).symm.trans e)).symm
  cases hb : beginsOperation c with
  | false =>
    by_cases hc : ∃ straps levels, c = .powerOn straps levels
    · obtain ⟨straps, levels, rfl⟩ := hc
      cases e
      simp [State.powerUp, State.op, State.reset] at ht
    · push Not at hc
      obtain ⟨K', hk', -, -, -, -, -, hidle⟩ := exec_keptSome s.frame_kept c hc e
      have hd : K'.idle d := by rw [hidle hb]; exact hs
      rw [hk'.opened d hd] at ht
      cases ht
  | true =>
    cases c with
    | locate h x rec sec =>
      refine ⟨h, .inl ⟨x, rec, sec, rfl⟩, ?_⟩
      unfold exec execLocate at e
      have et := ran e
      exact (State.selectOnly_watched hk h (fun w b => w.takeLocate b h.port x rec sec)
        fun v b hv h1 h2 hne => State.takeLocate_kept hv b _ _ _ _ h1 h2 hne).resolve_left fun hv => hclaims hv et
    | recalibrate h =>
      refine ⟨h, .inr (.inl rfl), ?_⟩
      unfold exec execRecalibrate at e
      have et := ran e
      exact (State.selectOnly_watched hk h (fun w b => w.takeRecalibrate b h.port)
        fun v b hv _ h2 hne => State.takeRecalibrate_kept hv b _ h2 hne).resolve_left fun hv => hclaims hv et
    | assignAlternate h n x =>
      unfold exec execAssignAlternate at e
      have et := ran e
      obtain ⟨rfl, ho⟩ := (State.controlOrder_watched hk h _ fun v hv _ =>
        State.takeAlternate_watched hv h.port n x _ _ fun b h1 hne =>
          State.startAssign_kept hv b h.port x h1 hne).resolve_left fun hv => hclaims hv et
      exact ⟨h, .inr (.inr (.inl ⟨x, rfl⟩)), ho⟩
    | restoreTrack h n x =>
      unfold exec execRestoreTrack at e
      have et := ran e
      obtain ⟨rfl, ho⟩ := (State.controlOrder_watched hk h _ fun v hv _ =>
        State.takeAlternate_watched hv h.port n x _ _ fun b h1 hne =>
          State.startRestore_kept hv b h.port x h1 hne).resolve_left fun hv => hclaims hv et
      exact ⟨h, .inr (.inr (.inr ⟨x, rfl⟩)), ho⟩
    | _ => cases hb

/-- The laws do not speak of the commands that wait. -/
theorem State.Sound.queue_taken {rest : List Instr} (h : s.Sound) : ({ s with pending := rest } : State).Sound := { h with }

theorem State.Joined.queue_taken {rest : List Instr} (h : s.Joined) : ({ s with pending := rest } : State).Joined := { h with }

/-- A step keeps the laws, with a command and without. -/
theorem step_keeps_laws (e : step s = .next t) : (s.Sound → t.Sound) ∧ (s.Joined → t.Joined) := by
  cases hp : s.pending with
  | nil =>
    obtain ⟨n, hk⟩ := step_empty_kept hp e
    exact ⟨hk.sound, hk.joined⟩
  | cons c rest =>
    rw [step_front hp] at e
    by_cases hc : ∃ straps levels, c = .powerOn straps levels
    · obtain ⟨straps, levels, rfl⟩ := hc
      cases e
      exact ⟨fun _ => State.powerUp_sound straps levels, fun _ => State.powerUp_joined straps levels⟩
    · push Not at hc
      obtain ⟨K, hk, hl, hj, -⟩ := exec_keptSome (State.frame_kept _) c hc e
      exact ⟨fun h => hk.sound (hl ▸ h.queue_taken), fun h => hk.joined (hj ▸ h.queue_taken)⟩

end Begin

/-- Settles O5: a frame with the laws in it is kept, and one that has drive d alone to stay without an operation is kept by
every command that d does not open to. -/
theorem stepKeepsTheLaws : Obligations.StepKeepsTheLaws := by
  unfold Obligations.StepKeepsTheLaws
  refine ⟨fun s t => step_keeps_laws, fun s t d hp e hd => ?_, fun c s u t d => exec_begins⟩
  obtain ⟨n, hk⟩ := step_empty_kept hp e
  exact hk.opened d hd

end Sys2Proof.Machine
end

section
/-! SUPPORT. A fold over the ports or drives seen at one of them, and the shared operations of notices, owed sets, the suspect
list and the spare map (chapters 6, 7, 9 and 10). -/

namespace Sys2Proof.Machine

open Sys2Proof

-- One proof at a time: together the files of this text have to compile within the check's memory.
set_option Elab.async false

/-! ## Folds over the ports and the drives -/

section Folds
variable {α β : Type} {f : State → α → State} {s : State}

/-- Of a fold over items without doubles, where each step shows at its own item alone and depends on what shows there alone,
what shows at an item is what the one step makes of it. -/
theorem foldl_at (g : α → State → β) (hne : ∀ s x y, x ≠ y → g y (f s x) = g y s)
    (heq : ∀ s t x, g x s = g x t → g x (f s x) = g x (f t x)) {l : List α} (hl : l.Nodup) {y : α} (hy : y ∈ l) (s : State) :
    g y (l.foldl f s) = g y (f s y) := by
  induction l generalizing s with
  | nil => cases hy
  | cons x l ih =>
    obtain ⟨hx, hl⟩ := List.nodup_cons.mp hl
    rcases List.mem_cons.mp hy with rfl | hy
    · have hrest (m : List α) (hm : y ∉ m) (t : State) : g y (m.foldl f t) = g y t := by
        induction m generalizing t with
        | nil => rfl
        | cons z m ihm =>
          obtain ⟨hz, hm⟩ := not_or.mp (mt List.mem_cons.mpr hm)
          exact (ihm hm _).trans (hne t z y (Ne.symm hz))
      exact hrest l hx _
    · have hxy : x ≠ y := fun h => hx (h ▸ hy)
      exact (ih hl hy _).trans (heq _ _ _ (hne s x y hxy))

theorem mem_allPorts (p : Port) : p ∈ allPorts := by
  revert p
  decide

theorem forPorts_at {f : State → Port → State} (g : Port → State → β) (hne : ∀ s p q, p ≠ q → g q (f s p) = g q s)
    (heq : ∀ s t p, g p s = g p t → g p (f s p) = g p (f t p)) (s : State) (p : Port) :
    g p (s.forPorts f) = g p (f s p) :=
  foldl_at g hne heq (by decide) (mem_allPorts p) s

theorem forDrives_at {f : State → Drive → State} (g : Drive → State → β) (hne : ∀ s d e, d ≠ e → g e (f s d) = g e s)
    (heq : ∀ s t d, g d s = g d t → g d (f s d) = g d (f t d)) (s : State) (d : Drive) :
    g d (s.forDrives f) = g d (f s d) :=
  foldl_at g hne heq (by decide) (mem_allDrives d) s

/-- A fold none of whose steps changes anything. -/
theorem foldl_fixed {l : List α} (h : ∀ x ∈ l, f s x = s) : l.foldl f s = s := by
  induction l with
  | nil => rfl
  | cons x l ih =>
    rw [List.foldl_cons, h x (by simp)]
    exact ih fun y hy => h y (by simp [hy])

/-- A fold one of whose steps alone changes something. -/
theorem foldl_single {l : List α} (hl : l.Nodup) {y : α} (hy : y ∈ l) (hs : ∀ x, x ≠ y → f s x = s)
    (ht : ∀ x, x ≠ y → f (f s y) x = f s y) : l.foldl f s = f s y := by
  induction l with
  | nil => cases hy
  | cons x l ih =>
    obtain ⟨hx, hl⟩ := List.nodup_cons.mp hl
    rw [List.foldl_cons]
    by_cases hxy : x = y
    · subst hxy
      exact foldl_fixed fun z hz => ht z fun e => hx (e ▸ hz)
    · rw [hs x hxy]
      exact ih hl ((List.mem_cons.mp hy).resolve_left (Ne.symm hxy))

theorem forPorts_fixed {f : State → Port → State} (h : ∀ p, f s p = s) : s.forPorts f = s := foldl_fixed fun p _ => h p

theorem forPorts_single {f : State → Port → State} (p : Port) (hs : ∀ q, q ≠ p → f s q = s)
    (ht : ∀ q, q ≠ p → f (f s p) q = f s p) : s.forPorts f = f s p :=
  foldl_single (by decide) (mem_allPorts p) hs ht

theorem forDrives_fixed {f : State → Drive → State} (h : ∀ d, f s d = s) : s.forDrives f = s := foldl_fixed fun d _ => h d

theorem forDrives_single {f : State → Drive → State} (d : Drive) (hs : ∀ e, e ≠ d → f s e = s)
    (ht : ∀ e, e ≠ d → f (f s d) e = f s d) : s.forDrives f = f s d :=
  foldl_single (by decide) (mem_allDrives d) hs ht

end Folds

/-! ## Notices (R177) -/

section Notices
variable {s : State} {p q : Port} {n : Notice}

theorem State.post_disabled (h : (s.port p).state = .disabled) : s.post p n = s := by
  simp [State.post, h]

theorem State.post_enabled (h : (s.port p).state ≠ .disabled) :
    s.post p n = { s with
      queues := s.queues.set p { s.queue p with
        notices := (enterQueue (s.queue p).notices (s.port p).offersNotice n).1 },
      ports := s.ports.set p { s.port p with
        overflow := (s.port p).overflow || (enterQueue (s.queue p).notices (s.port p).offersNotice n).2 } } := by
  unfold State.post
  rw [if_neg h]
  rfl

/-- What a post leaves in a port's queue. -/
theorem State.post_queue : (s.post p n).queue q = if p = q ∧ (s.port p).state ≠ .disabled then
    { s.queue p with notices := (enterQueue (s.queue p).notices (s.port p).offersNotice n).1 } else s.queue q := by
  unfold State.post
  split
  next h => simp [h]
  next h => simp [h, State.setQueue_queue]

theorem State.post_port_same : (s.post p n).port p = if (s.port p).state = .disabled then s.port p else
    { s.port p with
      overflow := (s.port p).overflow || (enterQueue (s.queue p).notices (s.port p).offersNotice n).2 } := by
  unfold State.post
  split
  next => rfl
  next => simp

theorem State.post_port_ne (h : p ≠ q) : (s.post p n).port q = s.port q := by
  unfold State.post
  split
  next => rfl
  next => exact State.modPort_port_ne _ _ _ _ h

/-- A post leaves a port's state, connection and offer, its settings and its link alone. -/
theorem State.post_port : ∃ b, (s.post p n).port q = { s.port q with overflow := b } := by
  by_cases hpq : p = q
  · subst hpq
    unfold State.post
    split
    next => exact ⟨_, rfl⟩
    next => exact ⟨_, State.modPort_port_same _ _ _⟩
  · exact ⟨_, State.post_port_ne hpq⟩

theorem PortRec.offersNotice_iff {r : PortRec} : r.offersNotice = true ↔ ∃ x b, r.offer = some (.notice x, b) := by
  unfold PortRec.offersNotice
  rcases r.offer with _ | ⟨_ | _ | _, _⟩ <;> simp

/-- The oldest SPARE-ADVISED is dropped, and a list without one has none to drop. -/
theorem dropOldestSpareAdvised_split {a b : List Notice} {x : Notice} (hx : x.isSpareAdvised = true)
    (ha : ∀ y ∈ a, y.isSpareAdvised = false) : dropOldestSpareAdvised (a ++ x :: b) = some (a ++ b) := by
  induction a with
  | nil => simp [dropOldestSpareAdvised, hx]
  | cons y a ih =>
    have hy : y.isSpareAdvised = false := ha y (by simp)
    simp [dropOldestSpareAdvised, hy, ih fun z hz => ha z (by simp [hz])]

theorem dropOldestSpareAdvised_none {l : List Notice} (h : ∀ y ∈ l, y.isSpareAdvised = false) :
    dropOldestSpareAdvised l = none := by
  induction l with
  | nil => rfl
  | cons y l ih => simp [dropOldestSpareAdvised, h y (by simp), ih fun z hz => h z (by simp [hz])]

/-- The same past a head under offer. -/
theorem dropForNewcomer_split {a b : List Notice} {x : Notice} {underOffer : Bool} (hx : x.isSpareAdvised = true)
    (hu : underOffer = true → a ≠ []) (ha : ∀ y ∈ (if underOffer then a.tail else a), y.isSpareAdvised = false) :
    dropForNewcomer underOffer (a ++ x :: b) = some (a ++ b) := by
  cases underOffer with
  | false => exact dropOldestSpareAdvised_split hx ha
  | true =>
    cases a with
    | nil => exact absurd rfl (hu rfl)
    | cons y a =>
      have hd := dropOldestSpareAdvised_split (b := b) hx (show ∀ z ∈ a, _ from ha)
      simp [dropForNewcomer, hd]

theorem dropForNewcomer_none {l : List Notice} {underOffer : Bool}
    (h : ∀ y ∈ (if underOffer then l.tail else l), y.isSpareAdvised = false) : dropForNewcomer underOffer l = none := by
  cases underOffer with
  | false => exact dropOldestSpareAdvised_none h
  | true =>
    cases l with
    | nil => rfl
    | cons y l =>
      have hd := dropOldestSpareAdvised_none (show ∀ z ∈ l, _ from h)
      simp [dropForNewcomer, hd]

/-! ## A notice posted to several ports -/

/-- One port's part of a posting of n to the ports that a test on the port and on d's sharing record names. -/
def postsWhere (d : Drive) (n : Notice) (named : PortRec → Sharing → Port → Bool) (s : State) (p : Port) : State :=
  if named (s.port p) (s.share d) p then s.post p n else s

section Several
variable {d : Drive} {named : PortRec → Sharing → Port → Bool}

theorem postsWhere_cases : postsWhere d n named s p = s ∨ postsWhere d n named s p = s.post p n := by
  unfold postsWhere
  split <;> simp

theorem postsWhere_share : (postsWhere d n named s p).sharing = s.sharing := by
  rcases postsWhere_cases (s := s) (p := p) (d := d) (n := n) (named := named) with h | h
  · rw [h]
  · rw [h, State.post_sharing]

/-- It leaves all blocks but the ports and the queues, and of a port all but the overflow flag. -/
theorem State.postAll_shape (s : State) : ∃ a b, s.forPorts (postsWhere d n named) = { s with ports := a, queues := b } := by
  refine foldl_ind (P := fun t => ∃ a b, t = { s with ports := a, queues := b }) _ _ s ⟨_, _, rfl⟩ fun t p ht => ?_
  obtain ⟨a, b, rfl⟩ := ht
  rcases postsWhere_cases (s := { s with ports := a, queues := b }) (p := p) (d := d) (n := n) (named := named) with h | h
  · exact ⟨a, b, h⟩
  · obtain ⟨a', b', hp⟩ := State.post_shape { s with ports := a, queues := b } p n
    exact ⟨a', b', h.trans hp⟩

theorem State.postAll_port (s : State) (q : Port) :
    ∃ b, (s.forPorts (postsWhere d n named)).port q = { s.port q with overflow := b } := by
  refine foldl_ind (P := fun t => ∃ b, t.port q = { s.port q with overflow := b }) _ _ s ⟨_, rfl⟩ fun t p ht => ?_
  obtain ⟨b, hb⟩ := ht
  rcases postsWhere_cases (s := t) (p := p) (d := d) (n := n) (named := named) with h | h
  · exact ⟨b, by rw [h, hb]⟩
  · obtain ⟨b', hb'⟩ := State.post_port (s := t) (p := p) (q := q) (n := n)
    exact ⟨b', by rw [h, hb', hb]⟩

/-- Each port named gets the notice, as if it were posted to it alone. -/
theorem State.postAll_queue (s : State) (q : Port) : (s.forPorts (postsWhere d n named)).queue q =
    if named (s.port q) (s.share d) q then (s.post q n).queue q else s.queue q := by
  have hview := forPorts_at (f := postsWhere d n named) (fun q t => (t.queue q, t.port q, t.sharing)) (fun t p q h => ?_)
    (fun t u p h => ?_) s q
  · refine (congrArg Prod.fst hview).trans ?_
    unfold postsWhere
    dsimp only
    split <;> rfl
  · rw [postsWhere_share]
    rcases postsWhere_cases (s := t) (p := p) (d := d) (n := n) (named := named) with e | e
    · rw [e]
    · simp [e, State.post_queue, State.post_port_ne h, h]
  · simp only [Prod.mk.injEq] at h
    obtain ⟨h1, h2, h3⟩ := h
    rw [postsWhere_share, postsWhere_share]
    unfold postsWhere State.share
    rw [h2, h3]
    split
    next => simp [State.post_queue, State.post_port_same, h1, h2]
    next => simp [h1, h2]

end Several

end Notices

/-- Settles O16: the branches of a post, and of the queue's five steps in their order. -/
theorem noticeEntersItsQueue : Obligations.NoticeEntersItsQueue := by
  unfold Obligations.NoticeEntersItsQueue
  refine ⟨fun s p n => ⟨State.post_disabled, fun h => ⟨?_, PortRec.offersNotice_iff⟩⟩, fun q u n => ⟨fun h => ?_, fun h hl => ?_,
    fun h hl hn a x b hq hx hu ha => ?_, fun h hl hn ha => ?_, fun h hl hn => ?_⟩⟩
  · rw [State.post_enabled h]
    cases (enterQueue (s.queue p).notices (s.port p).offersNotice n).2 <;> simp
  · simp [enterQueue, h]
  · simp [enterQueue, h, hl]
  · subst hq
    have hlong : ¬ (a ++ x :: b).length < 12 := Nat.not_lt.mpr hl
    simp only [enterQueue, h, hlong, hn, dropForNewcomer_split hx hu ha, if_false, Bool.false_eq_true]
  · simp [enterQueue, h, Nat.not_lt.mpr hl, hn, dropForNewcomer_none ha]
  · simp [enterQueue, h, Nat.not_lt.mpr hl, hn]

/-! ## Owed sets and holds (R166, R168, R170) -/

section Owed
variable {s t : State} {d e : Drive} {p q : Port}

theorem State.heldBy_iff : s.heldBy d p = true ↔ ∃ x, (s.share d).hold = some x ∧ x.port = p := by
  unfold State.heldBy
  cases (s.share d).hold <;> simp

theorem State.admittedNow_iff {m : OwedMark} : s.admittedNow d p m = true ↔ s.op d = none ∧ (m = .command →
    (∀ x, (s.share d).hold = some x → x.port = p) ∧ ∀ g, (s.share d).owner = some g → g = (s.port p).group) := by
  cases m with
  | order => simp [State.admittedNow]
  | command =>
    simp [State.admittedNow, ← State.heldByOther_eq_false, ← State.reservedByOther_eq_false]
    tauto

/-- One port's part of the test of d's owed set (R170). -/
def State.testOwed (d : Drive) (s : State) (p : Port) : State :=
  match (s.share d).owes p with
  | some m => if s.admittedNow d p m then (s.removeOwed d p).post p (.deviceFree d) else s
  | none => s

theorem State.owedTest_eq (s : State) (d : Drive) : s.owedTest d = s.forPorts (State.testOwed d) := rfl

theorem Sharing.owes_set (x : Sharing) (p q : Port) (m : Option OwedMark) :
    ({ x with owed := x.owed.set p m } : Sharing).owes q = if p = q then m else x.owes q := by
  simp only [Sharing.owes, Fin.getElem_fin, Vector.getElem_set, Fin.ext_iff]

@[simp] theorem State.removeOwed_owes : ((s.removeOwed d p).share d).owes q = if p = q then none else (s.share d).owes q := by
  unfold State.removeOwed
  rw [State.modShare_share_same]
  exact Sharing.owes_set _ _ _ _

@[simp] theorem State.removeOwed_hold : ((s.removeOwed d p).share d).hold = (s.share d).hold := by
  simp [State.removeOwed]

@[simp] theorem State.removeOwed_owner : ((s.removeOwed d p).share d).owner = (s.share d).owner := by
  simp [State.removeOwed]

/-- What the test of d's owed set reads and writes at a port. -/
def State.owedView (d : Drive) (p : Port) (s : State) :
    Option OwedMark × Option Hold × Option Nat × Option Operation × NoticeQueue × PortRec :=
  ((s.share d).owes p, (s.share d).hold, (s.share d).owner, s.op d, s.queue p, s.port p)

theorem State.testOwed_hold : ((s.testOwed d p).share d).hold = (s.share d).hold ∧
    ((s.testOwed d p).share d).owner = (s.share d).owner ∧ (s.testOwed d p).ops = s.ops ∧
    ∀ e, e ≠ d → (s.testOwed d p).share e = s.share e := by
  unfold State.testOwed
  split
  next =>
    split
    next =>
      refine ⟨?_, ?_, State.post_ops _ _ _, fun e he => ?_⟩
      · rw [State.post_share, State.removeOwed_hold]
      · rw [State.post_share, State.removeOwed_owner]
      · rw [State.post_share]; exact State.modShare_share_ne _ _ _ _ (Ne.symm he)
    next => exact ⟨rfl, rfl, rfl, fun _ _ => rfl⟩
  next => exact ⟨rfl, rfl, rfl, fun _ _ => rfl⟩

theorem State.testOwed_view_ne (h : p ≠ q) : State.owedView d q (s.testOwed d p) = State.owedView d q s := by
  obtain ⟨h1, h2, h3, -⟩ := State.testOwed_hold (s := s) (d := d) (p := p)
  unfold State.owedView
  rw [h1, h2, State.op_of_ops h3]
  unfold State.testOwed
  split
  next =>
    split
    next => simp [State.post_share, State.post_queue, State.post_port_ne h, h]
    next => rfl
  next => rfl

theorem State.admittedNow_congr {m : OwedMark} (h : State.owedView d p s = State.owedView d p t) :
    s.admittedNow d p m = t.admittedNow d p m := by
  simp only [State.owedView, Prod.mk.injEq] at h
  obtain ⟨-, h1, h2, h3, -, h4⟩ := h
  rw [Bool.eq_iff_iff, State.admittedNow_iff, State.admittedNow_iff, h1, h2, h3, h4]

theorem State.testOwed_view_congr (h : State.owedView d p s = State.owedView d p t) :
    State.owedView d p (s.testOwed d p) = State.owedView d p (t.testOwed d p) := by
  have hadm (m : OwedMark) := State.admittedNow_congr (m := m) h
  have hview := h
  simp only [State.owedView, Prod.mk.injEq] at h
  obtain ⟨h1, h2, h3, h4, h5, h6⟩ := h
  unfold State.testOwed
  rw [h1]
  split
  next m _ =>
    rw [hadm m]
    split
    next =>
      simp [State.owedView, State.post_share, State.post_queue, State.post_port_same, State.removeOwed_hold, h2, h3, h4, h5, h6]
    next => exact hview
  next => exact hview

/-- What the test leaves at a port is what that port's part of it makes of the state before. -/
theorem State.owedTest_view (s : State) (d : Drive) (p : Port) :
    State.owedView d p (s.owedTest d) = State.owedView d p (s.testOwed d p) :=
  forPorts_at (State.owedView d) (fun _ _ _ => State.testOwed_view_ne) (fun _ _ _ => State.testOwed_view_congr) s p

theorem State.testOwed_stays (h : (s.share d).owes p = none ∨ ∃ m, (s.share d).owes p = some m ∧ s.admittedNow d p m = false) :
    s.testOwed d p = s := by
  unfold State.testOwed
  rcases h with h | ⟨m, h, hm⟩ <;> simp [*]

theorem State.testOwed_leaves {m : OwedMark} (h : (s.share d).owes p = some m) (hm : s.admittedNow d p m = true) :
    s.testOwed d p = (s.removeOwed d p).post p (.deviceFree d) := by
  simp [State.testOwed, h, hm]

/-- No other drive's sharing record is touched, nor an owner. -/
theorem State.owedTest_owner (s : State) (d : Drive) : ((s.owedTest d).share d).owner = (s.share d).owner :=
  foldl_keeps (fun s : State => (s.share d).owner) _ (fun _ _ => State.testOwed_hold.2.1) _ s

theorem State.owedTest_share_ne (s : State) (h : e ≠ d) : (s.owedTest d).share e = s.share e :=
  foldl_keeps (fun s : State => s.share e) _ (fun _ _ => State.testOwed_hold.2.2.2 e h) _ s

/-- The holding port's command ends the hold, another port's leaves it (R168). -/
theorem State.endOwnHold_own {x : Hold} (hx : (s.share d).hold = some x) (hp : x.port = p) :
    s.endOwnHold d p = (s.setShare d { s.share d with hold := none }).owedTest d := by
  unfold State.endOwnHold
  rw [if_pos (State.heldBy_iff.mpr ⟨x, hx, hp⟩)]
  rfl

theorem State.endOwnHold_other (h : ∀ x, (s.share d).hold = some x → x.port ≠ p) : s.endOwnHold d p = s := by
  unfold State.endOwnHold
  rw [if_neg]
  rw [State.heldBy_iff]
  rintro ⟨x, hx, hp⟩
  exact h x hx hp

end Owed

/-- Settles O15: what the test shows at a port is that port's own part, taken on the state before the test. -/
theorem owedSetTested : Obligations.OwedSetTested := by
  unfold Obligations.OwedSetTested
  refine ⟨fun s d p r => ⟨rfl, fun x hx hp => State.endOwnHold_own hx hp, State.endOwnHold_other⟩, fun s d => ?_⟩
  intro now
  have stays (p : Port) (h : (s.share d).owes p = none ∨ ∃ m, (s.share d).owes p = some m ∧ ¬ now p m) :
      State.owedView d p (s.owedTest d) = State.owedView d p s := by
    rw [State.owedTest_view, State.testOwed_stays]
    simpa only [← Bool.not_eq_true, State.admittedNow_iff] using h
  refine ⟨fun p h => ?_, fun p m h hm => ?_, fun p m h hm => ?_, fun p h => ?_, State.owedTest_hold s d d,
    State.owedTest_owner s d, fun e => State.owedTest_share_ne s, State.owedTest_ops s d⟩
  · exact (congrArg Prod.fst (stays p (.inl h))).trans h
  · have hv := State.owedTest_view s d p
    rw [State.testOwed_leaves h (State.admittedNow_iff.mpr hm)] at hv
    simp only [State.owedView, Prod.mk.injEq] at hv
    obtain ⟨howes, -, -, -, hqueue, -⟩ := hv
    refine ⟨howes.trans (by simp [State.post_share]), hqueue.trans ?_⟩
    rw [State.post_queue]
    by_cases hdis : (s.port p).state = .disabled <;> simp [hdis]
  · exact (congrArg Prod.fst (stays p (.inr ⟨m, h, hm⟩))).trans h
  · have hv := stays p h
    simp only [State.owedView, Prod.mk.injEq] at hv
    obtain ⟨-, -, -, -, hqueue, hport⟩ := hv
    exact ⟨hqueue, hport⟩

/-! ## The suspect list (R135 to R137) -/

section Suspects
variable {s : State} {d : Drive} {phys logical : Track} {k : FaultKind} {p q : Port}

/-- The entry of a list in which it is the only one for its drive and track. -/
theorem find_suspect {a b : List Suspect} {e : Suspect} (hd : e.drive = d) (hp : e.physical = phys)
    (h : ∀ x ∈ a ++ b, ¬ (x.drive = d ∧ x.physical = phys)) :
    (a ++ e :: b).find? (·.isFor d phys) = some e ∧ ((a ++ e :: b).filter fun x => !x.isFor d phys) = a ++ b := by
  have he : e.isFor d phys = true := by simp [Suspect.isFor, hd, hp]
  have hno (x : Suspect) (hx : x ∈ a ++ b) : x.isFor d phys = false := by
    simpa [Suspect.isFor] using h x hx
  have hna (x : Suspect) (hx : x ∈ a) := hno x (by simp [hx])
  have hnb (x : Suspect) (hx : x ∈ b) := hno x (by simp [hx])
  constructor
  · rw [List.find?_append, List.find?_eq_none.mpr (by simpa using hna)]
    simp [he]
  · rw [List.filter_append, List.filter_cons_of_neg (by simp [he]),
      List.filter_eq_self.mpr (by simpa using hna), List.filter_eq_self.mpr (by simpa using hnb)]

theorem find_no_suspect {l : List Suspect} (h : ∀ x ∈ l, ¬ (x.drive = d ∧ x.physical = phys)) :
    l.find? (·.isFor d phys) = none := by
  rw [List.find?_eq_none]
  intro x hx
  simpa [Suspect.isFor] using h x hx

/-- An update below the threshold, or with the advice given before; and one that advises. -/
theorem State.suspectUpdate_quiet
    (h : (suspectFront s.suspects d phys logical k).count < (s.typeOf d).threshold ∨
      (suspectFront s.suspects d phys logical k).advised = true) :
    s.suspectUpdate d phys logical k =
      { s with suspects := suspectFront s.suspects d phys logical k :: suspectRest s.suspects d phys } := by
  unfold State.suspectUpdate
  rw [if_neg]
  rintro ⟨h1, h2⟩
  rcases h with h | h
  · omega
  · rw [h] at h2; cases h2

theorem State.suspectUpdate_advises
    (h1 : (s.typeOf d).threshold ≤ (suspectFront s.suspects d phys logical k).count)
    (h2 : (suspectFront s.suspects d phys logical k).advised = false) :
    s.suspectUpdate d phys logical k =
      ({ s with suspects := { suspectFront s.suspects d phys logical k with advised := true } ::
          suspectRest s.suspects d phys } : State).postSpareAdvised d logical := by
  unfold State.suspectUpdate
  rw [if_pos ⟨h1, h2⟩]

/-- The port is one of those that SPARE-ADVISED of a drive with this reservation owner goes to (R137). -/
def PortRec.advisable (r : PortRec) (owner : Option Nat) : Bool :=
  (match owner with
    | some g => decide (r.group = g ∧ r.state ≠ .disabled ∧ r.state ≠ .resetting)
    | none => decide (r.state = .idle ∨ r.state = .connected)) && r.maskSpareAdvised

theorem PortRec.advisable_iff {r : PortRec} {owner : Option Nat} : r.advisable owner = true ↔ r.maskSpareAdvised = true ∧
    ((∃ g, owner = some g ∧ r.group = g ∧ r.state ≠ .disabled ∧ r.state ≠ .resetting) ∨
     (owner = none ∧ (r.state = .idle ∨ r.state = .connected))) := by
  unfold PortRec.advisable
  cases owner with
  | none => simp [and_comm]
  | some g => simp [and_comm, eq_comm (a := g)]

theorem PortRec.advisable_enabled {r : PortRec} {owner : Option Nat} (h : r.advisable owner = true) : r.state ≠ .disabled := by
  intro hd
  obtain ⟨-, ⟨g, -, -, hs, -⟩ | ⟨-, hs | hs⟩⟩ := PortRec.advisable_iff.mp h
  · exact hs hd
  · simp [hd] at hs
  · simp [hd] at hs

theorem State.postSpareAdvised_eq : s.postSpareAdvised d logical =
    s.forPorts (postsWhere d (.spareAdvised d logical) fun r _ _ => r.advisable (s.share d).owner) := rfl

/-- What SPARE-ADVISED leaves in a port's queue (R137). -/
theorem State.postSpareAdvised_queue : (s.postSpareAdvised d logical).queue p =
    if (s.port p).advisable (s.share d).owner then { s.queue p with
      notices := (enterQueue (s.queue p).notices (s.port p).offersNotice (.spareAdvised d logical)).1 }
    else s.queue p := by
  rw [State.postSpareAdvised_eq, State.postAll_queue]
  split
  next h => simp [State.post_queue, PortRec.advisable_enabled h]
  next => rfl

end Suspects

/-- Settles O17: the front entry an update leaves, whether it advises, and the ports that are advised. -/
theorem suspectListUpdated : Obligations.SuspectListUpdated := by
  unfold Obligations.SuspectListUpdated
  refine ⟨fun s d phys logical k => ⟨fun a e b hs hd hp hno => ?_, fun hno => ?_⟩, fun s d t p => ?_⟩
  · intro e'
    obtain ⟨hfind, hfilter⟩ := find_suspect hd hp hno
    have hfront : suspectFront s.suspects d phys logical k = e' := by simp [suspectFront, hs, hfind, e']
    have hrest : suspectRest s.suspects d phys = a ++ b := by
      simp only [suspectRest, hs, hfind]
      exact hfilter
    refine ⟨fun h => ?_, fun h1 h2 => ?_⟩
    · rw [State.suspectUpdate_quiet (hfront ▸ h), hfront, hrest]
    · rw [State.suspectUpdate_advises (hfront ▸ h1) (hfront ▸ h2), hfront, hrest]
  · intro e'
    have hfind := find_no_suspect hno
    have hfront : suspectFront s.suspects d phys logical k = e' := by simp [suspectFront, hfind, e']
    have hrest : suspectRest s.suspects d phys = s.suspects.take 31 := by simp [suspectRest, hfind]
    refine ⟨fun h => ?_, fun h => ?_⟩
    · rw [State.suspectUpdate_quiet (hfront ▸ .inl h), hfront, hrest]
    · rw [State.suspectUpdate_advises (hfront ▸ h) (hfront ▸ rfl), hfront, hrest]
  · intro named
    have hnamed : named ↔ (s.port p).advisable (s.share d).owner = true := PortRec.advisable_iff.symm
    refine ⟨fun h => ?_, fun h => ?_⟩
    · rw [State.postSpareAdvised_queue, if_pos (hnamed.mp h)]
    · rw [State.postSpareAdvised_queue, if_neg (mt hnamed.mpr h)]

/-! ## Translation and learning (R109 to R111) -/

section Spare
variable {s : State} {d : Drive} {t : Track} {e : SpareEntry}

theorem State.entryFor_some (h : s.entryFor d t = some e) : e ∈ s.spareMap ∧ e.drive = d ∧ e.home = t := by
  have hfor : e.isFor d t = true := by
    have := List.find?_some h
    exact this
  exact ⟨List.mem_of_find?_eq_some h, (SpareEntry.isFor_iff e d t).mp hfor⟩

theorem SpareEntry.isFor_eq (x : SpareEntry) (d : Drive) (t : Track) : x.isFor d t = decide (x.drive = d ∧ x.home = t) := by
  simp [SpareEntry.isFor]

theorem State.heldElsewhere_iff {p : Track} : s.heldElsewhere d t p = true ↔
    ∃ e ∈ s.spareMap, e.drive = d ∧ e.home ≠ t ∧ (e.current = some p ∨ e.pending = some p) := by
  simp [State.heldElsewhere, SpareEntry.holds, and_assoc]

theorem DriveType.isAlternate_iff {y : DriveType} {x : Track} :
    y.isAlternate x = true ↔ y.dataCyls ≤ x.cyl ∧ x.cyl < y.dataCyls + y.altCyls ∧ x.head < y.heads := by
  simp [DriveType.isAlternate, and_assoc]

/-- A DEFECTIVE home field by the first two steps of learning (R111). -/
theorem State.verdict_defective (p : Track) : s.verdict d t .good (.defective p) =
    if (s.typeOf d).isAlternate p = false then .conflict .pointerRange
    else if s.heldElsewhere d t p = true then .conflict .pointerHeld else .learn p := rfl

end Spare

/-- Settles O18: the branches of translation, of learning and of the verdict. -/
theorem translationAndVerification : Obligations.TranslationAndVerification := by
  unfold Obligations.TranslationAndVerification
  refine ⟨fun s d t => ⟨fun e q he ha hc => ?_, fun e he h => ?_, fun h => ?_, fun e => State.entryFor_some,
      fun h x hx => State.entryFor_none h x hx⟩,
    fun s d t p => ⟨fun e he => ?_, fun h hl => ?_, fun h hl => ?_⟩,
    fun s d t => ⟨fun x => rfl, rfl, fun x => rfl, rfl, rfl, fun p => ⟨fun h => ?_, fun h1 h2 h3 => ⟨fun h => ?_, fun h => ?_⟩⟩⟩⟩
  · simp [State.translate, he, ha, hc]
  · rcases h with h | h
    · simp [State.translate, he, h]
    · simp [State.translate, he, h]
  · simp [State.translate, h]
  · simp [State.learn, he, State.modEntry, SpareEntry.isFor_eq]
  · simp [State.learn, h, hl, State.addEntry]
  · simp [State.learn, h, Nat.not_lt.mpr hl]
  · rw [State.verdict_defective, if_pos (by rwa [← Bool.not_eq_true, DriveType.isAlternate_iff])]
  · rw [State.verdict_defective, DriveType.isAlternate_iff.mpr ⟨h1, h2, h3⟩, if_neg (by simp),
      if_pos (State.heldElsewhere_iff.mpr h)]
  · rw [State.verdict_defective, DriveType.isAlternate_iff.mpr ⟨h1, h2, h3⟩, if_neg (by simp), if_neg]
    rw [State.heldElsewhere_iff]
    rintro ⟨e, he, hd, hh, hc | hc⟩
    · exact (h e he hd hh).1 hc
    · exact (h e he hd hh).2 hc

/-! ## Numbers of a drive type (R9, R20, R57) -/

section Numbers

/-- Subtraction within a revolution of n sectors. -/
theorem sub_around {n o a : Nat} (ho : o < n) (ha : a < n) :
    (o + n - a) % n = if a ≤ o then o - a else o + n - a := by
  split
  next h => rw [show o + n - a = (o - a) + n by omega, Nat.add_mod_right, Nat.mod_eq_of_lt (by omega)]
  next h => exact Nat.mod_eq_of_lt (by omega)

theorem add_one_around {n a : Nat} (ha : a < n) : (a + 1) % n = if a + 1 = n then 0 else a + 1 := by
  split
  next h => rw [h, Nat.mod_self]
  next h => exact Nat.mod_eq_of_lt (by omega)

theorem foldl_add_map {α : Type} (g : α → Nat) (l : List α) (n : Nat) :
    l.foldl (fun n x => n + g x) n = n + (l.map g).sum := by
  induction l generalizing n with
  | nil => rfl
  | cons x l ih => simp [ih, Nat.add_assoc]

end Numbers

/-- Settles O20: differences around a revolution of S sectors. -/
theorem requestSectorAndSlack : Obligations.RequestSectorAndSlack := by
  unfold Obligations.RequestSectorAndSlack
  refine ⟨fun t o a => ⟨rfl, rfl⟩, fun t o a hS hL ho ha => ?_, fun s d o h => by simp [State.slack, h],
    fun s d o a h => by simp [State.slack, h]⟩
  have hr : requestSector t o = if t.lead ≤ o then o - t.lead else o + t.sectors - t.lead := by
    unfold requestSector
    split
    next h => rw [show o + t.sectors - t.lead = (o - t.lead) + t.sectors by omega, Nat.add_mod_right, Nat.mod_eq_of_lt (by omega)]
    next h => exact Nat.mod_eq_of_lt (by omega)
  have hs {b : Nat} (hb : b < t.sectors) : slackAt t o b = if b ≤ o then o - b else o + t.sectors - b := sub_around ho hb
  have hn : nextAngle (some t) a = if a + 1 = t.sectors then 0 else a + 1 := add_one_around ha
  have hnext : nextAngle (some t) a < t.sectors := Nat.mod_lt _ hS
  have hreq : requestSector t o < t.sectors := Nat.mod_lt _ hS
  refine ⟨hreq, Nat.mod_lt _ hS, ?_, ?_, hnext, ?_⟩
  · rw [hs ha]
    split <;> omega
  · rw [hs hreq, hr]
    by_cases hlead : t.lead = t.sectors
    · simp [hlead, Nat.not_le.mpr ho]
    · rw [Nat.mod_eq_of_lt (by omega)]
      split <;> split <;> omega
  · rw [hs hnext, hs ha, hn]
    split_ifs <;> omega

/-- Settles O23: quotient and remainder by the heads. -/
theorem alternatesAreEnumerated : Obligations.AlternatesAreEnumerated := by
  unfold Obligations.AlternatesAreEnumerated
  intro t
  refine ⟨fun i hi => ?_, fun x hx => ?_⟩
  · have hH : 0 < t.heads := Nat.pos_of_mul_pos_left (Nat.zero_lt_of_lt hi)
    have hcyl : i / t.heads < t.altCyls := Nat.div_lt_of_lt_mul (by rwa [Nat.mul_comm] at hi)
    refine ⟨DriveType.isAlternate_iff.mpr ⟨Nat.le_add_right _ _, Nat.add_lt_add_left hcyl _, Nat.mod_lt _ hH⟩, ?_⟩
    simp [DriveType.alternateIndex, DriveType.alternateAt, Nat.div_add_mod']
  · obtain ⟨h1, h2, h3⟩ := DriveType.isAlternate_iff.mp hx
    have hidx : t.alternateIndex x = t.heads * (x.cyl - t.dataCyls) + x.head := by
      rw [DriveType.alternateIndex, Nat.mul_comm]
    refine ⟨?_, ?_, rfl⟩
    · calc t.alternateIndex x < (x.cyl - t.dataCyls) * t.heads + t.heads := Nat.add_lt_add_left h3 _
        _ = (x.cyl - t.dataCyls + 1) * t.heads := (Nat.succ_mul _ _).symm
        _ ≤ t.altCyls * t.heads := Nat.mul_le_mul_right _ (by omega)
    · have hH : 0 < t.heads := Nat.zero_lt_of_lt h3
      rw [DriveType.alternateAt, hidx, Nat.mul_add_div hH, Nat.mul_add_mod, Nat.div_eq_of_lt h3, Nat.mod_eq_of_lt h3]
      rw [Nat.add_zero, Nat.add_sub_cancel' h1]

/-- Settles O24: the four tests, and the sum of R9. -/
theorem descriptorsFitATrack : Obligations.DescriptorsFitATrack := by
  unfold Obligations.DescriptorsFitATrack
  intro t ds
  have hsum : trackSum ds = 24 + (ds.map fun x => 40 + x.keyLength + x.dataLength).sum := foldl_add_map _ ds 24
  simp [DriveType.fits, Descriptor.lengthsInRange, hsum, and_assoc]

end Sys2Proof.Machine
end

section
/-! SUPPORT. The ends of connections and offers (8.4, 8.6, 4.6, 4.7, 10.2): what each does to the port, the paths and the
operations, item by item. -/

namespace Sys2Proof.Machine

open Sys2Proof

-- One proof at a time: together the files of this text have to compile within the check's memory.
set_option Elab.async false

section Ends
variable {s : State} {p q : Port} {d : Drive}

/-! ## The link and the buffer -/

theorem PortRec.not_ending (r : PortRec) : (!r.ending) = r.link.all fun f => !f.isEnding := by
  simp [PortRec.ending, ← List.not_any_eq_all_not]

theorem afterConnection_eq (l : List OutFrame) :
    afterConnection l = l.filterMap fun f => match f with
      | .status a st _ => some (.status a { st with disconnect := true } false)
      | .offer a o => some (.offer a o)
      | .data _ _ _ | .request _ _ _ => none := by
  induction l with
  | nil => rfl
  | cons f l ih =>
    cases f with
    | status a st e => exact congrArg (OutFrame.status a st.disc false :: ·) ih
    | offer a o => exact congrArg (OutFrame.offer a o :: ·) ih
    | data => exact ih
    | request => exact ih

theorem PortRec.disconnected_idle (r : PortRec) : r.disconnected .idle = { r with
      state := .idle, conn := none, offer := none, held := [], requests := [], idleTimer := none, answer := none,
      closing := false, draining := false, awaiting := false,
      link := r.link.filterMap fun f => match f with
        | .status a st _ => some (.status a { st with disconnect := true } false)
        | .offer a o => some (.offer a o)
        | .data _ _ _ | .request _ _ _ => none } :=
  congrArg (fun l => { r.disconnected .idle with link := l }) (afterConnection_eq r.link)

theorem afterConnection_notEnding (l : List OutFrame) : (afterConnection l).any OutFrame.isEnding = false := by
  rw [List.any_eq_false]
  intro f hf
  rcases mem_afterConnection hf with ⟨a, st, e, -, rfl⟩ | ⟨a, o, -, rfl⟩ <;> simp [OutFrame.isEnding]

/-- A port without its connection has no frames in its buffer and no STATUS that ends one. -/
@[simp] theorem PortRec.disconnected_slots (r : PortRec) (st : PortState) : (r.disconnected st).slots = 0 := by
  simp [PortRec.slots, PortRec.disconnected, afterConnection_slots]

@[simp] theorem PortRec.disconnected_ending (r : PortRec) (st : PortState) : (r.disconnected st).ending = false :=
  afterConnection_notEnding _

/-! ## Paths -/

theorem State.freePaths_eq (s : State) (held : PathHold → Bool) :
    s.freePaths held = { s with paths := s.paths.map fun h => h.bind fun x => if held x then none else some x } := by
  unfold State.freePaths
  congr
  funext h
  cases h <;> rfl

theorem State.freePathOfPort_eq (s : State) (p : Port) : s.freePathOfPort p =
    { s with paths := s.paths.map fun h => h.bind fun x => if x.port = some p then none else some x } := by
  simp [State.freePathOfPort, State.freePaths_eq]

theorem State.freeInternalPath_eq (s : State) (d : Drive) : s.freeInternalPath d =
    { s with paths := s.paths.map fun h => h.bind fun x => if x.drive = d ∧ x.port = none then none else some x } := by
  simp [State.freeInternalPath, State.freePaths_eq]

theorem State.freePathOfPort_path_eq (s : State) (p : Port) (n : PathNo) : (s.freePathOfPort p).path n =
    (s.path n).bind fun x => if x.port = some p then none else some x := by
  rw [State.freePathOfPort_eq]
  exact Vector.getElem_map _ _

/-! ## The end of a connection -/

theorem State.forgetDeferral_op (s : State) (p : Port) (d : Drive) : (s.forgetDeferral p).op d =
    (s.op d).map fun o => { o with statusDeferred := o.statusDeferred.set p false } := by
  have h := forDrives_at (f := fun s d => s.modOp d fun o => { o with statusDeferred := o.statusDeferred.remove p })
    (fun d s => s.op d) (fun s d e h => State.modOp_op_ne s d _ e h) (fun s t d h => by simp [h]) s d
  exact h.trans (State.modOp_op_same s d _)

theorem State.endConnection_port_same (s : State) (p : Port) : (s.endConnection p).port p = (s.port p).disconnected .idle := by
  simp [State.endConnection, State.endConnectionAs]

theorem State.endConnection_port_ne (s : State) (h : q ≠ p) : (s.endConnection p).port q = s.port q := by
  simp [State.endConnection, State.endConnectionAs, State.modPort_port_ne _ _ _ _ h.symm]

theorem State.endConnection_queue_same (s : State) (p : Port) :
    (s.endConnection p).queue p = { s.queue p with held := false } := by
  simp [State.endConnection, State.endConnectionAs]

theorem State.endConnection_queue_ne (s : State) (h : q ≠ p) : (s.endConnection p).queue q = s.queue q := by
  simp [State.endConnection, State.endConnectionAs, State.setQueue_queue_ne _ _ _ _ h.symm]

theorem State.endConnection_path (s : State) (p : Port) (n : PathNo) : (s.endConnection p).path n =
    (s.path n).bind fun x => if x.port = some p then none else some x := by
  simp only [State.endConnection, State.endConnectionAs, State.forgetDeferral_path, State.setQueue_path]
  exact State.freePathOfPort_path_eq _ p n

theorem State.endConnection_op (s : State) (p : Port) (d : Drive) : (s.endConnection p).op d =
    (s.op d).map fun o => { o with statusDeferred := o.statusDeferred.set p false } := by
  simp only [State.endConnection, State.endConnectionAs]
  rw [State.forgetDeferral_op]
  simp

/-! ## Offers -/

theorem State.deferOffer_none (h : (s.port p).offer = none) : s.deferOffer p = s := by
  simp [State.deferOffer, h]

theorem State.deferOffer_reconnect {b : Bool} (h : (s.port p).offer = some (.reconnect d, b)) :
    s.deferOffer p = ((s.dropOffer p).freePathOfPort p).modOp d fun o => o.deferredBy p := by
  simp [State.deferOffer, h]

theorem State.deferOffer_status {b : Bool} (h : (s.port p).offer = some (.status d, b)) :
    s.deferOffer p = (s.dropOffer p).modOp d fun o => { o with statusDeferred := o.statusDeferred.add p } := by
  simp [State.deferOffer, h]

theorem State.deferOffer_notice {n : Notice} {b : Bool} (h : (s.port p).offer = some (.notice n, b)) :
    s.deferOffer p = (s.dropOffer p).setQueue p { s.queue p with held := true } := by
  simp [State.deferOffer, h]

theorem Operation.deferredBy_open {o : Operation} {x : Orientation} (hx : o.orient = some x) (hw : x.windowOpen = true) :
    o.deferredBy p = { o with orient := some { x with req := .active, deferred := x.deferred.add p } } := by
  simp [Operation.deferredBy, hx, hw]

theorem Operation.deferredBy_closed {o : Operation} {x : Orientation} (hx : o.orient = some x) (hw : x.windowOpen = false) :
    o.deferredBy p = o.lapse x := by
  simp [Operation.deferredBy, hx, hw]

/-- The port offers what concerns the operation of drive d. -/
def PortRec.offersFor (r : PortRec) (d : Drive) : Bool :=
  match r.offer with
  | some (o, _) => o.concerns d
  | none => false

theorem PortRec.offersFor_iff {r : PortRec} : r.offersFor d = true ↔
    r.offer.map Prod.fst = some (.reconnect d) ∨ r.offer.map Prod.fst = some (.status d) := by
  unfold PortRec.offersFor
  rcases r.offer with _ | ⟨_ | _ | _, _⟩ <;> simp [Offer.concerns]

/-- One port's part of the withdrawal of the offers for d's operation. -/
def State.withdrawAt (d : Drive) (s : State) (p : Port) : State :=
  if (s.port p).offersFor d then (s.dropOffer p).freePathOfPort p else s

theorem State.withdrawOffersOf_eq (s : State) (d : Drive) : s.withdrawOffersOf d = s.forPorts (State.withdrawAt d) := by
  unfold State.withdrawOffersOf
  congr
  funext s p
  unfold State.withdrawAt PortRec.offersFor
  split
  next h => simp [h]
  next h => simp [h]

theorem State.withdrawOffersOf_none (h : ∀ q, (s.port q).offersFor d = false) : s.withdrawOffersOf d = s := by
  rw [State.withdrawOffersOf_eq]
  exact forPorts_fixed fun q => by simp [State.withdrawAt, h q]

theorem State.withdrawOffersOf_one (hp : (s.port p).offersFor d = true) (h : ∀ q, q ≠ p → (s.port q).offersFor d = false) :
    s.withdrawOffersOf d = (s.dropOffer p).freePathOfPort p := by
  have hone : s.withdrawAt d p = (s.dropOffer p).freePathOfPort p := by simp [State.withdrawAt, hp]
  rw [State.withdrawOffersOf_eq, forPorts_single p (fun q hq => by simp [State.withdrawAt, h q hq]) fun q hq => ?_, hone]
  have hport : ((s.dropOffer p).freePathOfPort p).port q = s.port q := by
    simp [State.dropOffer, State.modPort_port_ne _ _ _ _ hq.symm]
  rw [hone, State.withdrawAt, hport, h q hq]
  rfl

end Ends

/-- Settles O14: the items of an ended connection, and the branches of a deferral and of a withdrawal. -/
theorem connectionEnds : Obligations.ConnectionEnds := by
  unfold Obligations.ConnectionEnds
  refine ⟨fun s p d st => ⟨rfl, rfl, fun c e => rfl, ?_⟩, fun s p => ⟨State.deferOffer_none, fun d o x b hoff ho hx =>
      ⟨fun hw => ?_, fun hw => ?_⟩, fun d o b hoff ho => ?_, fun n b => State.deferOffer_notice⟩, fun s p => ?_, fun s p d => ?_⟩
  · rw [State.reply, PortRec.not_ending]
    rfl
  · rw [State.deferOffer_reconnect hoff, State.modOp_some _ _ _ (o := o) (by simpa using ho), Operation.deferredBy_open hx hw]
    rfl
  · rw [State.deferOffer_reconnect hoff, State.modOp_some _ _ _ (o := o) (by simpa using ho), Operation.deferredBy_closed hx hw]
    rfl
  · rw [State.deferOffer_status hoff, State.modOp_some _ _ _ (o := o) (by simpa using ho)]
    rfl
  · intro t
    have hport : t.port p = (s.port p).disconnected .idle := State.endConnection_port_same s p
    have hqueue : t.queue p = { s.queue p with held := false } := State.endConnection_queue_same s p
    refine ⟨?_, ?_, ?_, ?_, ?_, ?_, ?_, ?_, ?_, ?_, ?_, ?_,
      fun q hq => ⟨State.endConnection_port_ne s hq, State.endConnection_queue_ne s hq⟩, fun n => ?_,
      State.endConnection_op s p, ?_, ?_, ?_, ?_, ?_, ?_, ?_, ?_, ?_, ?_, ?_, ?_, ?_⟩
    · exact hport.trans (PortRec.disconnected_idle _)
    · rw [hport]; rfl
    · rw [hport]; rfl
    · rw [hport]; rfl
    · rw [hport]; rfl
    · rw [hport]; rfl
    · rw [hport]; rfl
    · rw [hport, PortRec.disconnected_slots]
    · rw [hport, PortRec.disconnected_ending]
    · rw [hport]; rfl
    · rw [hqueue]
    · rw [hqueue]
    · rw [State.endConnection_path]
      cases s.path n <;> rfl
    all_goals simp [t]
  · refine ⟨rfl, State.freePathOfPort_eq s p, State.freeInternalPath_eq s d, ?_⟩
    intro offers
    have hoffers (q : Port) : offers q ↔ (s.port q).offersFor d = true := PortRec.offersFor_iff.symm
    simp only [hoffers, Bool.not_eq_true]
    exact ⟨State.withdrawOffersOf_none, State.withdrawOffersOf_one⟩

end Sys2Proof.Machine
end

section
/-! SUPPORT. Claims on IDLE ports (4.5, 5.12, 7.1, 8.6, 10.4): which stand, what one does when it is taken, and that taking
them leaves the drive tables alone. -/

namespace Sys2Proof.Machine

open Sys2Proof

-- One proof at a time: together the files of this text have to compile within the check's memory.
set_option Elab.async false

/-! ## The drive tables during a home-field write that is not made (R124) -/

section Records
variable (s : State) (d : Drive)

@[simp] theorem State.orderMotion_records (kind : Actuator) (cyl dist : Nat) :
    (s.orderMotion d kind cyl dist).1.records = s.records := by
  unfold State.orderMotion
  split <;> rfl

@[simp] theorem State.selectHead_records (h : Nat) : (s.selectHead d h).records = s.records := by
  unfold State.selectHead
  split <;> rfl

@[simp] theorem State.moveTo_records (t : Track) : (s.moveTo d t).1.records = s.records := by
  unfold State.moveTo State.orderRecalibrate
  split
  next =>
    split
    next =>
      split
      next => exact State.selectHead_records s d t.head
      next => exact State.orderMotion_records s d _ _ _
    next => exact State.orderMotion_records s d _ _ _
  next => exact State.orderMotion_records s d _ _ _
  all_goals rfl

@[simp] theorem State.modAlt_records (f : AltOp → AltOp) : (s.modAlt d f).records = s.records := rfl

@[simp] theorem State.noteFirstFault_records (k : FaultKind) (det : Detail) : (s.noteFirstFault d k det).records = s.records := rfl

@[simp] theorem State.modEntry_records (t : Track) (f : SpareEntry → SpareEntry) : (s.modEntry d t f).records = s.records := rfl

@[simp] theorem State.undoPending_records (t : Track) (fresh : Bool) : (s.undoPending d t fresh).records = s.records := by
  unfold State.undoPending
  split <;> rfl

@[simp] theorem State.keepPending_records (st : Status) (r : Option FaultRecord) :
    (s.keepPending d st r).records = s.records := by
  simp [State.keepPending]

@[simp] theorem State.dropUnclaimed_records : (s.dropUnclaimed d).records = s.records := by
  unfold State.dropUnclaimed
  split
  next =>
    split
    next => split <;> simp
    next => rfl
  next => rfl

@[simp] theorem State.endAlternate_records (out : AltOutcome) : (s.endAlternate d out).records = s.records := by
  unfold State.endAlternate
  split
  next => split <;> simp
  next => rfl

@[simp] theorem State.finishAlternate_records : (s.finishAlternate d).records = s.records := by
  unfold State.finishAlternate
  split
  next =>
    split
    next =>
      rw [State.endAlternate_records]
      split <;> rfl
    next => rfl
  next => rfl

@[simp] theorem State.goRetire_records (q : Track) : (s.goRetire d q).records = s.records := by
  unfold State.goRetire
  have hmove := State.moveTo_records (s.modOp d fun o => { o with target := some q, work := .positioning }) d q
  dsimp only
  split
  next h => rw [h] at hmove; exact hmove
  next h => rw [h] at hmove; exact hmove
  next h => rw [h] at hmove; exact hmove
  next h => rw [h] at hmove; simpa using hmove

@[simp] theorem State.commit_records : (s.commit d).records = s.records := by
  unfold State.commit
  split
  next =>
    split
    next =>
      dsimp only
      split
      next => simp
      next =>
        split
        next =>
          split
          next => simp
          next => simp
        next => simp
    next => rfl
  next => rfl

/-- An alternate operation goes on as after a write check without a change of the tables: no track is passed by the cursor. -/
theorem State.altWritten_check_records : (s.altWritten d false).records = s.records := by
  unfold State.altWritten State.homeUnmarked
  split
  next =>
    split
    next => split <;> simp
    next => rfl
  next => rfl

theorem State.grantInternal_records (n : PathNo) : (s.grantInternal n d).records = s.records := by
  unfold State.grantInternal
  dsimp only
  split
  next =>
    split
    next => simp [State.altWritten_check_records]
    next => rfl
  all_goals rfl

theorem State.takeClaim_records (p : Port) (c : Claim) : (s.takeClaim p c).records = s.records := by
  cases c <;> rfl

theorem State.serveOne_records (p : Port) : (s.serveOne p).records = s.records := by
  unfold State.serveOne
  split
  next => rfl
  next => exact State.takeClaim_records s p _
  next => exact State.takeClaim_records s p _

theorem State.serveRounds_records (n : Nat) : (s.serveRounds n).records = s.records := by
  induction n generalizing s with
  | zero => rfl
  | succ n ih =>
    unfold State.serveRounds
    split
    next => rw [ih, State.grantInternal_records]
    next =>
      split
      next => rw [ih, State.serveOne_records]
      next => rfl

end Records

/-! ## One claim taken -/

section Claims
variable {u v : State} {p : Port} {n : PathNo} {d : Drive} {o : Operation}

theorem State.internalDecision_none (h : u.decision = none) : u.internalDecision = none := by
  simp [State.internalDecision, h]

/-- Rounds find nothing to take where no claim stands. -/
theorem State.Quiet.serveRounds (h : u.Quiet) (m : Nat) : u.serveRounds m = u := by
  obtain ⟨hdec, hclaims⟩ := h
  cases m with
  | zero => rfl
  | succ m =>
    have hfind : allPorts.find? (fun p => !(u.claims p).isEmpty) = none := by
      rw [List.find?_eq_none]
      simp [hclaims]
    simp [State.serveRounds, State.internalDecision_none hdec, hfind]

theorem State.Quiet.serveClaims (h : u.Quiet) : u.serveClaims = u := h.serveRounds 12

/-- An INTERNAL grant that leaves no claim behind is all that is taken. -/
theorem State.serveClaims_internal {c : Contender} (hd : u.decision = some (n, c)) (hc : c.port = none)
    (hv : u.grantInternal n c.drive = v) (hq : v.Quiet) : u.serveClaims = v := by
  have hint : u.internalDecision = some (n, c.drive) := by simp [State.internalDecision, hd, hc]
  unfold State.serveClaims
  rw [State.serveRounds, hint]
  dsimp only
  rw [hv]
  exact hq.serveRounds 11

/-- The same of the one claim that stands on a port. -/
theorem State.serveClaims_one {c : Claim} (hint : u.internalDecision = none) (hp : u.claims p = [c])
    (hne : ∀ q, q ≠ p → u.claims q = []) (hv : u.takeClaim p c = v) (hq : v.Quiet) : u.serveClaims = v := by
  have hfind : allPorts.find? (fun q => !(u.claims q).isEmpty) = some p := by
    rw [allPorts_find?, Fin.find?_eq_some_iff]
    refine ⟨by simp [hp], fun q hlt => ?_⟩
    simp [hne q (ne_of_lt hlt)]
  have hone : u.serveOne p = v := by simp [State.serveOne, hp, hv]
  unfold State.serveClaims
  rw [State.serveRounds, hint, hfind]
  dsimp only
  rw [hone]
  exact hq.serveRounds 11

theorem State.grantInternal_eq (ho : u.op d = some o)
    (hw : ∀ f, o.work = .writeHome f → (u.pos d).writeProtect = false) : u.grantInternal n d =
      (u.setPath n (some { drive := d, port := none })).setOp d (some { o with orient := none, miss := 0, marksSince := 0 }) := by
  unfold State.grantInternal
  rw [State.modOp_some _ d _ (o := o) (by simpa using ho)]
  dsimp only
  split
  next f hf =>
    have hof : o.work = .writeHome f := by simpa [Operation.arm] using hf
    simp [hw f hof, Operation.arm]
  all_goals rfl

/-- The path granted becomes FREE again where the write is not made: the drive holds no other (R64). -/
theorem State.freeInternalPath_granted {c : Contender} {x : Option Operation} (hd : u.decision = some (n, c)) :
    ((u.setPath n (some { drive := c.drive, port := none })).setOp c.drive x).freeInternalPath c.drive = u.setOp c.drive x := by
  have hfree : u.path n = none := (State.freePath_lowest (State.decision_eq_some.mp hd).1).1
  have hpaths : ((u.paths.set n (some { drive := c.drive, port := none } : Option PathHold)).map fun h => h.bind fun x =>
      if x.drive = c.drive ∧ x.port = none then none else some x) = u.paths := by
    ext m hm h
    rw [Vector.getElem_map, Vector.getElem_set]
    split
    next hnm =>
      subst hnm
      simp [show u.paths[n.val] = none from hfree]
    next =>
      have hno := (State.decision_free hd).1 ⟨m, hm⟩
      cases hx : u.paths[m] with
      | none => rfl
      | some y =>
        have hy : u.path ⟨m, hm⟩ = some y := hx
        have : ¬ (y.drive = c.drive ∧ y.port = none) := by
          rintro ⟨h1, h2⟩
          rw [(State.usesPath_iff u c.drive ⟨m, hm⟩).mpr ⟨y, hy, h1, by simp [h2]⟩] at hno
          cases hno
        simp [this]
  rw [State.freeInternalPath_eq]
  exact congrArg (fun x' => { u.setOp c.drive x with paths := x' }) hpaths

theorem State.grantInternal_protected {c : Contender} {f : HomeField} (hd : u.decision = some (n, c))
    (ho : u.op c.drive = some o) (hw : o.work = .writeHome f) (hp : (u.pos c.drive).writeProtect = true) :
    u.grantInternal n c.drive =
      (u.setOp c.drive (some { o with orient := none, miss := 0, marksSince := 0 })).altWritten c.drive false := by
  unfold State.grantInternal
  rw [State.modOp_some _ c.drive _ (o := o) (by simpa using ho)]
  simp [Operation.arm, hw, hp, State.freeInternalPath_granted hd]

/-! ## Which claims stand -/

theorem State.mem_claims_reconnect : .reconnect n d ∈ u.claims p ↔
    ∃ c, u.decision = some (n, c) ∧ c.drive = d ∧ c.port = some p := by
  unfold State.claims State.grantClaim
  cases hd : u.decision with
  | none => simp
  | some x =>
    obtain ⟨m, c⟩ := x
    by_cases hc : c.port = some p
    · simp [hc]
      grind
    · simp [hc]

theorem State.mem_claims_notice {x : Notice} : .notice x ∈ u.claims p ↔
    (u.port p).state = .idle ∧ (u.queue p).held = false ∧ (u.queue p).notices.head? = some x := by
  have hgrant : Claim.notice x ∉ u.grantClaim p := by
    unfold State.grantClaim
    split
    next => split <;> simp
    next => simp
  unfold State.claims
  simp only [List.mem_append, hgrant, List.mem_map, reduceCtorEq, and_false, exists_false, false_or, Claim.notice.injEq,
    exists_eq_right, Option.mem_toList, State.noticeClaim]
  split
  next h => simp [h]
  next h => simp; tauto

theorem State.mem_claims_status : .status d ∈ u.claims p ↔ u.statusPort d = some p := by
  have hgrant : Claim.status d ∉ u.grantClaim p := by
    unfold State.grantClaim
    split
    next => split <;> simp
    next => simp
  unfold State.claims
  simp [hgrant, mem_allDrives]

theorem State.statusOffered_eq_false : u.statusOffered d = false ↔ ∀ q b, (u.port q).offer ≠ some (.status d, b) := by
  unfold State.statusOffered
  rw [List.any_eq_false]
  constructor
  · intro h q b hq
    have := h q (mem_allPorts q)
    simp [hq] at this
  · intro h q _
    have hq := h q
    rcases hoff : (u.port q).offer with _ | ⟨_ | e | _, b⟩
    · simp
    · simp
    · rw [hoff] at hq
      have : e ≠ d := fun hed => hq b (by rw [hed])
      simp [this]
    · simp

/-- The issuing port when it meets the test, else the first in letter order that does (R67, R103). -/
theorem issuerFirst_eq_some {issuer p : Port} {ok : Port → Bool} : issuerFirst issuer ok = some p ↔
    ok p = true ∧ (p ≠ issuer → ok issuer = false ∧ ∀ q, q < p → ok q = false) := by
  refine ⟨fun h => ⟨issuerFirst_ok h, issuerFirst_first h⟩, fun ⟨hp, hfirst⟩ => ?_⟩
  unfold issuerFirst
  by_cases hpi : p = issuer
  · rw [← hpi, if_pos hp]
  · obtain ⟨hi, hlow⟩ := hfirst hpi
    rw [if_neg (by simp [hi]), allPorts_find?, Fin.find?_eq_some_iff]
    exact ⟨hp, hlow⟩

theorem Operation.statusReaches_iff {group : Nat} : o.statusReaches p group = true ↔
    (o.issuer = p ∧ ∀ a, o.alt = some a → a.issuerHeld = true) ∨ (group ≠ 0 ∧ group = o.group) := by
  unfold Operation.statusReaches Operation.reaches
  cases o.alt with
  | none => simp
  | some a => cases ha : a.issuerHeld <;> simp [ha]

/-- Port q is IDLE, has not deferred the pending status of o, and may take it (R103, R130). -/
def State.mayTakeStatus (u : State) (o : Operation) (q : Port) : Bool :=
  decide ((u.port q).state = .idle) && !o.statusDeferred.has q && o.statusReaches q (u.port q).group

theorem State.mayTakeStatus_iff {q : Port} : u.mayTakeStatus o q = true ↔
    (u.port q).state = .idle ∧ o.statusDeferred[q] = false ∧
      ((o.issuer = q ∧ (∀ a, o.alt = some a → a.issuerHeld = true)) ∨ ((u.port q).group ≠ 0 ∧ (u.port q).group = o.group)) := by
  simp [State.mayTakeStatus, Operation.statusReaches_iff, PortSet.has, and_assoc]

theorem State.statusPort_eq_some : u.statusPort d = some p ↔ ∃ o, u.op d = some o ∧ o.pending.isSome = true ∧
    u.statusOffered d = false ∧ issuerFirst o.issuer (u.mayTakeStatus o) = some p := by
  unfold State.statusPort
  cases u.op d with
  | none => simp
  | some o =>
    dsimp only
    split
    next h =>
      simp [h]
      rfl
    next h => simp; tauto

end Claims

/-- Settles O25: one round takes the claim that stands, and a state without claims ends the rounds. -/
theorem claimsTakenOnlyWhereTheyStand : Obligations.ClaimsTakenOnlyWhereTheyStand := by
  unfold Obligations.ClaimsTakenOnlyWhereTheyStand
  refine ⟨fun u => State.Quiet.serveClaims, fun u => ?_, fun u n c o hd hc ho hw => ?_,
    fun u n c o f hd hc ho hw hp => ?_, fun u p n d o x hp hne ho hx => ?_,
    fun u p d o hd hp hne ho => ?_, fun u p x hd hp hne => ?_, fun u p => ⟨fun n d => State.mem_claims_reconnect,
      fun x => State.mem_claims_notice, fun d => ?_⟩⟩
  · have hk := State.serveClaims_kept u.frame_kept
    refine ⟨hk.pending, hk.now, hk.types, fun p => ?_, fun d => ⟨hk.angle d, hk.protect d, ?_⟩⟩
    · obtain ⟨hm1, hm2⟩ := Prod.mk.inj (hk.mask p)
      exact ⟨hk.straps p, hk.group p, hm1, hm2⟩
    · exact congrArg (·[d]) (State.serveRounds_records u 12)
  · exact State.serveClaims_internal hd hc (State.grantInternal_eq ho hw)
  · exact State.serveClaims_internal hd hc (State.grantInternal_protected hd ho hw hp)
  · obtain ⟨c, hdec, -, hport⟩ := State.mem_claims_reconnect.mp (hp ▸ List.mem_singleton_self _)
    refine State.serveClaims_one (by simp [State.internalDecision, hdec, hport]) hp hne ?_
    simp only [State.takeClaim, State.grantExternal]
    rw [State.modOp_some _ d _ (o := o) (by simpa using ho), hx]
    rfl
  · refine State.serveClaims_one (State.internalDecision_none hd) hp hne ?_
    simp only [State.takeClaim, State.statusConn, ho]
    rfl
  · exact State.serveClaims_one (State.internalDecision_none hd) hp hne (by cases x <;> rfl)
  · rw [State.mem_claims_status, State.statusPort_eq_some]
    simp only [State.statusOffered_eq_false, issuerFirst_eq_some]
    simp only [← Bool.not_eq_true, State.mayTakeStatus_iff]

end Sys2Proof.Machine
end

section
/-! SUPPORT. Inbound frames written and read back (8.3, 8.10): numbers, tracks and lists of a layout, a command with its code and
parameters, and the envelope. -/

namespace Sys2Proof.Machine

open Sys2Proof

/-! ## The pieces of a layout -/

-- The proofs before this one end before those after it begin: they have to compile within the check's memory.
set_option Elab.async false in
theorem isByte_iff {n : Nat} : isByte n = true ↔ n < 256 := by simp [isByte]

theorem isWord_iff {n : Nat} : isWord n = true ↔ n < 65536 := by simp [isWord]

theorem byte_toNat {n : Nat} (h : isByte n = true) : (byte n).toNat = n := by
  rw [isByte_iff] at h
  simp [byte, Nat.mod_eq_of_lt h]

theorem nat2_be2 {n : Nat} (h : isWord n = true) : nat2 (byte (n / 256)) (byte n) = n := by
  rw [isWord_iff] at h
  simp only [nat2, byte, BitVec.toNat_ofNat]
  omega

theorem trackOf_bytes {t : Track} (h : t.inFrame = true) : trackOf (byte (t.cyl / 256)) (byte t.cyl) (byte t.head) = t := by
  obtain ⟨hc, hh⟩ := Bool.and_eq_true_iff.mp h
  simp [trackOf, nat2_be2 hc, byte_toNat hh]

/-- The four bytes of a descriptor. -/
def Descriptor.bytes (x : Descriptor) : List Byte := [byte x.number, byte x.keyLength] ++ be2 x.dataLength

/-- The seven bytes of a spare item. -/
def SpareItem.bytes (e : SpareItem) : List Byte := [byte e.drive] ++ e.home.bytes ++ e.alternate.bytes

theorem decodeDescriptors_flatMap {ds : List Descriptor}
    (h : ∀ x ∈ ds, isByte x.number = true ∧ isByte x.keyLength = true ∧ isWord x.dataLength = true) :
    decodeDescriptors (ds.flatMap Descriptor.bytes) = ds := by
  induction ds with
  | nil => rfl
  | cons x ds ih =>
    obtain ⟨hn, hk, hd⟩ := h x (by simp)
    have hrest := ih fun y hy => h y (by simp [hy])
    rw [List.flatMap_cons, Descriptor.bytes]
    simp [be2, decodeDescriptors, byte_toNat hn, byte_toNat hk, nat2_be2 hd, hrest]

theorem decodeSpareItems_flatMap {es : List SpareItem}
    (h : ∀ e ∈ es, isByte e.drive = true ∧ e.home.inFrame = true ∧ e.alternate.inFrame = true) :
    decodeSpareItems (es.flatMap SpareItem.bytes) = es := by
  induction es with
  | nil => rfl
  | cons e es ih =>
    obtain ⟨hd, hh, ha⟩ := h e (by simp)
    have hrest := ih fun y hy => h y (by simp [hy])
    rw [List.flatMap_cons, SpareItem.bytes]
    simp [Track.bytes, be2, decodeSpareItems, byte_toNat hd, trackOf_bytes hh, trackOf_bytes ha, hrest]

theorem length_flatMap_const {α : Type} (f : α → List Byte) (n : Nat) (hf : ∀ x, (f x).length = n) (l : List α) :
    (l.flatMap f).length = n * l.length := by
  induction l with
  | nil => rfl
  | cons x l ih => rw [List.flatMap_cons, List.length_append, hf, ih, List.length_cons, Nat.mul_succ, Nat.add_comm]

theorem decodeDriveType_bytes {t : DriveType} (h : t.inFrame = true) : decodeDriveType t.bytes = some t := by
  simp only [DriveType.inFrame, Bool.and_eq_true, and_assoc] at h
  obtain ⟨h1, h2, h3, h4, h5, h6, h7, h8, h9, h10, h11, h12, h13⟩ := h
  simp [DriveType.bytes, be2, decodeDriveType, nat2_be2, byte_toNat, h1, h2, h3, h4, h5, h6, h7, h8, h9, h10, h11, h12, h13]

/-! ## A command or order with its code and parameters -/

/-- The command is read back from its code and parameters, which fit a frame. -/
def readsBack (c : Instr) (h : Hdr) (code : Nat) (ps : List Byte) : Prop :=
  decodeCommand h code ps = c ∧ isByte h.address = true ∧ isByte code = true ∧ ps.length ≤ 259

theorem readsBack_of_known {c : Instr} {h : Hdr} {code : Nat} {ps : List Byte} (ha : isByte h.address = true)
    (hc : isByte code = true) (hl : ps.length ≤ 259) (hf : paramsFit code ps = true) (hk : decodeKnown h code ps = some c) :
    readsBack c h code ps := by
  refine ⟨?_, ha, hc, hl⟩
  rw [decodeCommand, if_pos hf, hk]
  rfl

theorem encodeCommand_readsBack {c : Instr} {h : Hdr} {code : Nat} {ps : List Byte} (hw : c.wellFormed = true)
    (e : encodeCommand c = some (h, code, ps)) : readsBack c h code ps := by
  cases c with
  | unknownCommandCode g n qs =>
    cases e
    simp only [Instr.wellFormed, Bool.and_eq_true, decide_eq_true_eq, Bool.not_eq_true'] at hw
    obtain ⟨⟨⟨ha, hc⟩, hl⟩, hf⟩ := hw
    exact ⟨by simp [decodeCommand, hf], ha, hc, hl⟩
  | locate g t r o =>
    cases e
    simp only [Instr.wellFormed, Bool.and_eq_true] at hw
    obtain ⟨⟨⟨ha, ht⟩, hr⟩, ho⟩ := hw
    exact readsBack_of_known ha rfl (by simp [Track.bytes, be2]) (by simp [paramsFit, Track.bytes, be2])
      (by simp [decodeKnown, Track.bytes, be2, trackOf_bytes ht, byte_toNat hr, byte_toNat ho])
  | search g n a =>
    cases e
    simp only [Instr.wellFormed, Bool.and_eq_true, decide_eq_true_eq] at hw
    obtain ⟨⟨ha, hn⟩, hl⟩ := hw
    exact readsBack_of_known ha rfl (by simp; omega) (by simp [paramsFit]; omega)
      (by simp [decodeKnown, byte_toNat hn])
  | read g n sp =>
    cases e
    simp only [Instr.wellFormed, Bool.and_eq_true] at hw
    obtain ⟨⟨ha, hn⟩, hs⟩ := hw
    exact readsBack_of_known ha rfl (by simp [be2]) (by simp [paramsFit, be2])
      (by simp [decodeKnown, be2, nat2_be2 hn, byte_toNat hs])
  | write g n =>
    cases e
    simp only [Instr.wellFormed, Bool.and_eq_true] at hw
    obtain ⟨ha, hn⟩ := hw
    exact readsBack_of_known ha rfl (by simp [be2]) (by simp [paramsFit, be2]) (by simp [decodeKnown, be2, nat2_be2 hn])
  | formatTrack g ds =>
    have e : some (g, 0x14, ds.flatMap Descriptor.bytes) = some (h, code, ps) := e
    cases e
    simp only [Instr.wellFormed, Bool.and_eq_true, decide_eq_true_eq, List.all_eq_true, and_assoc] at hw
    obtain ⟨ha, h1, h2, hds⟩ := hw
    have hlen : (ds.flatMap Descriptor.bytes).length = 4 * ds.length := length_flatMap_const _ 4 (fun _ => rfl) ds
    exact readsBack_of_known ha rfl (by omega) (by simp only [paramsFit, hlen, decide_eq_true_eq]; omega)
      (congrArg (fun x => some (Instr.formatTrack h x)) (decodeDescriptors_flatMap hds))
  | loadSpareEntries g es =>
    have e : some (g, 0x43, byte es.length :: es.flatMap SpareItem.bytes) = some (h, code, ps) := e
    cases e
    simp only [Instr.wellFormed, Bool.and_eq_true, decide_eq_true_eq, List.all_eq_true, and_assoc] at hw
    obtain ⟨ha, hl, hes⟩ := hw
    have hlen : (es.flatMap SpareItem.bytes).length = 7 * es.length := length_flatMap_const _ 7 (fun _ => rfl) es
    have hcount : (byte es.length).toNat = es.length := byte_toNat (isByte_iff.mpr (by omega))
    exact readsBack_of_known ha rfl (by simp only [List.length_cons, hlen]; omega)
      (by simp only [paramsFit, List.length_cons, hlen, hcount, beq_self_eq_true, Bool.true_and, decide_eq_true_eq]; omega)
      (congrArg (fun x => some (Instr.loadSpareEntries h x)) (decodeSpareItems_flatMap hes))
  | loadDriveType g n t =>
    cases e
    simp only [Instr.wellFormed, Bool.and_eq_true] at hw
    obtain ⟨⟨ha, hn⟩, ht⟩ := hw
    exact readsBack_of_known ha rfl (by simp [DriveType.bytes, be2]) (by simp [paramsFit, DriveType.bytes, be2])
      (by simp [decodeKnown, decodeDriveType_bytes ht, byte_toNat hn])
  | loadDriveRecord g d n ty w cur =>
    cases e
    simp only [Instr.wellFormed, Bool.and_eq_true] at hw
    obtain ⟨⟨⟨⟨⟨ha, hd⟩, hn⟩, hty⟩, hwp⟩, hcur⟩ := hw
    exact readsBack_of_known ha rfl (by simp [be2]) (by simp [paramsFit, be2])
      (by simp [decodeKnown, be2, nat2_be2 hcur, byte_toNat hd, byte_toNat hn, byte_toNat hty, byte_toNat hwp])
  | deleteSpareEntry g d t =>
    cases e
    simp only [Instr.wellFormed, Bool.and_eq_true] at hw
    obtain ⟨⟨ha, hd⟩, ht⟩ := hw
    exact readsBack_of_known ha rfl (by simp [Track.bytes, be2]) (by simp [paramsFit, Track.bytes, be2])
      (by simp [decodeKnown, Track.bytes, be2, trackOf_bytes ht, byte_toNat hd])
  | assignAlternate g d t =>
    cases e
    simp only [Instr.wellFormed, Bool.and_eq_true] at hw
    obtain ⟨⟨ha, hd⟩, ht⟩ := hw
    exact readsBack_of_known ha rfl (by simp [Track.bytes, be2]) (by simp [paramsFit, Track.bytes, be2])
      (by simp [decodeKnown, Track.bytes, be2, trackOf_bytes ht, byte_toNat hd])
  | restoreTrack g d t =>
    cases e
    simp only [Instr.wellFormed, Bool.and_eq_true] at hw
    obtain ⟨⟨ha, hd⟩, ht⟩ := hw
    exact readsBack_of_known ha rfl (by simp [Track.bytes, be2]) (by simp [paramsFit, Track.bytes, be2])
      (by simp [decodeKnown, Track.bytes, be2, trackOf_bytes ht, byte_toNat hd])
  | readSpareMap g n =>
    cases e
    obtain ⟨ha, hn⟩ := Bool.and_eq_true_iff.mp hw
    exact readsBack_of_known ha rfl (by simp) rfl (by simp [decodeKnown, byte_toNat hn])
  | setPathGroup g n =>
    cases e
    obtain ⟨ha, hn⟩ := Bool.and_eq_true_iff.mp hw
    exact readsBack_of_known ha rfl (by simp) rfl (by simp [decodeKnown, byte_toNat hn])
  | setNoticeMask g a b =>
    cases e
    simp only [Instr.wellFormed, Bool.and_eq_true] at hw
    obtain ⟨⟨hadr, ha⟩, hb⟩ := hw
    exact readsBack_of_known hadr rfl (by simp) rfl (by simp [decodeKnown, byte_toNat ha, byte_toNat hb])
  | recalibrate | readDriveState | readFaultRecord | reserve | reserveUnconditional | release | readDriveTables
  | readSuspectList | readUnitState | unitClear =>
    cases e
    exact readsBack_of_known hw rfl (Nat.zero_le _) rfl rfl
  | _ => cases e

/-! ## The envelope (R144) -/

/-- What a frame of a kind with this body spells. -/
def frameOfKind (p : Port) (address : Nat) (body : List Byte) : Nat → Option Instr
  | 0x01 => body.head?.map fun code => decodeCommand { port := p, via := .select, address := address } code.toNat body.tail
  | 0x02 => body.head?.map fun code => decodeCommand { port := p, via := .command, address := address } code.toNat body.tail
  | 0x03 =>
    match body with
    | o1 :: o2 :: c1 :: c2 :: bs => some (.data p address (nat2 o1 o2) (nat2 c1 c2) bs)
    | _ => none
  | 0x04 => some (.close p address)
  | 0x05 => some (.halt p address)
  | 0x06 => some (.portReset p)
  | 0x07 => some (.take p address)
  | 0x08 => some (.defer p address)
  | _ => none

theorem decodeFrame_envelope (p : Port) {kind address : Nat} {body : List Byte} (hk : isByte kind = true)
    (ha : isByte address = true) (hl : body.length ≤ 260) :
    decodeFrame p (envelope kind address body) = frameOfKind p address body kind := by
  have hlen : nat2 (byte (body.length / 256)) (byte body.length) = body.length := nat2_be2 (isWord_iff.mpr (by omega))
  have hno : ¬ ((body.length > 260 || body.length < body.length) = true) := by simp [hl]
  unfold decodeFrame envelope be2
  simp only [List.cons_append, List.nil_append, hlen, byte_toNat ha, byte_toNat hk, List.take_length, if_neg hno]
  match kind with
  | 0 => rfl
  | 1 => cases body <;> rfl
  | 2 => cases body <;> rfl
  | 3 | 4 | 5 | 6 | 7 | 8 => rfl
  | _ + 9 => rfl

/-- A SELECT or COMMAND is read back where its command is. -/
theorem decodeFrame_command {c : Instr} {h : Hdr} {code : Nat} {ps : List Byte} (hr : readsBack c h code ps) :
    decodeFrame h.port (envelope (match h.via with | .select => 0x01 | .command => 0x02) h.address (byte code :: ps)) = some c := by
  obtain ⟨hdec, ha, hc, hl⟩ := hr
  obtain ⟨p, via, address⟩ := h
  rw [← byte_toNat hc] at hdec
  have hbody : (byte code :: ps).length ≤ 260 := Nat.succ_le_succ hl
  cases via with
  | select => exact (decodeFrame_envelope p rfl ha hbody).trans (congrArg some hdec)
  | command => exact (decodeFrame_envelope p rfl ha hbody).trans (congrArg some hdec)

/-- Settles O10: a command's bytes read back with its operands, and the envelope around them. -/
theorem framesRoundTrip : Obligations.FramesRoundTrip := by
  unfold Obligations.FramesRoundTrip
  intro c p bytes hw e
  unfold encodeFrame at e
  split at e
  next h code ps hcmd =>
    cases e
    exact decodeFrame_command (encodeCommand_readsBack hw hcmd)
  next =>
    cases c with
    | data q a o n bs =>
      cases e
      simp only [Instr.wellFormed, Bool.and_eq_true, decide_eq_true_eq] at hw
      obtain ⟨⟨⟨ha, ho⟩, hn⟩, hl⟩ := hw
      rw [decodeFrame_envelope p rfl ha (by simp [be2]; omega)]
      exact congrArg some (congrArg₂ (Instr.data p a · · bs) (nat2_be2 ho) (nat2_be2 hn))
    | close q a => cases e; exact decodeFrame_envelope p rfl hw (Nat.zero_le _)
    | halt q a => cases e; exact decodeFrame_envelope p rfl hw (Nat.zero_le _)
    | portReset q => cases e; exact decodeFrame_envelope p rfl rfl (Nat.zero_le _)
    | take q a => cases e; exact decodeFrame_envelope p rfl hw (Nat.zero_le _)
    | defer q a => cases e; exact decodeFrame_envelope p rfl hw (Nat.zero_le _)
    | _ => cases e

end Sys2Proof.Machine
end

section
/-! SUPPORT. Where a drive command is taken, and RESERVE UNCONDITIONAL (9.4): its five effects in their order (R165). -/

namespace Sys2Proof.Machine

open Sys2Proof

/-! ## Where a drive command is taken (R78, R160) -/

section Taken
variable {s u r : State} {h : Hdr} {d : Drive} {p : Port}

-- The proofs before this one end before those after it begin: they have to compile within the check's memory.
set_option Elab.async false in
/-- A command of chapter 9 that reaches a drive is taken there. -/
theorem State.sharingCommand_reaches (hr : u.Reaches h d r) (hold : Bool) (take : State → Drive → State) :
    u.sharingCommand h hold take = take r d := by
  unfold State.sharingCommand State.driveCommand
  rcases hr with ho | ⟨hs, hop, hans, haw, rfl⟩
  · rw [ho]
  · rw [hs]
    simp [hop, hans, haw]

/-- Steps 1 and 2 of admission are passed by a configured drive that is ready. -/
theorem State.admission_ready (hc : (r.record d).configured = true) (ha : (r.pos d).actuator ≠ .notReady) :
    r.admission d p .ready = .admitted := by
  simp [State.admission, hc, ha]

theorem State.passAdmission_admitted {st : Steps} (ha : r.admission d p st = .admitted) (k : State → State) :
    r.passAdmission d p st k = k r := by
  simp [State.passAdmission, ha]

end Taken

/-! ## The blocks that RESERVE UNCONDITIONAL's effects leave alone -/

section Keeps
variable {s : State} {d e : Drive} {p q : Port}

theorem State.post_link {n : Notice} : ((s.post p n).port q).link = (s.port q).link := by
  obtain ⟨b, hb⟩ := State.post_port (s := s) (p := p) (q := q) (n := n)
  rw [hb]

/-- The test of an owed set leaves every link alone. -/
theorem State.owedTest_link (s : State) (d : Drive) (q : Port) : ((s.owedTest d).port q).link = (s.port q).link := by
  rw [State.owedTest_eq]
  refine foldl_keeps (fun s : State => (s.port q).link) _ (fun s p => ?_) _ s
  unfold State.testOwed
  split
  next => split <;> simp [State.post_link]
  next => rfl

theorem State.freeAllOwed_eq (s : State) (d : Drive) (x : Option Port) : s.freeAllOwed d x =
    (s.forPorts (postsWhere d (.deviceFree d) fun _ y q => (y.owes q).isSome && decide (x ≠ some q))).modShare d
      fun y => { y with owed := Vector.replicate 4 none } := by
  unfold State.freeAllOwed postsWhere
  simp

theorem State.postBroken_none (s : State) (d : Drive) (g : Nat) : s.postBroken d none g = s := rfl

theorem State.postBroken_same (s : State) (d : Drive) (g : Nat) : s.postBroken d (some g) g = s := by
  simp [State.postBroken]

theorem State.postBroken_other (s : State) (d : Drive) {k g : Nat} (h : k ≠ g) : s.postBroken d (some k) g =
    s.forPorts (postsWhere d (.reserveBroken d) fun r _ _ =>
      decide (r.group = k ∧ r.state ≠ .disabled ∧ r.state ≠ .resetting)) := by
  unfold State.postBroken postsWhere
  simp [h]

theorem State.postBroken_shape (s : State) (d : Drive) (previous : Option Nat) (g : Nat) :
    ∃ a b, s.postBroken d previous g = { s with ports := a, queues := b } := by
  cases previous with
  | none => exact ⟨_, _, rfl⟩
  | some k =>
    by_cases h : k = g
    · subst h
      exact ⟨_, _, State.postBroken_same s d k⟩
    · rw [State.postBroken_other s d h]
      exact State.postAll_shape s

/-- Posting leaves of a port all but the overflow flag. -/
theorem State.postBroken_port (s : State) (d : Drive) (previous : Option Nat) (g : Nat) (q : Port) :
    ∃ b, (s.postBroken d previous g).port q = { s.port q with overflow := b } := by
  cases previous with
  | none => exact ⟨_, rfl⟩
  | some k =>
    by_cases h : k = g
    · subst h
      rw [State.postBroken_same]
      exact ⟨_, rfl⟩
    · rw [State.postBroken_other s d h]
      exact State.postAll_port s q

theorem State.breakHold_shape (s : State) (d : Drive) (p : Port) :
    ∃ x, s.breakHold d p = s.setShare d { s.share d with hold := x } := by
  unfold State.breakHold
  split
  next x hx =>
    split
    next => exact ⟨_, rfl⟩
    next => exact ⟨some x, (State.setShare_self s d (by rw [← hx])).symm⟩
  next hx => exact ⟨none, (State.setShare_self s d (by rw [← hx])).symm⟩

/-- Step 2 of R165 drops a hold of the port or of a port of another group, and no other. -/
theorem State.breakHold_some {x : Hold} (hx : (s.share d).hold = some x) : ((s.breakHold d p).share d).hold =
    if x.port = p ∨ (s.port x.port).group ≠ (s.port p).group then none else some x := by
  unfold State.breakHold
  rw [hx]
  dsimp only
  split
  next => simp [State.dropHold]
  next => exact hx

theorem State.breakHold_none (hx : (s.share d).hold = none) : ((s.breakHold d p).share d).hold = none := by
  unfold State.breakHold
  rw [hx]
  exact hx

end Keeps

/-! ## The five effects of RESERVE UNCONDITIONAL (R165) -/

section Broken
variable {s b : State} {d e : Drive} {p q : Port}

/-- The state in which step 1 of R165 is taken: the owed set is kept aside. -/
def State.owedAside (s : State) (d : Drive) : State := s.modShare d fun x => { x with owed := Vector.replicate 4 none }

/-- The effects that follow step 1, which has made b of the state: the hold, the owner, the notices and the owed set. -/
def State.brokenFrom (s : State) (d : Drive) (p : Port) (b : State) : State :=
  let g := (s.port p).group
  let t := ((b.breakHold d p).setOwner d (some g)).postBroken d (s.share d).owner g
  (t.modShare d fun x => { x with owed := (s.share d).owed }).freeAllOwed d (some p)

theorem State.breakReservation_eq (s : State) (d : Drive) (p : Port) : s.breakReservation d p =
    let t := s.brokenFrom d p ((s.owedAside d).breakOperation d)
    if (t.op d).isSome then t.modPort p fun r => { r with awaiting := true } else t.reply p d (.doneWith 0) := rfl

/-- All blocks but the ports, the queues and the drive's sharing record are as step 1 leaves them. -/
theorem State.brokenFrom_shape (s : State) (d : Drive) (p : Port) (b : State) : ∃ a c, s.brokenFrom d p b =
    { b.setShare d { owner := some (s.port p).group, hold := ((b.breakHold d p).share d).hold, owed := Vector.replicate 4 none }
      with ports := a, queues := c } := by
  obtain ⟨y, hy⟩ := b.breakHold_shape d p
  unfold State.brokenFrom
  dsimp only
  obtain ⟨a, c, ht⟩ := State.postBroken_shape ((b.breakHold d p).setOwner d (some (s.port p).group)) d (s.share d).owner
    (s.port p).group
  rw [State.freeAllOwed_eq, ht]
  obtain ⟨a', c', hf⟩ := State.postAll_shape (d := d) (n := .deviceFree d)
    (named := fun _ y q => (y.owes q).isSome && decide (some p ≠ some q))
    (State.modShare { (b.breakHold d p).setOwner d (some (s.port p).group) with ports := a, queues := c } d
      fun x => { x with owed := (s.share d).owed })
  rw [hf, hy]
  exact ⟨a', c', by simp [State.setOwner, State.modShare, State.setShare, State.share]⟩

/-- Of a port they leave all but the overflow flag. -/
theorem State.brokenFrom_port (s : State) (d : Drive) (p : Port) (b : State) (q : Port) :
    ∃ o, (s.brokenFrom d p b).port q = { b.port q with overflow := o } := by
  obtain ⟨y, hy⟩ := b.breakHold_shape d p
  have hb : ((b.breakHold d p).setOwner d (some (s.port p).group)).port q = b.port q := by rw [hy]; rfl
  obtain ⟨o, ho⟩ := State.postBroken_port ((b.breakHold d p).setOwner d (some (s.port p).group)) d (s.share d).owner
    (s.port p).group q
  unfold State.brokenFrom
  dsimp only
  rw [State.freeAllOwed_eq]
  obtain ⟨o', ho'⟩ := State.postAll_port (d := d) (n := .deviceFree d)
    (named := fun _ y q => (y.owes q).isSome && decide (some p ≠ some q))
    (State.modShare (((b.breakHold d p).setOwner d (some (s.port p).group)).postBroken d (s.share d).owner (s.port p).group) d
      fun x => { x with owed := (s.share d).owed }) q
  exact ⟨o', by rw [State.modShare_port, ho', State.modShare_port, ho, hb]⟩

theorem State.brokenFrom_op (s : State) (d : Drive) (p : Port) (b : State) (e : Drive) : (s.brokenFrom d p b).op e = b.op e := by
  obtain ⟨a, c, h⟩ := s.brokenFrom_shape d p b
  rw [h]
  rfl

theorem State.brokenFrom_share (s : State) (d : Drive) (p : Port) (b : State) : (s.brokenFrom d p b).share d =
    { owner := some (s.port p).group, hold := ((b.breakHold d p).share d).hold, owed := Vector.replicate 4 none } := by
  obtain ⟨a, c, h⟩ := s.brokenFrom_shape d p b
  rw [h]
  exact State.setShare_share_same _ _ _

theorem State.brokenFrom_share_ne (s : State) (p : Port) (b : State) (h : e ≠ d) :
    (s.brokenFrom d p b).share e = b.share e := by
  obtain ⟨a, c, hs⟩ := s.brokenFrom_shape d p b
  rw [hs]
  exact State.setShare_share_ne _ _ _ _ h.symm

/-- A hold that stands after step 2 stood after step 1. -/
theorem State.brokenFrom_hold {x : Hold} (h : ((s.brokenFrom d p b).share d).hold = some x) : (b.share d).hold = some x := by
  rw [State.brokenFrom_share] at h
  cases hb : (b.share d).hold with
  | none => rw [State.breakHold_none hb] at h; cases h
  | some y =>
    rw [State.breakHold_some hb] at h
    split at h
    next => cases h
    next => exact h

/-- RESERVE UNCONDITIONAL, once step 1 leaves no operation. -/
theorem State.breakReservation_done (h : ((s.owedAside d).breakOperation d).op d = none) : s.breakReservation d p =
    (s.brokenFrom d p ((s.owedAside d).breakOperation d)).reply p d (.doneWith 0) := by
  rw [State.breakReservation_eq]
  dsimp only
  rw [State.brokenFrom_op, h]
  rfl

/-- RESERVE UNCONDITIONAL, where step 1 leaves an operation whose end is awaited. -/
theorem State.breakReservation_waits (h : (((s.owedAside d).breakOperation d).op d).isSome = true) : s.breakReservation d p =
    (s.brokenFrom d p ((s.owedAside d).breakOperation d)).modPort p fun r => { r with awaiting := true } := by
  rw [State.breakReservation_eq]
  dsimp only
  rw [State.brokenFrom_op, if_pos h]

/-! ## The notices of R165 -/

/-- RESERVE-BROKEN enters the queues of the ports of another previous owner, as if each were posted to alone. -/
theorem State.postBroken_queue {k g : Nat} (h : k ≠ g) : (s.postBroken d (some k) g).queue q =
    if (s.port q).group = k ∧ (s.port q).state ≠ .disabled ∧ (s.port q).state ≠ .resetting
    then (s.post q (.reserveBroken d)).queue q else s.queue q := by
  rw [State.postBroken_other s d h, State.postAll_queue]
  exact if_congr decide_eq_true_iff rfl rfl

/-- DEVICE-FREE enters the queues of the ports owed. -/
theorem State.freeAllOwed_queue {x : Option Port} : (s.freeAllOwed d x).queue q =
    if ((s.share d).owes q).isSome = true ∧ x ≠ some q then (s.post q (.deviceFree d)).queue q else s.queue q := by
  rw [State.freeAllOwed_eq, State.modShare_queue, State.postAll_queue]
  exact if_congr (by simp) rfl rfl

/-- The state between step 1 and the notices: the owner set, the hold dropped where it is. -/
def State.ownerSet (s : State) (d : Drive) (p : Port) (b : State) : State := (b.breakHold d p).setOwner d (some (s.port p).group)

theorem State.ownerSet_ports (s : State) (d : Drive) (p : Port) (b : State) : (s.ownerSet d p b).ports = b.ports ∧
    (s.ownerSet d p b).queues = b.queues := by
  obtain ⟨y, hy⟩ := b.breakHold_shape d p
  simp [State.ownerSet, hy, State.setOwner]

/-- A post to one port reads that port and its queue alone. -/
theorem State.post_queue_congr {t : State} (hp : t.ports = s.ports) (hq : t.queues = s.queues) (n : Notice) :
    (t.post q n).queue q = (s.post q n).queue q := by
  rw [State.post_queue, State.post_queue]
  simp only [State.queue, State.port, hp, hq]

theorem State.brokenFrom_notices (s : State) (d : Drive) (p : Port) (b : State) : s.brokenFrom d p b =
    (((s.ownerSet d p b).postBroken d (s.share d).owner (s.port p).group).modShare d
      fun x => { x with owed := (s.share d).owed }).freeAllOwed d (some p) := rfl

/-- A port owed gets DEVICE-FREE alone where no owner is broken. -/
theorem State.brokenFrom_queue_owed (hp : b.ports = s.ports) (hq : b.queues = s.queues) (ho : (s.share d).owner = none)
    (hw : ((s.share d).owes q).isSome = true) (hqp : q ≠ p) :
    (s.brokenFrom d p b).queue q = (s.post q (.deviceFree d)).queue q := by
  obtain ⟨h1, h2⟩ := s.ownerSet_ports d p b
  have howes : (((s.ownerSet d p b).modShare d fun x => { x with owed := (s.share d).owed }).share d).owes q
      = (s.share d).owes q := by
    rw [State.modShare_share_same]
    rfl
  rw [State.brokenFrom_notices, ho, State.postBroken_none, State.freeAllOwed_queue, howes, if_pos ⟨hw, by simpa using hqp.symm⟩]
  refine State.post_queue_congr ?_ ?_ _
  · exact (State.modShare_ports ..).trans (h1.trans hp)
  · exact (State.modShare_queues ..).trans (h2.trans hq)

/-- A port that is not owed, or that gives the command, has what the breaking of the owner leaves it. -/
theorem State.brokenFrom_queue_notOwed (h : q = p ∨ (s.share d).owes q = none) : (s.brokenFrom d p b).queue q =
    ((s.ownerSet d p b).postBroken d (s.share d).owner (s.port p).group).queue q := by
  have howes : ((((s.ownerSet d p b).postBroken d (s.share d).owner (s.port p).group).modShare d
      fun x => { x with owed := (s.share d).owed }).share d).owes q = (s.share d).owes q := by
    rw [State.modShare_share_same]
    rfl
  rw [State.brokenFrom_notices, State.freeAllOwed_queue, howes, if_neg, State.modShare_queue]
  rintro ⟨hs, hx⟩
  rcases h with rfl | h
  · exact hx rfl
  · rw [h] at hs
    cases hs

theorem State.brokenFrom_queue_broken (hp : b.ports = s.ports) (hq : b.queues = s.queues) {k : Nat}
    (hw : (s.share d).owes q = none) (ho : (s.share d).owner = some k) (hk : k ≠ (s.port p).group) (hg : (s.port q).group = k)
    (h1 : (s.port q).state ≠ .disabled) (h2 : (s.port q).state ≠ .resetting) :
    (s.brokenFrom d p b).queue q = (s.post q (.reserveBroken d)).queue q := by
  obtain ⟨hp', hq'⟩ := s.ownerSet_ports d p b
  have hport : (s.ownerSet d p b).port q = s.port q := by simp only [State.port, hp', hp]
  rw [State.brokenFrom_queue_notOwed (.inr hw), ho, State.postBroken_queue hk, hport, if_pos ⟨hg, h1, h2⟩]
  exact State.post_queue_congr (hp'.trans hp) (hq'.trans hq) _

theorem State.brokenFrom_queue_other (hp : b.ports = s.ports) (hq : b.queues = s.queues)
    (hw : q = p ∨ (s.share d).owes q = none)
    (ho : (s.share d).owner = none ∨ ∀ k, (s.share d).owner = some k → (s.port q).group ≠ k) :
    (s.brokenFrom d p b).queue q = s.queue q := by
  obtain ⟨hp', hq'⟩ := s.ownerSet_ports d p b
  have hport : (s.ownerSet d p b).port q = s.port q := by simp only [State.port, hp', hp]
  have hqueue : (s.ownerSet d p b).queue q = s.queue q := by simp only [State.queue, hq', hq]
  rw [State.brokenFrom_queue_notOwed hw]
  cases hx : (s.share d).owner with
  | none => exact hqueue
  | some k =>
    by_cases hk : k = (s.port p).group
    · subst hk
      rw [State.postBroken_same]
      exact hqueue
    · rw [State.postBroken_queue hk, hport, if_neg, hqueue]
      rintro ⟨hg, -, -⟩
      rcases ho with ho | ho
      · rw [hx] at ho
        cases ho
      · exact ho k hx hg

end Broken

/-! ## Step 1: the operation is broken (R98, R99, R165) -/

section Broken
variable {s u r b : State} {d e : Drive} {p q : Port} {o : Operation} {h : Hdr}

/-- An owed set without a port has nobody to be tested. -/
theorem State.owedTest_nobody (h : (s.share d).owed = Vector.replicate 4 none) : s.owedTest d = s :=
  forPorts_fixed fun p => State.testOwed_stays (.inl (by simp [Sharing.owes, h]))

/-- Where no port waits for the operation's end, none is answered. -/
theorem State.answerWaiting_nobody (h : ∀ p, (s.port p).awaiting = false) : s.answerWaiting d = s := by
  refine forPorts_fixed fun p => if_neg ?_
  simp [h p]

theorem State.owedAside_share : ((s.owedAside d).share d) = { s.share d with owed := Vector.replicate 4 none } :=
  State.modShare_share_same _ _ _

theorem State.owedAside_share_ne (h : e ≠ d) : (s.owedAside d).share e = s.share e := State.modShare_share_ne _ _ _ _ h.symm

theorem State.breakOperation_none (h : s.op d = none) : s.breakOperation d = s := by
  simp [State.breakOperation, h]

/-- A disconnected operation is discarded, an alternate one with its result ABORTED; no other operation, and of the sharing
records and the spare map nothing, is touched. -/
theorem State.breakOperation_disconnected (ho : s.op d = some o) (hc : o.conn = none) :
    (s.breakOperation d).op d = none ∧ (∀ e, e ≠ d → (s.breakOperation d).op e = s.op e) ∧
    (s.breakOperation d).sharing = s.sharing ∧ (s.breakOperation d).spareMap = s.spareMap ∧
    ∀ a, o.alt = some a → ∃ x : AltResult, (s.breakOperation d).lastAlt = some x ∧ x.drive = d ∧ x.home = o.home ∧
      x.outcome = .aborted := by
  have he : s.breakOperation d = (s.abortQuietly d).answerWaiting d := by
    simp [State.breakOperation, ho, hc]
  rw [he]
  unfold State.abortQuietly
  rw [ho]
  dsimp only
  cases ha : o.alt with
  | none =>
    simp only [State.answerWaiting_op, State.answerWaiting_sharing, State.answerWaiting_spareMap, State.discardOp_sharing,
      State.discardOp_spareMap, reduceCtorEq, false_implies, implies_true, and_true]
    refine ⟨by simp [State.discardOp], fun e hne => (State.setOp_op_ne _ _ _ _ hne.symm).trans (by simp [State.releaseOp]), ?_, ?_⟩ <;>
      simp [State.releaseOp]
  | some a =>
    simp only [State.answerWaiting_op, State.answerWaiting_sharing, State.answerWaiting_spareMap, State.discardOp_sharing,
      State.discardOp_spareMap, State.answerWaiting_lastAlt, State.discardOp_lastAlt]
    refine ⟨by simp [State.discardOp], fun e hne => ?_, ?_, ?_, fun _ _ => ⟨_, rfl, rfl, rfl, rfl⟩⟩
    · exact (State.setOp_op_ne _ _ _ _ hne.symm).trans (by simp [State.op, State.releaseOp])
    all_goals simp [State.releaseOp]

/-- What the stop of a command does at its port before the STATUS: the buffer goes, where the command has one. -/
def Operation.clearsBuffer (o : Operation) (r : PortRec) : PortRec :=
  match o.cmd with
  | some (.read _) | some (.write _) | some .driveState => r.emptied
  | some (.locate _) | some (.search _ _ _) | some (.format _) | none => r

theorem State.modPort_id (s : State) (p : Port) : (s.modPort p fun r => r) = s := State.setPort_self s p rfl

/-- A command that is not inside a field is stopped at once. -/
theorem State.stopCommand_atOnce (ho : s.op d = some o) (hw : o.writing = false) (e : StopEnd) :
    s.stopCommand d q e = (s.modPort q o.clearsBuffer).finishStopped d q e o.stopResidual := by
  unfold State.stopCommand Operation.clearsBuffer
  unfold Operation.writing at hw
  rw [ho]
  dsimp only
  cases hc : o.cmd with
  | none => rw [State.modPort_id]
  | some c =>
    rw [hc] at hw
    cases c with
    | write w => exact if_neg (by simpa using hw)
    | format f =>
      rw [State.modPort_id]
      exact if_neg (by simpa using hw)
    | locate f => rw [State.modPort_id]
    | search c k ph => rw [State.modPort_id]
    | read x => rfl
    | driveState => rfl

/-- HALTED: the STATUS is produced and the operation ends. -/
theorem State.finishStopped_halted (ho : s.op d = some o) (n : Nat) : s.finishStopped d q .halted n =
    (s.modPort q fun r => { r with
      answer := none, held := [], requests := []
      link := r.link ++ [.status (r.addressOf (.drive d)) (Status.haltedWith n) true] }).endOperation d := by
  simp [State.finishStopped, ho, State.sendStatus, State.push, PortRec.addressOf, PortRec.base, State.modPort]

theorem Operation.clearsBuffer_port (o : Operation) (x : PortRec) (c : Conn) :
    (o.clearsBuffer x).addressOf c = x.addressOf c ∧ (o.clearsBuffer x).awaiting = x.awaiting := by
  unfold Operation.clearsBuffer
  split <;> exact ⟨rfl, rfl⟩

/-- The end of an operation that nobody is owed for or waits for. -/
theorem State.endOperation_nobody (hs : (s.share d).owed = Vector.replicate 4 none) (ha : ∀ p, (s.port p).awaiting = false) :
    s.endOperation d = s.discardOp d := by
  unfold State.endOperation
  rw [State.owedTest_nobody (by rw [State.discardOp_share]; exact hs), State.answerWaiting_nobody fun p => ?_]
  rw [State.discardOp_port]
  exact ha p

/-- A connected operation whose command is stopped at once is gone, with no other block than its port touched; the STATUS goes
out behind what its port then holds. -/
theorem State.breakOperation_atOnce (ho : s.op d = some o) (hc : o.conn = some q) (hw : o.writing = false)
    (hs : (s.share d).owed = Vector.replicate 4 none) (ha : ∀ p, (s.port p).awaiting = false) :
    ∃ x : PortRec, s.breakOperation d = (s.setPort q x).discardOp d ∧ x.link = (o.clearsBuffer (s.port q)).link ++
      [.status ((s.port q).addressOf (.drive d)) (Status.haltedWith o.stopResidual) true] := by
  have hb : s.breakOperation d = s.stopCommand d q .halted := by
    simp [State.breakOperation, ho, hc]
  have hop : (s.modPort q o.clearsBuffer).op d = some o := ho
  rw [hb, State.stopCommand_atOnce ho hw, State.finishStopped_halted hop, State.modPort_modPort, State.endOperation_nobody]
  · refine ⟨_, rfl, ?_⟩
    dsimp only
    rw [(o.clearsBuffer_port (s.port q) (.drive d)).1]
  · exact hs
  intro x
  by_cases hx : q = x
  · subst hx
    rw [State.modPort_port_same]
    exact (o.clearsBuffer_port (s.port q) .unit).2.trans (ha q)
  · rw [State.modPort_port_ne _ _ _ _ hx]
    exact ha x

/-! ## RESERVE UNCONDITIONAL (R164, R165) -/

/-- Past admission, RESERVE UNCONDITIONAL is taken where its carrier reaches the drive. -/
theorem execReserveUnconditional_takes (hu : s.Finds u) (hr : u.Reaches h d r) (hc : (r.record d).configured = true)
    (ha : (r.pos d).actuator ≠ .notReady) :
    exec (.reserveUnconditional h) s = .next (r.takeReserveUnconditional d h.port).serveClaims := by
  have hf : u.sharingCommand h false (fun t e => t.passAdmission e h.port .ready fun t => t.takeReserveUnconditional e h.port) =
      r.takeReserveUnconditional d h.port :=
    (State.sharingCommand_reaches hr ..).trans (State.passAdmission_admitted (State.admission_ready hc ha) _)
  unfold exec execReserveUnconditional
  exact (State.perform_finds _ hu).trans (by rw [hf])

theorem State.takeReserveUnconditional_refused (h : (s.port p).straps.control = false ∨ (s.port p).group = 0) :
    s.takeReserveUnconditional d p = s.reply p d (.faultOf .commandReject .none 0) := if_pos h

/-- An operation that the command does not abort holds it off. -/
theorem State.takeReserveUnconditional_busy (h1 : (s.port p).straps.control = true) (h2 : (s.port p).group ≠ 0)
    (ho : s.op d = some o) (hb : o.group = (s.port p).group ∨ o.abortable = false) :
    s.takeReserveUnconditional d p = (s.oweCommand d p).reply p d (.heldFor .busy) := by
  have hn : s.breakable d p = false := by
    unfold State.breakable
    rw [ho]
    rcases hb with hb | hb <;> simp [hb]
  unfold State.takeReserveUnconditional
  rw [if_neg (by simp [h1, h2]), hn]
  rfl

theorem State.takeReserveUnconditional_breaks (h1 : (s.port p).straps.control = true) (h2 : (s.port p).group ≠ 0)
    (hb : ∀ o, s.op d = some o → o.group ≠ (s.port p).group ∧ o.abortable = true) :
    s.takeReserveUnconditional d p = s.breakReservation d p := by
  have hn : s.breakable d p = true := by
    unfold State.breakable
    cases ho : s.op d with
    | none => rfl
    | some o => simpa using hb o ho
  unfold State.takeReserveUnconditional
  rw [if_neg (by simp [h1, h2]), if_pos hn]

/-- What the effects after step 1 leave: the owner, the owed set, no hold that did not stand, and the other drives. -/
theorem State.brokenFrom_follows (hs : b.sharing = (s.owedAside d).sharing) (ho : ∀ e, e ≠ d → b.op e = s.op e) :
    ((s.brokenFrom d p b).share d).owner = some (s.port p).group ∧
    ((s.brokenFrom d p b).share d).owed = Vector.replicate 4 none ∧
    (∀ x, ((s.brokenFrom d p b).share d).hold = some x → (s.share d).hold = some x) ∧
    ∀ e, e ≠ d → (s.brokenFrom d p b).op e = s.op e ∧ (s.brokenFrom d p b).share e = s.share e := by
  have hshare : ∀ e, b.share e = (s.owedAside d).share e := fun e => by simp only [State.share, hs]
  refine ⟨by rw [State.brokenFrom_share], by rw [State.brokenFrom_share], fun x hx => ?_, fun e he => ⟨?_, ?_⟩⟩
  · have hb := State.brokenFrom_hold hx
    rwa [hshare, State.owedAside_share] at hb
  · rw [State.brokenFrom_op, ho e he]
  · rw [State.brokenFrom_share_ne _ _ _ he, hshare, State.owedAside_share_ne he]

/-- A RESERVE UNCONDITIONAL that breaks, where step 1 leaves no operation. -/
theorem execReserveUnconditional_done
    (hx : exec (.reserveUnconditional h) s = .next (r.takeReserveUnconditional d h.port).serveClaims)
    (h1 : (r.port h.port).straps.control = true) (h2 : (r.port h.port).group ≠ 0)
    (hb : ∀ o, r.op d = some o → o.group ≠ (r.port h.port).group ∧ o.abortable = true)
    (hop : ((r.owedAside d).breakOperation d).op d = none) : exec (.reserveUnconditional h) s =
      .next ((r.brokenFrom d h.port ((r.owedAside d).breakOperation d)).reply h.port d { done := true }).serveClaims := by
  rw [hx, State.takeReserveUnconditional_breaks h1 h2 hb, State.breakReservation_done hop]
  rfl

/-- A RESERVE UNCONDITIONAL that breaks, where step 1 leaves an operation. -/
theorem execReserveUnconditional_waits
    (hx : exec (.reserveUnconditional h) s = .next (r.takeReserveUnconditional d h.port).serveClaims)
    (h1 : (r.port h.port).straps.control = true) (h2 : (r.port h.port).group ≠ 0)
    (hb : ∀ o, r.op d = some o → o.group ≠ (r.port h.port).group ∧ o.abortable = true)
    (hop : ((r.owedAside d).breakOperation d).op d = some o) : exec (.reserveUnconditional h) s =
      .next ((r.brokenFrom d h.port ((r.owedAside d).breakOperation d)).modPort h.port
        fun x => { x with awaiting := true }).serveClaims := by
  rw [hx, State.takeReserveUnconditional_breaks h1 h2 hb, State.breakReservation_waits (by rw [hop]; rfl)]

theorem Operation.abortable_iff : o.abortable = true ↔ ∀ a, o.alt = some a → a.writePassed = false := by
  unfold Operation.abortable
  cases o.alt <;> simp

/-- Step 1 inside a WRITE's data field: the stop is kept with the command, and the buffer goes. -/
theorem State.breakOperation_write {w : WriteCmd} (ho : s.op d = some o) (hc : o.conn = some q) (hw : o.cmd = some (.write w))
    (hb : w.begun = true) (hs : w.stop = none) : s.breakOperation d = (s.modPort q PortRec.emptied).setOp d
      (some { o with cmd := some (.write { w with stop := some .halted, toAsk := [] }) }) := by
  have hop : (s.modPort q PortRec.emptied).op d = some o := ho
  have hstop : s.stopCommand d q .halted =
      (s.modPort q PortRec.emptied).setCmd d (.write { w with stop := some .halted, toAsk := [] }) := by
    unfold State.stopCommand
    rw [ho]
    simp [hw, hb, hs]
  have hbreak : s.breakOperation d = s.stopCommand d q .halted := by
    simp [State.breakOperation, ho, hc]
  rw [hbreak, hstop]
  exact State.modOp_some _ _ _ hop

/-- Step 1 inside a FORMAT TRACK's writing: the stop is kept with the command. -/
theorem State.breakOperation_format {f : FormatCmd} (ho : s.op d = some o) (hc : o.conn = some q)
    (hf : o.cmd = some (.format f)) (hb : f.begun = true) (hs : f.stop = none) : s.breakOperation d =
      s.setOp d (some { o with cmd := some (.format { f with stop := some .halted }) }) := by
  have hstop : s.stopCommand d q .halted = s.setCmd d (.format { f with stop := some .halted }) := by
    unfold State.stopCommand
    rw [ho]
    simp [hf, hb, hs]
  have hbreak : s.breakOperation d = s.stopCommand d q .halted := by
    simp [State.breakOperation, ho, hc]
  rw [hbreak, hstop]
  exact State.modOp_some _ _ _ ho

/-- The residual of a command that is stopped, by its kind (R98). -/
theorem Operation.stopResidual_eq {n : Nat}
    (hr : ∀ c, o.cmd = some (.read c) → n = o.byteCount - max o.accounted c.sentTo)
    (hw : ∀ w, o.cmd = some (.write w) → n = o.byteCount - w.bytes.length)
    (hn : (∀ c, o.cmd ≠ some (.read c)) → (∀ w, o.cmd ≠ some (.write w)) → n = 0) : o.stopResidual = n := by
  unfold Operation.stopResidual
  split
  next c h => exact (hr c h).symm
  next w h => exact (hw w h).symm
  all_goals
    next h => exact (hn (by simp [h]) (by simp [h])).symm

end Broken

/-- Settles O36: the refusal, the operation that holds the command off, and the five effects of R165 with what step 1 makes of
each operation it breaks. -/
theorem reserveUnconditionalBreaks : Obligations.ReserveUnconditionalBreaks := by
  unfold Obligations.ReserveUnconditionalBreaks
  intro s u r h d hu hr hc ha g
  have hx := execReserveUnconditional_takes hu hr hc ha
  have hops : (r.owedAside d).op d = r.op d := rfl
  have hplain : ∀ o, r.op d = some o → o.group ≠ g → o.alt = none →
      ∀ x, r.op d = some x → x.group ≠ (r.port h.port).group ∧ x.abortable = true := by
    intro o ho hg hal x hxo
    cases ho.symm.trans hxo
    exact ⟨hg, Operation.abortable_iff.mpr (by simp [hal])⟩
  refine ⟨fun hn => ?_, fun h1 h2 => ⟨fun o ho hg => ?_, fun o ho hg hcn hal => ?_, fun o a ho hg hal hp => ?_,
    fun o a ho hg hcn hal hp => ?_, fun o q ho hg hcn hq hal => ⟨fun hw haw n hnr hnw hn0 => ?_, fun w hw hb hs => ?_,
    fun f hf hb hs => ?_⟩, fun ho => ?_⟩⟩
  · rw [hx, State.takeReserveUnconditional_refused hn]
    rfl
  · rw [hx, State.takeReserveUnconditional_busy h1 h2 ho (.inl hg)]
    rfl
  · obtain ⟨hop, hne, hs, -, -⟩ := State.breakOperation_disconnected (hops.trans ho) hcn
    obtain ⟨howner, howed, -, hothers⟩ := State.brokenFrom_follows (p := h.port) hs hne
    exact ⟨_, execReserveUnconditional_done hx h1 h2 (hplain o ho hg hal) hop, (State.brokenFrom_op ..).trans hop, howner, howed, hothers⟩
  · rw [hx, State.takeReserveUnconditional_busy h1 h2 ho (.inr (by simp [Operation.abortable, hal, hp]))]
    rfl
  · obtain ⟨hop, hne, hs, hm, hl⟩ := State.breakOperation_disconnected (hops.trans ho) hcn
    have hb : ∀ x, r.op d = some x → x.group ≠ (r.port h.port).group ∧ x.abortable = true := fun x hx => by
      cases ho.symm.trans hx
      exact ⟨hg, Operation.abortable_iff.mpr (by simp [hal, hp])⟩
    obtain ⟨howner, howed, -, hothers⟩ := State.brokenFrom_follows (p := h.port) hs hne
    obtain ⟨y, z, hshape⟩ := r.brokenFrom_shape d h.port ((r.owedAside d).breakOperation d)
    refine ⟨_, execReserveUnconditional_done hx h1 h2 hb hop, (State.brokenFrom_op ..).trans hop, howner, howed, hothers, ?_, ?_⟩
    · rw [hshape]
      exact hm
    · rw [hshape]
      exact hl a hal
  · have hw' : o.writing = false := by
      by_contra hn
      refine hw ?_
      unfold Operation.writing at hn
      split at hn
      next w hc => exact .inl ⟨w, hc, by simpa using hn⟩
      next f hc => exact .inr ⟨f, hc, by simpa using hn⟩
      all_goals exact absurd rfl hn
    obtain ⟨x, hbreak, hlink⟩ := State.breakOperation_atOnce (s := r.owedAside d) ho hcn hw'
      (by rw [State.owedAside_share]) haw
    have hop : ((r.owedAside d).breakOperation d).op d = none := by
      rw [hbreak]
      exact State.setOp_op_same _ _ _
    obtain ⟨l, hl⟩ := r.brokenFrom_port d h.port ((r.owedAside d).breakOperation d) q
    have hq : ((r.brokenFrom d h.port ((r.owedAside d).breakOperation d)).port q).link = x.link := by
      rw [hl, hbreak]
      dsimp only
      rw [State.discardOp_port, State.setPort_port_same]
    refine ⟨_, execReserveUnconditional_done hx h1 h2 (hplain o ho hg hal) hop, (State.brokenFrom_op ..).trans hop,
      State.brokenFrom_follows (by rw [hbreak]; rfl) fun e he => ?_, fun hc => ?_, fun hc => ?_⟩
    · rw [hbreak]
      exact State.setOp_op_ne _ _ _ _ he.symm
    · rw [hq, hlink, Operation.stopResidual_eq hnr hnw hn0]
      rcases hc with ⟨c, hc⟩ | ⟨w, hc⟩ | hc <;> simp only [Operation.clearsBuffer, hc] <;> rfl
    · have h0 : o.stopResidual = 0 := by
        rcases hc with hc | ⟨f, hc⟩ | ⟨k, c, ph, hc⟩ | ⟨f, hc⟩ <;> simp only [Operation.stopResidual, hc]
      rw [hq, hlink, h0]
      rcases hc with hc | ⟨f, hc⟩ | ⟨k, c, ph, hc⟩ | ⟨f, hc⟩ <;> simp only [Operation.clearsBuffer, hc] <;> rfl
  · have hbreak := State.breakOperation_write (s := r.owedAside d) ho hcn hw hb hs
    have hop := (congrArg (State.op · d) hbreak).trans (State.setOp_op_same ..)
    refine ⟨_, execReserveUnconditional_waits hx h1 h2 (hplain o ho hg hal) hop,
      State.brokenFrom_follows (by rw [hbreak]; rfl) fun e he => ?_, (State.brokenFrom_op ..).trans hop⟩
    rw [hbreak]
    exact State.setOp_op_ne _ _ _ _ he.symm
  · have hbreak := State.breakOperation_format (s := r.owedAside d) ho hcn hf hb hs
    have hop := (congrArg (State.op · d) hbreak).trans (State.setOp_op_same ..)
    refine ⟨_, execReserveUnconditional_waits hx h1 h2 (hplain o ho hg hal) hop,
      State.brokenFrom_follows (by rw [hbreak]; rfl) fun e he => ?_, (State.brokenFrom_op ..).trans hop⟩
    rw [hbreak]
    exact State.setOp_op_ne _ _ _ _ he.symm
  · have hbreak : (r.owedAside d).breakOperation d = r.owedAside d := State.breakOperation_none ho
    obtain ⟨y, z, hshape⟩ := r.brokenFrom_shape d h.port (r.owedAside d)
    have hdone := execReserveUnconditional_done hx h1 h2 (by simp [ho]) (by rw [hbreak]; exact ho)
    rw [hbreak] at hdone
    have hhold : ((r.owedAside d).share d).hold = (r.share d).hold := by rw [State.owedAside_share]
    refine ⟨_, hdone, by rw [State.brokenFrom_share], by rw [State.brokenFrom_share], fun x hxh => ?_, fun hn => ?_,
      fun e he => ?_, by rw [hshape]; rfl, by rw [hshape]; rfl, by rw [hshape]; rfl, fun q hq how hno => ?_,
      fun q k how hk hkg hqk hq1 hq2 => ?_, fun q how hno => ?_⟩
    · rw [State.brokenFrom_share]
      exact State.breakHold_some (hhold.trans hxh)
    · rw [State.brokenFrom_share]
      exact State.breakHold_none (hhold.trans hn)
    · rw [State.brokenFrom_share_ne _ _ _ he, State.owedAside_share_ne he]
    · exact State.brokenFrom_queue_owed rfl rfl hno how hq
    · exact State.brokenFrom_queue_broken rfl rfl how hk hkg hqk hq1 hq2
    · exact State.brokenFrom_queue_other rfl rfl how hno

end Sys2Proof.Machine
end

section
/-! SUPPORT. The end of an operation, the ports it tells, and the FAULT that ends it (5.1, 9.4 to 9.6). -/

namespace Sys2Proof.Machine

open Sys2Proof

section Ends
variable {s t : State} {d e : Drive} {p q : Port} {o : Operation}

/-! ## The test of an owed set at one port -/

-- The proofs before this one end before those after it begin: they have to compile within the check's memory.
set_option Elab.async false in
/-- A port admitted now leaves the set, and is told as if the notice were posted to it alone. -/
theorem State.owedTest_told {m : OwedMark} (h : (s.share d).owes q = some m) (hm : s.admittedNow d q m = true) :
    ((s.owedTest d).share d).owes q = none ∧ (s.owedTest d).queue q = (s.post q (.deviceFree d)).queue q := by
  have hv := State.owedTest_view s d q
  rw [State.testOwed_leaves h hm] at hv
  simp only [State.owedView, Prod.mk.injEq] at hv
  obtain ⟨howes, -, -, -, hqueue, -⟩ := hv
  refine ⟨howes.trans (by simp [State.post_share]), hqueue.trans ?_⟩
  rw [State.post_queue, State.post_queue]
  rfl

/-- A port that is not owed, or not admitted now, keeps its mark and its queue. -/
theorem State.owedTest_untold (h : (s.share d).owes q = none ∨ ∃ m, (s.share d).owes q = some m ∧ s.admittedNow d q m = false) :
    ((s.owedTest d).share d).owes q = (s.share d).owes q ∧ (s.owedTest d).queue q = s.queue q := by
  have hv := State.owedTest_view s d q
  rw [State.testOwed_stays h] at hv
  simp only [State.owedView, Prod.mk.injEq] at hv
  obtain ⟨howes, -, -, -, hqueue, -⟩ := hv
  exact ⟨howes, hqueue⟩

/-- The test leaves of a port all but the overflow flag. -/
theorem State.owedTest_port (s : State) (d : Drive) (q : Port) : ∃ b, (s.owedTest d).port q = { s.port q with overflow := b } := by
  have hv := congrArg (fun x => x.2.2.2.2.2) (State.owedTest_view s d q)
  refine (?_ : ∃ b, (s.testOwed d q).port q = _).imp fun b hb => hv.trans hb
  unfold State.testOwed
  split
  next =>
    split
    next => exact State.post_port
    next => exact ⟨_, rfl⟩
  next => exact ⟨_, rfl⟩

/-! ## RESERVE UNCONDITIONAL's wait for an operation's end, at one port -/

/-- The port's record once the operation of d has ended: a waiting RESERVE UNCONDITIONAL is answered (R165). -/
def PortRec.answered (d : Drive) (r : PortRec) : PortRec :=
  if r.awaiting = true ∧ r.conn = some (.drive d) then
    { r with awaiting := false, link := r.link ++ [.status (r.addressOf (.drive d)) (Status.doneWith 0).disc !r.ending] }
  else r

/-- A port that does not wait for the end is told nothing. -/
theorem PortRec.answered_not {r : PortRec} (h : r.awaiting = false) : r.answered d = r := if_neg (by simp [h])

/-- One port's part of the answers. -/
def State.answerAt (d : Drive) (s : State) (p : Port) : State :=
  if (s.port p).awaiting = true ∧ (s.port p).conn = some (.drive d) then
    (s.modPort p fun r => { r with awaiting := false }).reply p d (.doneWith 0)
  else s

theorem State.answerWaiting_eq (s : State) (d : Drive) : s.answerWaiting d = s.forPorts (State.answerAt d) := rfl

theorem State.answerAt_not (h : (s.port p).awaiting = false) : s.answerAt d p = s := if_neg (by simp [h])

theorem State.answerAt_port_ne (h : p ≠ q) : (s.answerAt d p).port q = s.port q := by
  unfold State.answerAt
  split
  next => exact (State.modPort_port_ne _ _ _ _ h).trans (State.modPort_port_ne _ _ _ _ h)
  next => rfl

theorem State.answerAt_port_same : (s.answerAt d p).port p = (s.port p).answered d := by
  unfold State.answerAt PortRec.answered
  split
  next => simp [State.reply, State.sendStatus, State.push, PortRec.addressOf, PortRec.base, PortRec.ending]
  next => rfl

theorem State.answerWaiting_port (s : State) (d : Drive) (q : Port) : (s.answerWaiting d).port q = (s.port q).answered d := by
  rw [State.answerWaiting_eq]
  refine (forPorts_at (fun p s => s.port p) (fun s p q h => State.answerAt_port_ne h) (fun s t p h => ?_) s q).trans
    State.answerAt_port_same
  rw [State.answerAt_port_same, State.answerAt_port_same, h]

/-- With one port alone waiting for the end in a connection with d, it is the one answered. -/
theorem State.answerWaiting_one (hw : (s.port p).awaiting = true) (hc : (s.port p).conn = some (.drive d))
    (hn : ∀ q, q ≠ p → (s.port q).awaiting = false) :
    s.answerWaiting d = (s.modPort p fun x => { x with awaiting := false }).reply p d (.doneWith 0) := by
  rw [State.answerWaiting_eq]
  refine (forPorts_single p (fun q hq => State.answerAt_not (hn q hq)) fun q hq => State.answerAt_not ?_).trans
    (if_pos ⟨hw, hc⟩)
  rw [State.answerAt_port_ne hq.symm]
  exact hn q hq

/-! ## A FAULT in an operation's connection (R79, R166) -/

/-- The port's record as the FAULT's STATUS is produced. -/
def PortRec.faulted (d : Drive) (st : Status) (r : PortRec) : PortRec :=
  { r with answer := none, held := [], requests := [], link := r.link ++ [.status (r.addressOf (.drive d)) st true] }

theorem State.faultInConnection_eq (s : State) (d : Drive) (p : Port) (o : Operation) (k : FaultKind) (det : Detail) (res : Nat)
    (found : Option Condition) : s.faultInConnection d p o k det res found =
      let t := s.modPort p (PortRec.faulted d (Status.faultOf k det res).disc)
      if k = .notReady then t.endOperation d else t.endOperationWithHold d p (o.faultRecord d k det res found) := by
  have h : (s.modPort p fun r => { r with answer := none, held := [], requests := [] }).sendStatus p (.drive d)
      (Status.faultOf k det res).disc true = s.modPort p (PortRec.faulted d (Status.faultOf k det res).disc) := by
    simp [State.sendStatus, State.push, State.modPort, PortRec.faulted, PortRec.addressOf, PortRec.base]
  unfold State.faultInConnection
  dsimp only
  rw [h]

/-- The state in which the end of an operation tests the owed set: the record gone, and the hold begun where one begins. -/
def State.endedAs (s : State) (d : Drive) (x : Option Hold) : State :=
  match x with
  | none => s.discardOp d
  | some x => (s.discardOp d).modShare d fun y => { y with hold := some x }

/-- The end of an operation, with or without a hold. -/
def State.endsWith (s : State) (d : Drive) (x : Option Hold) : State := ((s.endedAs d x).owedTest d).answerWaiting d

theorem State.endOperation_eq (s : State) (d : Drive) : s.endOperation d = s.endsWith d none := rfl

theorem State.endOperationWithHold_eq (s : State) (d : Drive) (p : Port) (r : FaultRecord) : s.endOperationWithHold d p r =
    s.endsWith d (some { port := p, timer := (s.typeOf d).holdLimit, record := r }) := by
  unfold State.endOperationWithHold State.beginHold
  rw [State.discardOp_typeOf]
  rfl

theorem State.endedAs_shape (s : State) (d : Drive) (x : Option Hold) :
    ∃ y, s.endedAs d x = (s.setOp d none).setShare d { s.share d with hold := y } ∧ (y = x ∨ x = none ∧ y = (s.share d).hold) := by
  cases x with
  | none => exact ⟨_, (State.setShare_self _ d rfl).symm, .inr ⟨rfl, rfl⟩⟩
  | some x => exact ⟨_, rfl, .inl rfl⟩

theorem State.endsWith_shape (s : State) (d : Drive) (x : Option Hold) :
    ∃ a b c g, s.endsWith d x = { s with ops := a, ports := b, queues := c, sharing := g } := by
  obtain ⟨y, hy, -⟩ := s.endedAs_shape d x
  obtain ⟨a, b, c, e⟩ := State.owedTest_shape (s.endedAs d x) d
  unfold State.endsWith
  rw [e, hy]
  obtain ⟨a', e'⟩ := State.answerWaiting_shape
    { (s.setOp d none).setShare d { s.share d with hold := y } with ports := a, queues := b, sharing := c } d
  exact ⟨_, _, _, _, e'⟩

theorem State.endsWith_op (s : State) (d : Drive) (x : Option Hold) (e : Drive) :
    (s.endsWith d x).op e = if d = e then none else s.op e := by
  obtain ⟨y, hy, -⟩ := s.endedAs_shape d x
  unfold State.endsWith
  rw [State.answerWaiting_op, State.op_of_ops (State.owedTest_ops _ _), hy, State.setShare_op]
  split
  next h => exact h ▸ State.setOp_op_same _ _ _
  next h => exact State.setOp_op_ne _ _ _ _ h

theorem State.endsWith_share_ne (s : State) (x : Option Hold) (h : e ≠ d) : (s.endsWith d x).share e = s.share e := by
  obtain ⟨y, hy, -⟩ := s.endedAs_shape d x
  unfold State.endsWith
  rw [State.answerWaiting_share, State.owedTest_share_ne _ h, hy]
  exact State.setShare_share_ne _ _ _ _ h.symm

theorem State.endsWith_hold (s : State) (d : Drive) (x : Option Hold) :
    ((s.endsWith d x).share d).hold = ((s.endedAs d x).share d).hold := by
  unfold State.endsWith
  rw [State.answerWaiting_share, State.owedTest_hold]

/-- The end leaves of a port that does not wait for it all but the overflow flag. -/
theorem State.endsWith_port (s : State) (d : Drive) (x : Option Hold) (h : (s.port p).awaiting = false) :
    ∃ b, (s.endsWith d x).port p = { s.port p with overflow := b } := by
  obtain ⟨y, hy, -⟩ := s.endedAs_shape d x
  obtain ⟨b, hb⟩ := State.owedTest_port (s.endedAs d x) d p
  have hport : (s.endedAs d x).port p = s.port p := by rw [hy]; rfl
  refine ⟨b, ?_⟩
  unfold State.endsWith
  rw [State.answerWaiting_port, hb, hport]
  exact PortRec.answered_not h

/-- A port owed by an order leaves the owed set as the operation ends, and is told. -/
theorem State.endsWith_order (s : State) (d : Drive) (x : Option Hold) (h : (s.share d).owes q = some .order) :
    ((s.endsWith d x).share d).owes q = none ∧ (s.endsWith d x).queue q = (s.post q (.deviceFree d)).queue q := by
  obtain ⟨y, hy, -⟩ := s.endedAs_shape d x
  have howes : ((s.endedAs d x).share d).owes q = some .order := by
    rw [hy, State.setShare_share_same]
    exact h
  have hadm : (s.endedAs d x).admittedNow d q .order = true := by
    rw [State.admittedNow_iff, hy]
    exact ⟨State.setOp_op_same _ _ _, by simp⟩
  unfold State.endsWith
  rw [State.answerWaiting_share, State.answerWaiting_queue]
  refine (State.owedTest_told howes hadm).imp_right fun hq => hq.trans ?_
  refine State.post_queue_congr ?_ ?_ _ <;> rw [hy] <;> rfl

/-- A port owed by a command waits for a hold of another port to end. -/
theorem State.endsWith_command {x : Hold} (s : State) (d : Drive) (hx : x.port ≠ q) (h : (s.share d).owes q = some .command) :
    ((s.endsWith d (some x)).share d).owes q = some .command ∧ (s.endsWith d (some x)).queue q = s.queue q := by
  have hshare : (s.endedAs d (some x)).share d = { s.share d with hold := some x } := State.modShare_share_same _ _ _
  have howes : ((s.endedAs d (some x)).share d).owes q = some .command := by rw [hshare]; exact h
  have hadm : (s.endedAs d (some x)).admittedNow d q .command = false := by
    rw [← Bool.not_eq_true, State.admittedNow_iff]
    rintro ⟨-, hc⟩
    exact hx ((hc rfl).1 x (by rw [hshare]))
  unfold State.endsWith
  rw [State.answerWaiting_share, State.answerWaiting_queue]
  exact (State.owedTest_untold (.inr ⟨_, howes, hadm⟩)).imp (·.trans howes) id

/-- Where no port waits for it, the end of an operation is the test of the owed set. -/
theorem State.endsWith_nobody (x : Option Hold) (h : ∀ q, (s.port q).awaiting = false) :
    s.endsWith d x = (s.endedAs d x).owedTest d := by
  obtain ⟨y, hy, -⟩ := s.endedAs_shape d x
  refine State.answerWaiting_nobody fun q => ?_
  obtain ⟨b, hb⟩ := State.owedTest_port (s.endedAs d x) d q
  rw [hb, hy]
  exact h q

end Ends

/-- Settles O47: what the end of an operation does at each port, and the STATUS before it. -/
theorem faultInAConnection : Obligations.FaultInAConnection := by
  unfold Obligations.FaultInAConnection
  refine ⟨fun s d p o k det res found ho hc ha => ?_, fun s d p r => ⟨fun h => ⟨?_, ?_⟩, fun hw hc hn => ?_⟩⟩
  · intro v
    let t := s.modPort p (PortRec.faulted d (Status.faultOf k det res).disc)
    let x : Option Hold := if k = .notReady then none
      else some { port := p, timer := (s.typeOf d).holdLimit, record := o.faultRecord d k det res found }
    have hv : v = t.endsWith d x := by
      refine (State.faultInConnection_eq ..).trans ?_
      dsimp only [x]
      split
      next => exact State.endOperation_eq _ _
      next => exact State.endOperationWithHold_eq _ _ _ _
    obtain ⟨a, b, c, g, hshape⟩ := t.endsWith_shape d x
    have htp : (t.port p).awaiting = false := by
      rw [State.modPort_port_same]
      exact ha
    obtain ⟨l, hl⟩ := State.endsWith_port t d x htp
    have hport : v.port p = { PortRec.faulted d (Status.faultOf k det res).disc (s.port p) with overflow := l } := by
      rw [hv, hl, State.modPort_port_same]
    have hpost : ∀ q, ((t.post q (.deviceFree d)).queue q).notices = if (s.port q).state = .disabled then (s.queue q).notices
        else (enterQueue (s.queue q).notices (s.port q).offersNotice (.deviceFree d)).1 := by
      intro q
      have hq : (t.port q).state = (s.port q).state ∧ (t.port q).offersNotice = (s.port q).offersNotice := by
        by_cases hpq : p = q
        · subst hpq
          rw [State.modPort_port_same]
          exact ⟨rfl, rfl⟩
        · rw [State.modPort_port_ne _ _ _ _ hpq]
          exact ⟨rfl, rfl⟩
      rw [State.post_queue, hq.1, hq.2, State.modPort_queue]
      by_cases hd : (s.port q).state = .disabled <;> simp [hd]
    refine ⟨by rw [hv, State.endsWith_op, if_pos rfl], fun e he => ⟨?_, ?_⟩, by rw [hv, hshape]; rfl, by rw [hv, hshape]; rfl,
      by rw [hv, hshape]; rfl, by rw [hport]; rfl, by rw [hport]; rfl, by rw [hport]; rfl, by rw [hport]; rfl, fun hk => ?_,
      fun hk => ⟨?_, fun q hq hown => ?_⟩, fun q hown => ?_⟩
    · rw [hv, State.endsWith_op, if_neg he.symm]
      rfl
    · rw [hv, State.endsWith_share_ne _ _ he]
      rfl
    · rw [hv, State.endsWith_hold]
      dsimp only [x]
      rw [if_pos hk]
      exact congrArg Sharing.hold (State.discardOp_share ..)
    · rw [hv, State.endsWith_hold]
      dsimp only [x]
      rw [if_neg hk]
      exact congrArg Sharing.hold (State.modShare_share_same ..)
    · rw [hv]
      dsimp only [x]
      rw [if_neg hk]
      exact State.endsWith_command t d hq.symm hown
    · rw [hv]
      exact (State.endsWith_order t d x hown).imp_right fun h => (congrArg NoticeQueue.notices h).trans (hpost q)
  · rw [State.endOperation_eq, State.endsWith_nobody _ h]
    rfl
  · rw [State.endOperationWithHold_eq, State.endsWith_nobody _ h]
    rfl
  · have hrest : ∀ q, (((s.endedAs d none).owedTest d).port q).awaiting = (s.port q).awaiting ∧
        (((s.endedAs d none).owedTest d).port q).conn = (s.port q).conn := fun q => by
      obtain ⟨b, hb⟩ := State.owedTest_port (s.endedAs d none) d q
      rw [hb]
      exact ⟨rfl, rfl⟩
    exact State.answerWaiting_one ((hrest p).1.trans hw) ((hrest p).2.trans hc) fun q hq => (hrest q).1.trans (hn q hq)

end Sys2Proof.Machine
end

section
/-! SUPPORT. Where a unit order is taken, and UNIT CLEAR (11.3): each block by itself. -/

namespace Sys2Proof.Machine

open Sys2Proof

/-! ## Where a unit order is taken (R147, R185) -/

section Taken
variable {s u t : State} {h : Hdr}

-- The proofs before this one end before those after it begin: they have to compile within the check's memory.
set_option Elab.async false in
theorem State.unitOrderAs_takes (ht : u.TakesOrder h t) (e : StopEnd) (take : State → State) :
    u.unitOrderAs h e take = take t := by
  obtain ⟨r, hr, rfl⟩ := ht
  unfold State.unitOrderAs
  rcases hr with ho | ⟨hs, ha, rfl⟩
  · rw [ho]
  · rw [hs]
    simp [ha]

theorem State.unitOrder_takes (ht : u.TakesOrder h t) (take : State → State) : u.unitOrder h take = take t :=
  State.unitOrderAs_takes ht _ _

theorem State.controlOrder_takes (ht : u.TakesControl h t) (take : State → State) : u.controlOrder h take = take t := by
  unfold State.controlOrder
  rw [State.unitOrder_takes ht.1, if_pos ht.2]

end Taken

/-! ## The abort of alternate operations at the spare map (R108, R134) -/

section Undone
variable {s t : State} {d e : Drive} {o : Operation} {a : AltOp} {m : List SpareEntry} {x : SpareEntry}

/-- The spare map once the alternate operation o of d is aborted: its fresh entry goes, another's pending alternate does. -/
def Operation.undone (o : Operation) (d : Drive) (m : List SpareEntry) : List SpareEntry :=
  match o.alt with
  | some a =>
    if a.fresh then m.filter fun x => !x.isFor d o.home
    else m.map fun x => if x.isFor d o.home then { x with pending := none } else x
  | none => m

theorem State.undoAlternate_none (h : s.op d = none) : s.undoAlternate d = s := by
  simp [State.undoAlternate, h]

theorem State.undoAlternate_some (h : s.op d = some o) : s.undoAlternate d = { s with spareMap := o.undone d s.spareMap } := by
  unfold State.undoAlternate Operation.undone
  rw [h]
  dsimp only
  cases o.alt with
  | none => rfl
  | some a =>
    dsimp only
    unfold State.undoPending
    split <;> rfl

theorem Operation.undone_plain (h : o.alt = none) : o.undone d m = m := by
  simp [Operation.undone, h]

theorem Operation.mem_undone_fresh (h : o.alt = some a) (hf : a.fresh = true) :
    x ∈ o.undone d m ↔ x ∈ m ∧ ¬ (x.drive = d ∧ x.home = o.home) := by
  simp only [Operation.undone, h, hf, if_true, List.mem_filter, SpareEntry.isFor_eq, Bool.not_eq_true',
    decide_eq_false_iff_not]

theorem Operation.mem_undone_kept (h : o.alt = some a) (hf : a.fresh = false) : x ∈ o.undone d m ↔
    ∃ y ∈ m, (if y.drive = d ∧ y.home = o.home then { y with pending := none } else y) = x := by
  simp [Operation.undone, h, hf, SpareEntry.isFor_eq]

/-- The entries of the home track alone are touched. -/
theorem Operation.mem_undone_other (h : o.alt = none ∨ ¬ (x.drive = d ∧ x.home = o.home)) : x ∈ o.undone d m ↔ x ∈ m := by
  rcases ha : o.alt with _ | a
  · rw [Operation.undone_plain ha]
  have hx : ¬ (x.drive = d ∧ x.home = o.home) := h.resolve_left (by simp [ha])
  cases hf : a.fresh with
  | true => rw [Operation.mem_undone_fresh ha hf, and_iff_left hx]
  | false =>
    rw [Operation.mem_undone_kept ha hf]
    constructor
    · rintro ⟨y, hy, rfl⟩
      split at hx
      next hc => exact absurd hc hx
      next hc => rwa [if_neg hc]
    · exact fun hm => ⟨x, hm, if_neg hx⟩

/-- The entries of a drive after the abort depend on those before it alone. -/
theorem Operation.mem_undone_congr {l : List SpareEntry} (hm : ∀ y : SpareEntry, y.drive = d → (y ∈ m ↔ y ∈ l))
    (hx : x.drive = d) : x ∈ o.undone d m ↔ x ∈ o.undone d l := by
  rcases ha : o.alt with _ | a
  · rw [Operation.undone_plain ha, Operation.undone_plain ha]
    exact hm x hx
  cases hf : a.fresh with
  | true => rw [Operation.mem_undone_fresh ha hf, Operation.mem_undone_fresh ha hf, hm x hx]
  | false =>
    rw [Operation.mem_undone_kept ha hf, Operation.mem_undone_kept ha hf]
    refine exists_congr fun y => and_congr_left fun hy => hm y ?_
    rw [← hx, ← hy]
    split <;> rfl

end Undone

/-! ## UNIT CLEAR (R188) -/

section Clear
variable {s t : State} {d e : Drive} {p q : Port} {x : SpareEntry}

/-- One drive's part of the aborts of UNIT CLEAR. -/
def State.undoesAt (s : State) (d : Drive) : State := (s.leaveWrite d none).undoAlternate d

theorem State.leaveWrite_shape (s : State) (d : Drive) (p : Option Port) : ∃ a, s.leaveWrite d p = { s with finishing := a } := by
  unfold State.leaveWrite
  split
  next =>
    split
    next =>
      dsimp only
      split
      next => exact ⟨_, rfl⟩
      next => exact ⟨_, rfl⟩
    next => exact ⟨_, rfl⟩
  next => exact ⟨_, rfl⟩

/-- The spare map as that part leaves it. -/
def State.undoneMap (s : State) (d : Drive) : List SpareEntry :=
  match s.op d with
  | some o => o.undone d s.spareMap
  | none => s.spareMap

theorem State.undoesAt_shape (s : State) (d : Drive) : ∃ a, s.undoesAt d = { s with finishing := a, spareMap := s.undoneMap d } := by
  obtain ⟨a, ha⟩ := s.leaveWrite_shape d none
  unfold State.undoesAt State.undoneMap
  rw [ha]
  cases h : s.op d with
  | none => exact ⟨a, State.undoAlternate_none h⟩
  | some o => exact ⟨a, State.undoAlternate_some h⟩

theorem State.undoes_shape (s : State) :
    ∃ a b, s.forDrives State.undoesAt = { s with finishing := a, spareMap := b } := by
  refine foldl_ind (P := fun t => ∃ a b, t = { s with finishing := a, spareMap := b }) _ _ s ⟨_, _, rfl⟩ fun u d h => ?_
  obtain ⟨a, b, rfl⟩ := h
  obtain ⟨c, hc⟩ := State.undoesAt_shape { s with finishing := a, spareMap := b } d
  exact ⟨_, _, hc⟩

theorem State.mem_undoneMap_ne (h : d ≠ x.drive) : x ∈ s.undoneMap d ↔ x ∈ s.spareMap := by
  unfold State.undoneMap
  cases s.op d with
  | none => rfl
  | some o => exact Operation.mem_undone_other (.inr fun hx => h hx.1.symm)

theorem State.undoesAt_ops (s : State) (d : Drive) : (s.undoesAt d).ops = s.ops := by
  obtain ⟨a, ha⟩ := s.undoesAt_shape d
  rw [ha]

theorem State.undoesAt_spareMap (s : State) (d : Drive) : (s.undoesAt d).spareMap = s.undoneMap d := by
  obtain ⟨a, ha⟩ := s.undoesAt_shape d
  rw [ha]

/-- Whether an entry stands after the aborts is decided by the abort on its own drive. -/
theorem State.mem_undoes : x ∈ (s.forDrives State.undoesAt).spareMap ↔ x ∈ s.undoneMap x.drive := by
  let view (d : Drive) (s : State) : Vector (Option Operation) 8 × (SpareEntry → Prop) :=
    (s.ops, fun y => y.drive = d ∧ y ∈ s.spareMap)
  have hv := forDrives_at (f := State.undoesAt) view (fun s d e h => ?_) (fun s t d h => ?_) s x.drive
  · have hx := congrFun (congrArg Prod.snd hv) x
    simpa only [view, true_and, State.undoesAt_spareMap, eq_iff_iff] using hx
  · simp only [view, State.undoesAt_ops, State.undoesAt_spareMap, Prod.mk.injEq, true_and]
    funext y
    exact propext (and_congr_right fun hy => State.mem_undoneMap_ne (by rw [hy]; exact h))
  · simp only [view, Prod.mk.injEq] at h
    obtain ⟨hops, hmap⟩ := h
    simp only [view, State.undoesAt_ops, State.undoesAt_spareMap, Prod.mk.injEq]
    refine ⟨hops, funext fun y => propext (and_congr_right fun hy => ?_)⟩
    have hm : ∀ y : SpareEntry, y.drive = d → (y ∈ s.spareMap ↔ y ∈ t.spareMap) := fun y hy => by
      simpa [hy] using congrFun hmap y
    unfold State.undoneMap State.op
    rw [hops]
    split
    next => exact Operation.mem_undone_congr hm hy
    next => exact hm y hy

theorem State.undoes_plain (h : ∀ d o, s.op d = some o → o.alt = none) :
    (s.forDrives State.undoesAt).spareMap = s.spareMap := by
  refine (foldl_ind (P := fun t => t.ops = s.ops ∧ t.spareMap = s.spareMap) _ _ s ⟨rfl, rfl⟩ fun u d hu => ?_).2
  obtain ⟨hops, hmap⟩ := hu
  refine ⟨(u.undoesAt_ops d).trans hops, (u.undoesAt_spareMap d).trans (Eq.trans ?_ hmap)⟩
  unfold State.undoneMap
  split
  next o ho => exact Operation.undone_plain (h d o (by rw [← ho]; exact (State.op_of_ops hops d).symm))
  next => rfl

/-! ## The other blocks -/

/-- What UNIT CLEAR writes, block by block. -/
theorem State.clearUnit_shape (s : State) (p : Port) : ∃ a, s.clearUnit p = { s with
    finishing := a
    spareMap := (s.forDrives State.undoesAt).spareMap
    ops := Vector.replicate 8 none
    paths := Vector.replicate 2 none
    positioners := s.positioners.map Positioner.clear
    suspects := []
    sharing := Vector.replicate 8 Sharing.empty
    queues := Vector.replicate 4 { notices := [], held := false }
    ports := Vector.ofFn fun q => (s.port q).cleared (decide (q = p)) } := by
  obtain ⟨a, b, hw⟩ := s.undoes_shape
  have hc : s.clearUnit p =
    let t := s.forDrives State.undoesAt
    { t with
      ops := Vector.replicate 8 none
      paths := Vector.replicate 2 none
      positioners := t.positioners.map Positioner.clear
      suspects := []
      sharing := Vector.replicate 8 Sharing.empty
      queues := Vector.replicate 4 { notices := [], held := false }
      ports := Vector.ofFn fun q => (t.port q).cleared (decide (q = p)) } := rfl
  rw [hc, hw]
  exact ⟨a, rfl⟩

/-- A port at UNIT CLEAR that is not the sender and connected: the end of its connection. -/
theorem PortRec.cleared_connected {r : PortRec} (h : r.state = .connected) :
    r.cleared false = ({ r with overflow := false } : PortRec).disconnected .idle := by
  simp [PortRec.cleared, h]

theorem PortRec.cleared_offering {r : PortRec} (h : r.state = .offering) (sender : Bool) :
    r.cleared sender = ({ r with overflow := false } : PortRec).withoutOffer := by
  simp [PortRec.cleared, h]

theorem PortRec.cleared_resetting {r : PortRec} (h : r.state = .resetting) (sender : Bool) :
    r.cleared sender = { r with overflow := false } := by
  simp [PortRec.cleared, h]

theorem Positioner.clear_moving {q : Positioner} (h : q.actuator = .seeking ∨ q.actuator = .recalibrating) : q.clear =
    { q with status := none, owned := false, motionTarget := none, deadline := none, calVoid := false, actuator := .uncalibrated,
             cyl := none, unanswered := min 2 (q.unanswered + 1) } := by
  have hm : q.inMotion = true := by
    rcases h with h | h <;> simp [Positioner.inMotion, h]
  simp [Positioner.clear, hm]

theorem Positioner.clear_still {q : Positioner} (h1 : q.actuator ≠ .seeking) (h2 : q.actuator ≠ .recalibrating) : q.clear =
    { q with status := none, owned := false, motionTarget := none, deadline := none, calVoid := false } := by
  simp [Positioner.clear, Positioner.inMotion, h1, h2]

/-- What every positioner has lost. -/
theorem Positioner.clear_all (q : Positioner) : q.clear.status = none ∧ q.clear.head = q.head ∧ q.clear.deadline = none ∧
    q.clear.motionTarget = none := by
  unfold Positioner.clear
  dsimp only
  split <;> exact ⟨rfl, rfl, rfl, rfl⟩

/-! ## Each item of the clearing -/

variable {v : State}

theorem State.clearUnit_port (s : State) (p q : Port) : (s.clearUnit p).port q = (s.port q).cleared (decide (q = p)) := by
  obtain ⟨a, h⟩ := s.clearUnit_shape p
  rw [h]
  simp [State.port]

theorem State.clearUnit_pos (s : State) (p : Port) (d : Drive) : (s.clearUnit p).pos d = (s.pos d).clear := by
  obtain ⟨a, h⟩ := s.clearUnit_shape p
  rw [h]
  simp [State.pos]

theorem State.clearUnit_spareMap (s : State) (p : Port) :
    (s.clearUnit p).spareMap = (s.forDrives State.undoesAt).spareMap := by
  obtain ⟨a, h⟩ := s.clearUnit_shape p
  rw [h]

theorem State.mem_clearUnit_spareMap (s : State) (p : Port) (x : SpareEntry) :
    x ∈ (s.clearUnit p).spareMap ↔ x ∈ s.undoneMap x.drive := by
  rw [State.clearUnit_spareMap]
  exact State.mem_undoes

theorem State.undoneMap_some {o : Operation} (h : s.op d = some o) : s.undoneMap d = o.undone d s.spareMap := by
  simp [State.undoneMap, h]

end Clear

/-- Settles O46: the spare map by the abort on each drive, the other blocks as UNIT CLEAR writes them. -/
theorem unitClearEmptiesTheUnit : Obligations.UnitClearEmptiesTheUnit := by
  unfold Obligations.UnitClearEmptiesTheUnit
  intro s u t h hu ht
  obtain ⟨a, hw⟩ := t.clearUnit_shape h.port
  refine ⟨t.clearUnit h.port, ?_, fun d => ⟨?_, ?_⟩, by rw [hw], by rw [hw], fun p => ?_, by rw [hw], by rw [hw], by rw [hw],
    by rw [hw], fun p => ?_, fun d => ?_, fun hn => ?_, fun d o x ho ha => ?_, fun e he => ?_⟩
  · unfold exec execUnitClear
    exact (State.perform_finds _ hu).trans (by rw [State.controlOrder_takes ht]; rfl)
  · rw [hw]
    simp [State.op]
  · rw [hw]
    simp [State.share, Sharing.empty]
  · rw [hw]
    simp [State.queue]
  · rw [State.clearUnit_port]
    have hset := (t.port p).cleared_settings (decide (p = h.port))
    simp only [PortRec.settings, Prod.mk.injEq] at hset
    obtain ⟨hstraps, hgroup, hchange, hadvised⟩ := hset
    refine ⟨hstraps, hgroup, hchange, hadvised, PortRec.cleared_overflow _ _, fun hp hs => ?_, fun hs => ?_, fun hp hs f hf => ?_⟩
    · rw [decide_eq_false hp]
      rcases hs with hs | hs
      · rw [PortRec.cleared_connected hs]
        rfl
      · rw [PortRec.cleared_offering hs]
        rfl
    · rw [PortRec.cleared_resetting hs]
      exact hs
    · rw [decide_eq_false hp, PortRec.cleared_connected hs] at hf
      rcases mem_afterConnection hf with ⟨a, st, e, -, rfl⟩ | ⟨a, o, -, rfl⟩
      · exact .inl ⟨a, st, rfl⟩
      · exact .inr ⟨a, o, rfl⟩
  · rw [State.clearUnit_pos]
    obtain ⟨hstatus, hhead, hdeadline, htarget⟩ := (t.pos d).clear_all
    refine ⟨hstatus, (Positioner.clear_keeps _).1, (Positioner.clear_keeps _).2.1, hhead, hdeadline, htarget, fun hm => ?_,
      fun h1 h2 => ?_⟩
    · rw [Positioner.clear_moving hm]
      exact ⟨rfl, rfl, rfl⟩
    · rw [Positioner.clear_still h1 h2]
      exact ⟨rfl, rfl, rfl⟩
  · rw [State.clearUnit_spareMap]
    exact State.undoes_plain hn
  · have hm : ∀ y : SpareEntry, y.drive = d → (y ∈ (t.clearUnit h.port).spareMap ↔ y ∈ o.undone d t.spareMap) := by
      rintro y rfl
      rw [State.mem_clearUnit_spareMap, State.undoneMap_some ho]
    refine ⟨fun hf e he hd => ?_, fun hf => ⟨fun e he hd hh => ?_, fun e he hd hh => ?_⟩⟩
    · have hy := (Operation.mem_undone_fresh ha hf).mp ((hm e hd).mp he)
      exact fun hh => hy.2 ⟨hd, hh⟩
    · obtain ⟨y, -, rfl⟩ := (Operation.mem_undone_kept ha hf).mp ((hm e hd).mp he)
      split at hh
      next hy => rw [if_pos hy]
      next hy =>
        rw [if_neg hy] at hd
        exact (hy ⟨hd, hh⟩).elim
    · exact (hm { e with pending := none } hd).mpr ((Operation.mem_undone_kept ha hf).mpr ⟨e, he, if_pos ⟨hd, hh⟩⟩)
  · rw [State.mem_clearUnit_spareMap]
    cases ho : t.op e.drive with
    | none => simp [State.undoneMap, ho]
    | some o =>
      rw [State.undoneMap_some ho]
      exact Operation.mem_undone_other ((he o ho).imp id fun hne h => hne h.2.symm)

end Sys2Proof.Machine
end

section
/-! SUPPORT. PORT RESET (8.8, 9.8): what one drive's part of it does, and what it keeps of the other drives and ports. -/

namespace Sys2Proof.Machine

open Sys2Proof

/-! ## A fold over the drives, each drive's part done once -/

-- The proofs before this one end before those after it begin: they have to compile within the check's memory.
set_option Elab.async false in
/-- If each part of a fold over the drives keeps I, leaves what holds of the drives to come and of those done, and makes P of Q at
its own drive, then P holds of every drive after it. -/
theorem foldl_after {I : State → Prop} {P Q : Drive → State → Prop} {f : State → Drive → State}
    (hI : ∀ s d, I s → I (f s d)) (hQ : ∀ s d e, I s → d ≠ e → Q e s → Q e (f s d))
    (hP : ∀ s d, I s → Q d s → P d (f s d)) (hK : ∀ s d e, I s → d ≠ e → P e s → P e (f s d)) :
    ∀ (l : List Drive), l.Nodup → ∀ s, I s → (∀ d ∈ l, Q d s) → (∀ d, d ∉ l → P d s) → I (l.foldl f s) ∧ ∀ d, P d (l.foldl f s) := by
  intro l
  induction l with
  | nil => exact fun _ s hi _ hp => ⟨hi, fun d => hp d List.not_mem_nil⟩
  | cons x l ih =>
    intro hn s hi hq hp
    obtain ⟨hx, hl⟩ := List.nodup_cons.mp hn
    refine ih hl _ (hI s x hi) (fun d hd => hQ s x d hi (fun h => hx (h ▸ hd)) (hq d (List.mem_cons_of_mem _ hd))) fun d hd => ?_
    by_cases h : d = x
    · subst h
      exact hP s d hi (hq d List.mem_cons_self)
    · exact hK s x d hi (Ne.symm h) (hp d (by simp [h, hd]))

theorem forDrives_after {I : State → Prop} {P Q : Drive → State → Prop} {f : State → Drive → State}
    (hI : ∀ s d, I s → I (f s d)) (hQ : ∀ s d e, I s → d ≠ e → Q e s → Q e (f s d))
    (hP : ∀ s d, I s → Q d s → P d (f s d)) (hK : ∀ s d e, I s → d ≠ e → P e s → P e (f s d)) (s : State) (hi : I s)
    (hq : ∀ d, Q d s) : I (s.forDrives f) ∧ ∀ d, P d (s.forDrives f) :=
  foldl_after hI hQ hP hK _ (by decide) s hi (fun d _ => hq d) fun d hd => absurd (mem_allDrives d) hd

/-! ## What the ends of offers, connections and operations leave of a port -/

section Ports
variable {s t : State} {d e : Drive} {p q : Port} {r r' : PortRec} {o : Operation}

/-- A port that carries no group any more for R173: DISABLED or RESETTING. -/
def PortRec.gone (r : PortRec) : Prop := r.state = .disabled ∨ r.state = .resetting

/-- What a reset elsewhere may do to a port: its group stays; a port in use stays in use; one that is gone, with no offer, stays
so. -/
def PortRec.Fades (r r' : PortRec) : Prop :=
  r'.group = r.group ∧ (¬ r.gone → ¬ r'.gone) ∧ (r.gone → r.offer = none → r'.gone ∧ r'.offer = none)

theorem PortRec.Fades.refl (r : PortRec) : r.Fades r := ⟨rfl, id, fun h1 h2 => ⟨h1, h2⟩⟩

theorem PortRec.Fades.trans {r'' : PortRec} (h1 : r.Fades r') (h2 : r'.Fades r'') : r.Fades r'' := by
  obtain ⟨g1, u1, n1⟩ := h1
  obtain ⟨g2, u2, n2⟩ := h2
  exact ⟨g2.trans g1, fun h => u2 (u1 h), fun hg ho => n2 (n1 hg ho).1 (n1 hg ho).2⟩

/-- A change of a port that leaves its state, group and offer. -/
theorem PortRec.Fades.of_eq (h1 : r'.state = r.state) (h2 : r'.group = r.group) (h3 : r'.offer = r.offer) : r.Fades r' := by
  refine ⟨h2, ?_, ?_⟩ <;> unfold PortRec.gone <;> rw [h1]
  · exact id
  · exact fun hg ho => ⟨hg, h3.trans ho⟩

theorem PortRec.fades_withoutOffer (h : r.offer ≠ none) : r.Fades r.withoutOffer :=
  ⟨rfl, fun _ => by simp [PortRec.gone, PortRec.withoutOffer], fun _ ho => absurd ho h⟩

theorem PortRec.fades_disconnected (h : r.state = .connected) : r.Fades (r.disconnected .idle) :=
  ⟨rfl, fun _ => by simp [PortRec.gone, PortRec.disconnected], fun hg => by simp [PortRec.gone, h] at hg⟩

theorem PortRec.fades_answered : r.Fades (r.answered d) := by
  unfold PortRec.answered
  split
  next => exact .of_eq rfl rfl rfl
  next => exact .refl r

theorem State.withdrawAt_port_ne (h : p ≠ q) : (s.withdrawAt d p).port q = s.port q := by
  unfold State.withdrawAt
  split
  next => simp [State.dropOffer, State.modPort_port_ne _ _ _ _ h]
  next => rfl

theorem State.withdrawAt_port_same :
    (s.withdrawAt d p).port p = if (s.port p).offersFor d then (s.port p).withoutOffer else s.port p := by
  unfold State.withdrawAt
  split
  next => simp [State.dropOffer]
  next => rfl

theorem State.withdrawOffersOf_port (s : State) (d : Drive) (q : Port) : (s.withdrawOffersOf d).port q =
    if (s.port q).offersFor d then (s.port q).withoutOffer else s.port q := by
  rw [State.withdrawOffersOf_eq]
  refine (forPorts_at (fun p s => s.port p) (fun s p q h => State.withdrawAt_port_ne h) (fun s t p h => ?_) s q).trans
    State.withdrawAt_port_same
  rw [State.withdrawAt_port_same, State.withdrawAt_port_same, h]

/-- A port without an offer has none to withdraw. -/
theorem State.withdrawOffersOf_port_none (h : (s.port q).offer = none) : (s.withdrawOffersOf d).port q = s.port q := by
  rw [State.withdrawOffersOf_port, if_neg]
  simp [PortRec.offersFor, h]

theorem State.withdrawOffersOf_fades : (s.port q).Fades ((s.withdrawOffersOf d).port q) := by
  rw [State.withdrawOffersOf_port]
  split
  next h =>
    refine PortRec.fades_withoutOffer fun hn => ?_
    simp [PortRec.offersFor, hn] at h
  next => exact .refl _

/-- The abort of an operation: its record, its offers and its motion, and the result of an alternate one. -/
theorem State.abortQuietly_shape (h : s.op d = some o) :
    ∃ a, s.abortQuietly d = ({ s.releaseOp d with lastAlt := a } : State).setOp d none := by
  unfold State.abortQuietly
  rw [h]
  dsimp only
  cases o.alt with
  | none => exact ⟨_, rfl⟩
  | some a => exact ⟨_, rfl⟩

theorem State.abortQuietly_op (h : s.op d = some o) (e : Drive) :
    (s.abortQuietly d).op e = if d = e then none else s.op e := by
  obtain ⟨a, ha⟩ := State.abortQuietly_shape h
  rw [ha]
  split
  next he => exact he ▸ State.setOp_op_same _ _ _
  next he => exact (State.setOp_op_ne _ _ _ _ he).trans (by simp [State.op, State.releaseOp])

theorem State.abortQuietly_port (h : s.op d = some o) : (s.abortQuietly d).port q = (s.withdrawOffersOf d).port q := by
  obtain ⟨a, ha⟩ := State.abortQuietly_shape h
  rw [ha]
  simp [State.port, State.releaseOp]

theorem State.abortQuietly_queue (h : s.op d = some o) : (s.abortQuietly d).queue q = s.queue q := by
  obtain ⟨a, ha⟩ := State.abortQuietly_shape h
  rw [ha]
  simp [State.queue, State.releaseOp]

theorem State.abortQuietly_share (h : s.op d = some o) : (s.abortQuietly d).share e = s.share e := by
  obtain ⟨a, ha⟩ := State.abortQuietly_shape h
  rw [ha]
  simp [State.share, State.releaseOp]

/-- The test of an owed set leaves the port it does not tell as it is. -/
theorem State.owedTest_port_notOwed (h : (s.share d).owes q = none) : (s.owedTest d).port q = s.port q := by
  have hv := congrArg (fun x => x.2.2.2.2.2) (State.owedTest_view s d q)
  rwa [State.testOwed_stays (.inl h)] at hv

theorem State.owedTest_fades : (s.port q).Fades ((s.owedTest d).port q) := by
  obtain ⟨b, hb⟩ := s.owedTest_port d q
  rw [hb]
  exact .of_eq rfl rfl rfl

theorem State.answerWaiting_fades : (s.port q).Fades ((s.answerWaiting d).port q) := by
  rw [State.answerWaiting_port]
  exact PortRec.fades_answered

/-- What a reset reads of an operation. -/
def Operation.core (o : Operation) : Port × Option Port × Option AltOp × Option Pending := (o.issuer, o.conn, o.alt, o.pending)

theorem State.endConnection_core (s : State) (p : Port) (d : Drive) :
    ((s.endConnection p).op d).map Operation.core = (s.op d).map Operation.core := by
  rw [State.endConnection_op]
  cases s.op d <;> rfl

theorem State.forgetDeferral_core (s : State) (p : Port) (d : Drive) :
    ((s.forgetDeferral p).op d).map Operation.core = (s.op d).map Operation.core := by
  rw [State.forgetDeferral_op]
  cases s.op d <;> rfl

theorem Operation.deferredBy_core (o : Operation) (p : Port) : (o.deferredBy p).core = o.core := by
  unfold Operation.deferredBy
  split
  next => split <;> rfl
  next => rfl

theorem State.modOp_core (s : State) (d : Drive) {f : Operation → Operation} (hf : ∀ o, (f o).core = o.core) (e : Drive) :
    ((s.modOp d f).op e).map Operation.core = (s.op e).map Operation.core := by
  by_cases h : d = e
  · subst h
    rw [State.modOp_op_same]
    cases s.op d with
    | none => rfl
    | some o => exact congrArg some (hf o)
  · rw [State.modOp_op_ne _ _ _ _ h]

theorem State.deferOffer_core (s : State) (p : Port) (d : Drive) :
    ((s.deferOffer p).op d).map Operation.core = (s.op d).map Operation.core := by
  unfold State.deferOffer
  split
  next => exact (State.modOp_core _ _ (fun o => o.deferredBy_core p) d).trans (by rw [State.freePathOfPort_op]; rfl)
  next => exact (State.modOp_core (s.dropOffer p) _ (f := fun o => { o with statusDeferred := o.statusDeferred.add p }) (fun o => rfl) d).trans rfl
  next => rfl
  next => rfl

/-- What the end of the other connection of an operation keeps. -/
theorem State.endOtherConnection_keeps (s : State) (d : Drive) (o : Operation) (p : Port) :
    (∀ e, (s.endOtherConnection d o p).share e = s.share e) ∧
    (∀ e, ((s.endOtherConnection d o p).op e).map Operation.core = (s.op e).map Operation.core) ∧
    (∀ q, (s.port q).Fades ((s.endOtherConnection d o p).port q)) ∧
    (s.endOtherConnection d o p).port p = s.port p ∧ (s.endOtherConnection d o p).queue p = s.queue p := by
  unfold State.endOtherConnection
  split
  next q hc =>
    split
    next => exact ⟨fun _ => rfl, fun _ => rfl, fun _ => .refl _, rfl, rfl⟩
    next hq =>
      obtain ⟨a, ha⟩ := s.leaveWrite_shape d none
      have hqp : q ≠ p := fun h => hq (.inl h)
      have hst : (s.port q).state = .connected := by
        by_contra h
        exact hq (.inr h)
      rw [ha]
      refine ⟨fun e => by simp [State.share], fun e => State.endConnection_core _ q e, fun x => ?_, ?_, ?_⟩
      · by_cases hx : x = q
        · subst hx
          rw [State.endConnection_port_same]
          exact PortRec.fades_disconnected hst
        · rw [State.endConnection_port_ne _ hx]
          exact .refl _
      · exact State.endConnection_port_ne _ hqp.symm
      · exact State.endConnection_queue_ne _ hqp.symm
  next => exact ⟨fun _ => rfl, fun _ => rfl, fun _ => .refl _, rfl, rfl⟩

end Ports

/-! ## One drive's part of a reset -/

section Reset
variable {s t : State} {d e : Drive} {p q : Port} {o : Operation} {g : Nat}

/-- What every part of the reset of p that is done at drive d leaves: the other drives, the port itself, which has neither an
offer nor an owed mark nor a wait, d's owner, and the other ports but for what fades. -/
structure State.ResetKeeps (d : Drive) (p : Port) (s t : State) : Prop where
  share : ∀ e, e ≠ d → t.share e = s.share e
  core : ∀ e, e ≠ d → (t.op e).map Operation.core = (s.op e).map Operation.core
  fades : ∀ q, (s.port q).Fades (t.port q)
  owner : (t.share d).owner = (s.share d).owner
  hold : (t.share d).hold = (s.share d).hold
  self : (s.port p).offer = none → (s.port p).awaiting = false → (s.share d).owes p = none →
    t.port p = s.port p ∧ t.queue p = s.queue p ∧ (t.share d).owes p = none

theorem State.ResetKeeps.refl (d : Drive) (p : Port) (s : State) : State.ResetKeeps d p s s :=
  ⟨fun _ _ => rfl, fun _ _ => rfl, fun _ => .refl _, rfl, rfl, fun _ _ h => ⟨rfl, rfl, h⟩⟩

theorem State.ResetKeeps.trans {u : State} (h1 : State.ResetKeeps d p s t) (h2 : State.ResetKeeps d p t u) :
    State.ResetKeeps d p s u where
  share e he := (h2.share e he).trans (h1.share e he)
  core e he := (h2.core e he).trans (h1.core e he)
  fades q := (h1.fades q).trans (h2.fades q)
  owner := h2.owner.trans h1.owner
  hold := h2.hold.trans h1.hold
  self ho ha hw := by
    obtain ⟨hp, hq, hs⟩ := h1.self ho ha hw
    obtain ⟨hp', hq', hs'⟩ := h2.self (by rwa [hp]) (by rwa [hp]) hs
    exact ⟨hp'.trans hp, hq'.trans hq, hs'⟩

theorem State.owedTest_resetKeeps (s : State) (d : Drive) (p : Port) : State.ResetKeeps d p s (s.owedTest d) where
  share e he := State.owedTest_share_ne s he
  core e _ := by rw [State.owedTest_op]
  fades q := State.owedTest_fades
  owner := State.owedTest_owner s d
  hold := State.owedTest_hold s d d
  self _ _ hw := by
    obtain ⟨hs, hq⟩ := State.owedTest_untold (s := s) (d := d) (q := p) (.inl hw)
    exact ⟨State.owedTest_port_notOwed hw, hq, hs.trans hw⟩

theorem State.answerWaiting_resetKeeps (s : State) (d : Drive) (p : Port) : State.ResetKeeps d p s (s.answerWaiting d) where
  share e _ := s.answerWaiting_share d e
  core e _ := by rw [State.answerWaiting_op]
  fades q := State.answerWaiting_fades
  owner := by rw [State.answerWaiting_share]
  hold := by rw [State.answerWaiting_share]
  self _ ha hw := by
    refine ⟨?_, s.answerWaiting_queue d p, by rw [State.answerWaiting_share]; exact hw⟩
    rw [State.answerWaiting_port]
    exact PortRec.answered_not ha

theorem State.withdrawOffersOf_resetKeeps (s : State) (d : Drive) (p : Port) :
    State.ResetKeeps d p s (s.withdrawOffersOf d) where
  share e _ := s.withdrawOffersOf_share d e
  core e _ := by rw [State.withdrawOffersOf_op]
  fades q := State.withdrawOffersOf_fades
  owner := by rw [State.withdrawOffersOf_share]
  hold := by rw [State.withdrawOffersOf_share]
  self ho _ hw :=
    ⟨State.withdrawOffersOf_port_none ho, s.withdrawOffersOf_queue d p, by rw [State.withdrawOffersOf_share]; exact hw⟩

theorem State.discardOp_resetKeeps (s : State) (d : Drive) (p : Port) : State.ResetKeeps d p s (s.discardOp d) where
  share _ _ := rfl
  core e he := congrArg _ (State.setOp_op_ne s d none e he.symm)
  fades _ := .refl _
  owner := rfl
  hold := rfl
  self _ _ hw := ⟨rfl, rfl, hw⟩

theorem State.abortQuietly_resetKeeps (h : s.op d = some o) : State.ResetKeeps d p s (s.abortQuietly d) where
  share e _ := State.abortQuietly_share h
  core e he := by rw [State.abortQuietly_op h, if_neg he.symm]
  fades q := by
    rw [State.abortQuietly_port h]
    exact State.withdrawOffersOf_fades
  owner := by rw [State.abortQuietly_share h]
  hold := by rw [State.abortQuietly_share h]
  self ho _ hw := by
    refine ⟨?_, State.abortQuietly_queue h, by rw [State.abortQuietly_share h]; exact hw⟩
    rw [State.abortQuietly_port h]
    exact State.withdrawOffersOf_port_none ho

theorem State.endOtherConnection_resetKeeps (s : State) (d : Drive) (o : Operation) (p : Port) :
    State.ResetKeeps d p s (s.endOtherConnection d o p) := by
  obtain ⟨hs, hc, hf, hp, hq⟩ := s.endOtherConnection_keeps d o p
  exact ⟨fun e _ => hs e, fun e _ => hc e, hf, by rw [hs], by rw [hs], fun _ _ hw => ⟨hp, hq, by rw [hs]; exact hw⟩⟩

theorem State.endOperation_resetKeeps (s : State) (d : Drive) (p : Port) : State.ResetKeeps d p s (s.endOperation d) :=
  ((s.discardOp_resetKeeps d p).trans (State.owedTest_resetKeeps _ d p)).trans (State.answerWaiting_resetKeeps _ d p)

theorem State.dropUnclaimed_resetKeeps (s : State) (d : Drive) (p : Port) : State.ResetKeeps d p s (s.dropUnclaimed d) := by
  unfold State.dropUnclaimed
  split
  next =>
    split
    next =>
      split
      next => exact (s.withdrawOffersOf_resetKeeps d p).trans (State.endOperation_resetKeeps _ d p)
      next => exact .refl ..
    next => exact .refl ..
  next => exact .refl ..

theorem State.resetOperation_resetKeeps (s : State) (d : Drive) (p : Port) :
    State.ResetKeeps d p s (s.resetOperation d p).1 := by
  unfold State.resetOperation
  split
  next o ho =>
    split
    next => exact .refl ..
    next =>
      split
      next =>
        refine (s.endOtherConnection_resetKeeps d o p).trans ?_
        have hcore := (s.endOtherConnection_keeps d o p).2.1 d
        rw [ho] at hcore
        obtain ⟨o', ho', -⟩ := Option.map_eq_some_iff.mp hcore
        exact State.abortQuietly_resetKeeps ho'
      next =>
        refine ⟨fun _ _ => rfl, fun e he => ?_, fun _ => .refl _, rfl, rfl, fun _ _ hw => ⟨rfl, rfl, hw⟩⟩
        exact congrArg _ (State.modOp_op_ne _ _ _ _ he.symm)
  next => exact .refl ..

/-- The reset of p, which carried g, clears the reservation of d (R173). -/
def State.resetClears (s : State) (d : Drive) (p : Port) (g : Nat) : Bool :=
  decide (g ≠ 0) && decide ((s.share d).owner = some g) && !s.groupStands p g

/-- d's sharing record as the reset of p first leaves it. -/
def State.resetShare (s : State) (d : Drive) (p : Port) (g : Nat) : State :=
  s.setShare d { owner := if s.resetClears d p g then none else (s.share d).owner
                 hold := if s.heldBy d p then none else (s.share d).hold
                 owed := (s.share d).owed.set p none }

theorem State.groupStands_congr (h : t.ports = s.ports) (p : Port) (g : Nat) : t.groupStands p g = s.groupStands p g := by
  unfold State.groupStands State.port
  rw [h]

/-- The reset's part at drive d: its sharing record, then its operation, then the tests and answers that follow. -/
theorem State.resetSharing_eq (s : State) (d : Drive) (p : Port) (g : Nat) : s.resetSharing d p g =
    let w := s.resetShare d p g
    let r := w.resetOperation d p
    let t := if s.heldBy d p || s.resetClears d p g || r.2 then r.1.owedTest d else r.1
    (if r.2 then t.answerWaiting d else t).dropUnclaimed d := by
  have hu : (if s.heldBy d p then s.dropHold d else s).removeOwed d p = s.setShare d { s.share d with
      hold := if s.heldBy d p then none else (s.share d).hold
      owed := (s.share d).owed.set p none } := by
    unfold State.removeOwed State.dropHold State.modShare
    split <;> simp
  have hc : ∀ x, x.owner = (s.share d).owner → (decide (g ≠ 0) && decide (((s.setShare d x).share d).owner = some g) &&
      !(s.setShare d x).groupStands p g) = s.resetClears d p g := by
    intro x hx
    rw [State.setShare_share_same, hx, State.groupStands_congr rfl]
    rfl
  have hs : (if s.resetClears d p g then ((if s.heldBy d p then s.dropHold d else s).removeOwed d p).modShare d
      fun x => { x with owner := none } else (if s.heldBy d p then s.dropHold d else s).removeOwed d p) = s.resetShare d p g := by
    rw [hu]
    unfold State.resetShare State.modShare
    split <;> simp
  unfold State.resetSharing
  dsimp only
  rw [← hs, hu, hc]
  rfl

theorem State.resetSharing_resetKeeps (s : State) (d : Drive) (p : Port) (g : Nat) :
    State.ResetKeeps d p (s.resetShare d p g) (s.resetSharing d p g) := by
  rw [State.resetSharing_eq]
  dsimp only
  refine ((State.resetOperation_resetKeeps _ d p).trans ?_).trans (State.dropUnclaimed_resetKeeps _ d p)
  generalize (s.resetShare d p g).resetOperation d p = r
  have htest : State.ResetKeeps d p r.1 (if s.heldBy d p || s.resetClears d p g || r.2 then r.1.owedTest d else r.1) := by
    split
    · exact State.owedTest_resetKeeps _ d p
    · exact .refl ..
  refine htest.trans ?_
  generalize (if s.heldBy d p || s.resetClears d p g || r.2 then r.1.owedTest d else r.1) = t
  split
  · exact State.answerWaiting_resetKeeps _ d p
  · exact .refl ..

theorem State.dropUnclaimed_noOp (h : s.op d = none) : s.dropUnclaimed d = s := by
  simp [State.dropUnclaimed, h]

/-- An operation without a pending status is not ended for want of a port to take it. -/
theorem State.dropUnclaimed_noStatus (h : s.op d = some o) (hp : o.pending = none) : s.dropUnclaimed d = s := by
  unfold State.dropUnclaimed
  rw [h]
  dsimp only
  rw [hp]
  split <;> simp_all

/-- Where the operation ends, the owed set is tested and the ports that wait for the end are answered. -/
theorem State.resetSharing_ended (hr : (s.resetShare d p g).resetOperation d p = (t, true)) :
    s.resetSharing d p g = ((t.owedTest d).answerWaiting d).dropUnclaimed d := by
  rw [State.resetSharing_eq]
  dsimp only
  rw [hr]
  simp

/-- Where it does not, nobody is answered, and the owed set is tested or is not. -/
theorem State.resetSharing_stands (hr : (s.resetShare d p g).resetOperation d p = (t, false)) :
    s.resetSharing d p g = (t.owedTest d).dropUnclaimed d ∨ s.resetSharing d p g = t.dropUnclaimed d := by
  rw [State.resetSharing_eq]
  dsimp only
  rw [hr]
  cases s.heldBy d p || s.resetClears d p g
  · exact .inr rfl
  · exact .inl rfl

/-- An operation of the port that the reset reaches is gone. -/
theorem State.resetSharing_ends (h : s.op d = some o) (hp : o.ofPort p = true) (ha : o.abortable = true) :
    (s.resetSharing d p g).op d = none := by
  have hw : (s.resetShare d p g).op d = some o := h
  have hcore := ((s.resetShare d p g).endOtherConnection_keeps d o p).2.1 d
  rw [hw] at hcore
  obtain ⟨o', ho', -⟩ := Option.map_eq_some_iff.mp hcore
  have hr : (s.resetShare d p g).resetOperation d p =
      (((s.resetShare d p g).endOtherConnection d o p).abortQuietly d, true) := by
    unfold State.resetOperation
    rw [hw]
    simp [hp, ha]
  have hop : (((((s.resetShare d p g).endOtherConnection d o p).abortQuietly d).owedTest d).answerWaiting d).op d = none := by
    rw [State.answerWaiting_op, State.owedTest_op, State.abortQuietly_op ho', if_pos rfl]
  rw [State.resetSharing_ended hr, State.dropUnclaimed_noOp hop, hop]

/-- An alternate operation past its write point loses its issuer claim and runs on. -/
theorem State.resetSharing_passes {a : AltOp} (h : s.op d = some o) (hp : o.ofPort p = true) (ha : o.alt = some a)
    (hw : a.writePassed = true) (hn : o.pending = none) :
    (s.resetSharing d p g).op d = some { o with alt := some { a with issuerHeld := false } } := by
  have hop : (s.resetShare d p g).op d = some o := h
  have hr : (s.resetShare d p g).resetOperation d p =
      ((s.resetShare d p g).modAlt d fun a => { a with issuerHeld := false }, false) := by
    unfold State.resetOperation
    rw [hop]
    simp [hp, Operation.abortable, ha, hw]
  have hmod : ((s.resetShare d p g).modAlt d fun a => { a with issuerHeld := false }).op d =
      some { o with alt := some { a with issuerHeld := false } } := by
    unfold State.modAlt
    rw [State.modOp_op_same, hop, Option.map_some, ha]
    rfl
  rcases State.resetSharing_stands hr with e | e <;> rw [e]
  · have htest := (State.owedTest_op (s := (s.resetShare d p g).modAlt d fun a => { a with issuerHeld := false }) d d).trans hmod
    rw [State.dropUnclaimed_noStatus htest hn, htest]
  · rw [State.dropUnclaimed_noStatus hmod hn, hmod]

/-! ## The reset as a whole -/

/-- The port's record once the reset has begun. -/
structure PortRec.Emptied (r : PortRec) (straps : Straps) : Prop where
  state : r.state = .resetting
  straps : r.straps = straps
  group : r.group = 0
  masks : r.maskStateChange = true ∧ r.maskSpareAdvised = true
  overflow : r.overflow = false
  conn : r.conn = none
  offer : r.offer = none
  awaiting : r.awaiting = false
  link : ∀ f ∈ r.link, ∃ (a : Nat) (st : Status), f = .status a { st with disconnect := true } false

theorem PortRec.reset_emptied (r : PortRec) : r.reset.Emptied r.straps := by
  refine ⟨rfl, rfl, rfl, ⟨rfl, rfl⟩, rfl, rfl, rfl, rfl, fun f hf => ?_⟩
  rcases mem_afterConnection hf with ⟨a, st, e, -, rfl⟩ | ⟨a, o, ho, rfl⟩
  · exact ⟨a, st, rfl⟩
  · simp [PortRec.withoutOffer, OutFrame.isOffer] at ho

/-- The state in which the drives are taken one by one. -/
def State.resetBegun (s : State) (p : Port) : State :=
  let t := (s.deferOffer p).forDrives fun s d => s.leavePortWrite d p
  (((t.modPort p PortRec.reset).freePathOfPort p).forgetDeferral p).setQueue p { notices := [], held := false }

theorem State.leavePortWrite_shape (s : State) (d : Drive) (p : Port) :
    ∃ a, s.leavePortWrite d p = { s with finishing := a } := by
  unfold State.leavePortWrite
  split
  next => exact s.leaveWrite_shape d _
  next => exact ⟨_, rfl⟩

theorem State.leavePortWrites_shape (s : State) (p : Port) :
    ∃ a, (s.forDrives fun s d => s.leavePortWrite d p) = { s with finishing := a } := by
  refine foldl_ind (P := fun t => ∃ a, t = { s with finishing := a }) _ _ s ⟨_, rfl⟩ fun u d h => ?_
  obtain ⟨a, rfl⟩ := h
  exact State.leavePortWrite_shape _ d p

theorem State.resetPort_eq (s : State) (p : Port) : s.resetPort p =
    let t := (s.resetBegun p).forDrives fun t d => t.resetSharing d p (s.port p).group
    match t.waitsForWrite p with
    | some d => t.modPort p fun r => { r with resetDrive := some d }
    | none => t.endReset p := rfl

theorem State.deferOffer_port_ne (s : State) (h : q ≠ p) : (s.deferOffer p).port q = s.port q := by
  unfold State.deferOffer
  split <;> simp [State.dropOffer, State.modPort_port_ne _ _ _ _ h.symm]

theorem State.deferOffer_straps (s : State) (p : Port) : ((s.deferOffer p).port p).straps = (s.port p).straps := by
  unfold State.deferOffer
  split <;> simp [State.dropOffer, PortRec.withoutOffer]

theorem State.resetBegun_self (s : State) (p : Port) :
    ((s.resetBegun p).port p).Emptied (s.port p).straps ∧ (s.resetBegun p).queue p = { notices := [], held := false } := by
  obtain ⟨a, ha⟩ := (s.deferOffer p).leavePortWrites_shape p
  unfold State.resetBegun
  rw [ha]
  refine ⟨?_, by simp⟩
  have hport : ((((State.modPort { s.deferOffer p with finishing := a } p PortRec.reset).freePathOfPort p).forgetDeferral
      p).setQueue p { notices := [], held := false }).port p = ((s.deferOffer p).port p).reset := by
    rw [State.setQueue_port, State.forgetDeferral_port, State.freePathOfPort_port, State.modPort_port_same]
    rfl
  rw [hport, ← s.deferOffer_straps p]
  exact PortRec.reset_emptied _

theorem State.resetBegun_others (s : State) (p : Port) : (∀ q, q ≠ p → (s.resetBegun p).port q = s.port q) ∧
    (∀ d, (s.resetBegun p).share d = s.share d) ∧
    ∀ d, ((s.resetBegun p).op d).map Operation.core = (s.op d).map Operation.core := by
  obtain ⟨a, ha⟩ := (s.deferOffer p).leavePortWrites_shape p
  unfold State.resetBegun
  rw [ha]
  refine ⟨fun q hq => ?_, fun d => ?_, fun d => ?_⟩
  · dsimp only
    rw [State.setQueue_port, State.forgetDeferral_port, State.freePathOfPort_port, State.modPort_port_ne _ _ _ _ hq.symm]
    exact s.deferOffer_port_ne hq
  · dsimp only
    rw [State.setQueue_share, State.forgetDeferral_share, State.freePathOfPort_share, State.modPort_share]
    exact s.deferOffer_share p d
  · dsimp only
    rw [State.setQueue_op, State.forgetDeferral_core, State.freePathOfPort_op, State.modPort_op]
    exact s.deferOffer_core p d

theorem State.groupStands_iff : s.groupStands p g = true ↔ ∃ q, q ≠ p ∧ (s.port q).group = g ∧ ¬ (s.port q).gone := by
  unfold State.groupStands PortRec.gone
  simp only [List.any_eq_true, Bool.and_eq_true, decide_eq_true_eq, not_or, and_assoc]
  exact ⟨fun ⟨q, _, h⟩ => ⟨q, h⟩, fun ⟨q, h⟩ => ⟨q, mem_allPorts q, h⟩⟩

/-- Whether a group still stands is the same after parts of the reset, where no port that is gone has an offer. -/
theorem State.groupStands_fades (hf : ∀ q, q ≠ p → (s.port q).Fades (t.port q))
    (hn : ∀ q, (s.port q).gone → (s.port q).offer = none) : t.groupStands p g = s.groupStands p g := by
  rw [Bool.eq_iff_iff, State.groupStands_iff, State.groupStands_iff]
  refine exists_congr fun q => and_congr_right fun hq => ?_
  obtain ⟨hg, hu, hd⟩ := hf q hq
  rw [hg]
  exact and_congr_right fun _ => ⟨fun h hs => h (hd hs (hn q hs)).1, hu⟩

/-- What holds throughout the reset of p begun in u: the port has given up all it had, and the others fade. -/
def State.Resetting (u : State) (p : Port) (s : State) : Prop :=
  (s.port p).Emptied (u.port p).straps ∧ s.queue p = { notices := [], held := false } ∧
    ∀ q, q ≠ p → (u.port q).Fades (s.port q)

/-- What holds of a drive whose part of the reset is still to come. -/
def State.BeforeReset (u : State) (d : Drive) (s : State) : Prop :=
  (s.op d).map Operation.core = (u.op d).map Operation.core ∧ (s.share d).owner = (u.share d).owner

/-- What holds of a drive whose part of the reset is done. -/
structure State.AfterReset (u : State) (p : Port) (d : Drive) (s : State) : Prop where
  owes : (s.share d).owes p = none
  hold : ∀ x, (s.share d).hold = some x → x.port ≠ p
  ended : ∀ o, u.op d = some o → o.ofPort p = true → o.abortable = true → s.op d = none
  passed : ∀ o a, u.op d = some o → o.ofPort p = true → o.alt = some a → a.writePassed = true → o.pending = none →
    ∃ o', s.op d = some o' ∧ o'.alt = some { a with issuerHeld := false }
  owner : (∀ q, (u.port q).gone → (u.port q).offer = none) →
    (s.share d).owner = if u.resetClears d p (u.port p).group then none else (u.share d).owner
  free : (u.share d).owner = none → (s.share d).owner = none

variable {u : State}

theorem State.resetSharing_self (hi : u.Resetting p s) : u.Resetting p (s.resetSharing d p g) := by
  obtain ⟨he, hq, hf⟩ := hi
  have hk := s.resetSharing_resetKeeps d p g
  have howes : ((s.resetShare d p g).share d).owes p = none := by
    unfold State.resetShare
    rw [State.setShare_share_same]
    simp [Sharing.owes]
  obtain ⟨h1, h2, -⟩ := hk.self he.offer he.awaiting howes
  refine ⟨?_, h2.trans hq, fun q hqp => (hf q hqp).trans (hk.fades q)⟩
  rw [h1]
  exact he

theorem State.resetSharing_share_ne (h : d ≠ e) : (s.resetSharing d p g).share e = s.share e :=
  ((s.resetSharing_resetKeeps d p g).share e h.symm).trans (State.setShare_share_ne _ _ _ _ h)

theorem State.resetSharing_core_ne (h : d ≠ e) :
    ((s.resetSharing d p g).op e).map Operation.core = (s.op e).map Operation.core :=
  (s.resetSharing_resetKeeps d p g).core e h.symm

theorem State.AfterReset.congr (h : u.AfterReset p d s) (hs : t.share d = s.share d)
    (ho : (t.op d).map Operation.core = (s.op d).map Operation.core) : u.AfterReset p d t where
  owes := by rw [hs]; exact h.owes
  hold := by rw [hs]; exact h.hold
  ended o h1 h2 h3 := by
    rw [h.ended o h1 h2 h3] at ho
    simpa using ho
  passed o a h1 h2 h3 h4 h5 := by
    obtain ⟨o', ho', ha⟩ := h.passed o a h1 h2 h3 h4 h5
    rw [ho'] at ho
    obtain ⟨o'', ho'', hc⟩ := Option.map_eq_some_iff.mp ho
    simp only [Operation.core, Prod.mk.injEq] at hc
    obtain ⟨-, -, halt, -⟩ := hc
    exact ⟨o'', ho'', halt.trans ha⟩
  owner := by rw [hs]; exact h.owner
  free := by rw [hs]; exact h.free

theorem State.resetSharing_after (hi : u.Resetting p s) (hb : u.BeforeReset d s) :
    u.AfterReset p d (s.resetSharing d p (u.port p).group) := by
  obtain ⟨hcore, howner⟩ := hb
  obtain ⟨he, -, hf⟩ := hi
  have hk := s.resetSharing_resetKeeps d p (u.port p).group
  have hshare : (s.resetShare d p (u.port p).group).share d =
      { owner := if s.resetClears d p (u.port p).group then none else (s.share d).owner
        hold := if s.heldBy d p then none else (s.share d).hold
        owed := (s.share d).owed.set p none } := State.setShare_share_same _ _ _
  have howes : ((s.resetShare d p (u.port p).group).share d).owes p = none := by
    rw [hshare]
    simp [Sharing.owes]
  have hop : ∀ o, u.op d = some o → ∃ o', s.op d = some o' ∧ o'.core = o.core := fun o ho => by
    rw [ho] at hcore
    exact Option.map_eq_some_iff.mp hcore
  have hself : ((s.resetShare d p (u.port p).group).port p) = s.port p := rfl
  refine ⟨(hk.self he.offer he.awaiting howes).2.2, fun x hx hp => ?_, fun o ho h1 h2 => ?_, fun o a ho h1 h2 h3 h4 => ?_,
    fun hn => ?_, fun hn => ?_⟩
  · rw [hk.hold, hshare] at hx
    dsimp only at hx
    split at hx
    next => cases hx
    next hh => exact hh (State.heldBy_iff.mpr ⟨x, hx, hp⟩)
  · obtain ⟨o', ho', hc⟩ := hop o ho
    simp only [Operation.core, Prod.mk.injEq] at hc
    obtain ⟨hi, hco, ha, -⟩ := hc
    refine State.resetSharing_ends ho' ?_ ?_
    · unfold Operation.ofPort at h1 ⊢
      rwa [hi, hco]
    · unfold Operation.abortable at h2 ⊢
      rwa [ha]
  · obtain ⟨o', ho', hc⟩ := hop o ho
    simp only [Operation.core, Prod.mk.injEq] at hc
    obtain ⟨hi, hco, ha, hp⟩ := hc
    refine ⟨_, State.resetSharing_passes ho' ?_ (ha.trans h2) h3 (hp.trans h4), rfl⟩
    unfold Operation.ofPort at h1 ⊢
    rwa [hi, hco]
  · rw [hk.owner, hshare]
    unfold State.resetClears
    rw [State.groupStands_fades hf hn, howner]
  · rw [hk.owner, hshare, howner, hn]
    simp

/-- All the drives' parts taken. -/
def State.resetDone (u : State) (p : Port) : State :=
  (u.resetBegun p).forDrives fun t d => t.resetSharing d p (u.port p).group

theorem State.resetDone_after (u : State) (p : Port) :
    u.Resetting p (u.resetDone p) ∧ ∀ d, u.AfterReset p d (u.resetDone p) := by
  obtain ⟨hself, hqueue⟩ := u.resetBegun_self p
  obtain ⟨hport, hshare, hcore⟩ := u.resetBegun_others p
  refine forDrives_after (I := u.Resetting p) (Q := u.BeforeReset) (P := u.AfterReset p) (fun s d hi => State.resetSharing_self hi)
    (fun s d e hi hde hb => ?_) (fun s d hi hb => State.resetSharing_after hi hb) (fun s d e hi hde ha => ?_) _ ?_ fun d => ?_
  · exact ⟨(State.resetSharing_core_ne hde).trans hb.1, by rw [State.resetSharing_share_ne hde, hb.2]⟩
  · exact ha.congr (State.resetSharing_share_ne hde) (State.resetSharing_core_ne hde)
  · exact ⟨hself, hqueue, fun q hq => by rw [hport q hq]; exact .refl _⟩
  · exact ⟨hcore d, by rw [hshare]⟩

/-- At the end the port is IDLE, or RESETTING with the drive whose write it waits for. -/
theorem State.resetPort_shape (u : State) (p : Port) : ∃ x y, u.resetPort p = (u.resetDone p).setPort p
    { (u.resetDone p).port p with state := x, resetDrive := y } ∧
    (((u.resetDone p).port p).state = .resetting → x = .idle ∨ x = .resetting ∧ y.isSome = true) := by
  have he : u.resetPort p = match (u.resetDone p).waitsForWrite p with
    | some d => (u.resetDone p).modPort p fun r => { r with resetDrive := some d }
    | none => (u.resetDone p).endReset p := rfl
  rw [he]
  cases (u.resetDone p).waitsForWrite p with
  | some d => exact ⟨_, _, rfl, fun h => .inr ⟨h, rfl⟩⟩
  | none =>
    dsimp only
    unfold State.endReset State.modPort
    dsimp only
    split
    next => exact ⟨_, _, rfl, fun _ => .inl rfl⟩
    next h => exact ⟨_, _, rfl, fun hs => absurd hs h⟩

theorem Operation.ofPort_iff : o.ofPort p = true ↔ o.issuer = p ∨ o.conn = some p := by
  simp [Operation.ofPort]

end Reset

/-- Settles O51: the port gives up all it had, then each drive's part is done once and the parts of the others leave it. -/
theorem portResetClearsThePort : Obligations.PortResetClearsThePort := by
  unfold Obligations.PortResetClearsThePort
  intro s u p hu
  have hexec : exec (.portReset p) s = .next (if (u.port p).state = .disabled ∨ (u.port p).state = .resetting then u
      else u.resetPort p).serveClaims := by
    unfold exec execPortReset
    exact State.perform_finds _ hu
  refine ⟨fun h => by rw [hexec, if_pos h], fun h1 h2 => ?_⟩
  rw [hexec, if_neg (by simp [h1, h2])]
  obtain ⟨⟨he, hqueue, -⟩, ha⟩ := u.resetDone_after p
  obtain ⟨x, y, hv, hx⟩ := u.resetPort_shape p
  have hport : (u.resetPort p).port p = { (u.resetDone p).port p with state := x, resetDrive := y } := by
    rw [hv, State.setPort_port_same]
  have hop : ∀ d, (u.resetPort p).op d = (u.resetDone p).op d := fun d => by rw [hv, State.setPort_op]
  have hshare : ∀ d, (u.resetPort p).share d = (u.resetDone p).share d := fun d => by rw [hv, State.setPort_share]
  refine ⟨_, rfl, by rw [hport]; exact hx he.state, by rw [hport]; exact he.straps, by rw [hport]; exact he.group,
    by rw [hport]; exact he.masks.1, by rw [hport]; exact he.masks.2, by rw [hport]; exact he.overflow,
    by rw [hport]; exact he.conn, by rw [hport]; exact he.offer, by rw [hv, State.setPort_queue]; exact hqueue,
    by rw [hport]; exact he.link, fun d => by rw [hshare]; exact ⟨(ha d).owes, (ha d).hold⟩, fun d o ho hn hp => ?_,
    fun d o a ho hal hp hw => ?_, fun d o a ho hal hp hw hn => ?_, fun d hn => by rw [hshare]; exact (ha d).free hn,
    fun d g hg hn => ?_⟩
  · rw [hop]
    exact (ha d).ended o ho (Operation.ofPort_iff.mpr hp) (Operation.abortable_iff.mpr (by simp [hn]))
  · rw [hop]
    exact (ha d).ended o ho (Operation.ofPort_iff.mpr hp) (Operation.abortable_iff.mpr (by simp [hal, hw]))
  · rw [hop]
    exact (ha d).passed o a ho (Operation.ofPort_iff.mpr hp) hal hw hn
  · rw [hshare, (ha d).owner hn, hg]
    refine if_congr ?_ rfl rfl
    unfold State.resetClears
    rw [Bool.and_eq_true, Bool.and_eq_true, Bool.not_eq_true', ← Bool.not_eq_true, State.groupStands_iff, hg,
      decide_eq_true_eq, decide_eq_true_eq]
    constructor
    · rintro ⟨⟨hg0, hgp⟩, hs⟩
      cases hgp
      exact ⟨hg0, rfl, fun q hq hqg => by_contra fun hne => hs ⟨q, hq, hqg, hne⟩⟩
    · rintro ⟨hg0, rfl, hs⟩
      exact ⟨⟨hg0, rfl⟩, fun ⟨q, hq, hqg, hne⟩ => hne (hs q hq hqg)⟩

end Sys2Proof.Machine
end

section
/-! SUPPORT. READY GAINED and READY LOST (3.7, 9.6, 9.7): what they do at each block and each port. -/

namespace Sys2Proof.Machine

open Sys2Proof

/-! ## STATE-CHANGE (R171, R172) -/

section Change
variable {s t u before : State} {d e : Drive} {p q : Port} {r r' : PortRec} {o : Operation}

-- The proofs before this one end before those after it begin: they have to compile within the check's memory.
set_option Elab.async false in
theorem State.postStateChange_queue : (s.postStateChange before d).queue q =
    if ((before.port q).state = .idle ∨ (before.port q).state = .connected) ∧ (before.port q).maskStateChange = true
    then (s.post q (.stateChange d)).queue q else s.queue q := by
  have he : s.postStateChange before d = s.forPorts (postsWhere d (.stateChange d) fun _ _ p => decide
      (((before.port p).state = .idle ∨ (before.port p).state = .connected) ∧ (before.port p).maskStateChange = true)) := by
    unfold State.postStateChange postsWhere
    simp
  rw [he, State.postAll_queue]
  exact if_congr decide_eq_true_iff rfl rfl

theorem State.postStateChange_port (s : State) (q : Port) :
    ∃ b, (s.postStateChange before d).port q = { s.port q with overflow := b } := by
  have he : s.postStateChange before d = s.forPorts (postsWhere d (.stateChange d) fun _ _ p => decide
      (((before.port p).state = .idle ∨ (before.port p).state = .connected) ∧ (before.port p).maskStateChange = true)) := by
    unfold State.postStateChange postsWhere
    simp
  rw [he]
  exact State.postAll_port s q

/-! ## What READY LOST keeps of a port, and DEVICE-FREE on its way -/

/-- The port neither becomes nor ceases to be one that is given notices, and its head notice is offered as before. -/
def PortRec.Lives (r r' : PortRec) : Prop :=
  r'.offersNotice = r.offersNotice ∧ (r.state ≠ .disabled → r'.state ≠ .disabled) ∧
  (r.state = .disabled → r.offer = none → r'.state = .disabled ∧ r'.offer = none)

theorem PortRec.Lives.refl (r : PortRec) : r.Lives r := ⟨rfl, id, fun h1 h2 => ⟨h1, h2⟩⟩

theorem PortRec.Lives.trans {r'' : PortRec} (h1 : r.Lives r') (h2 : r'.Lives r'') : r.Lives r'' := by
  obtain ⟨n1, e1, g1⟩ := h1
  obtain ⟨n2, e2, g2⟩ := h2
  exact ⟨n2.trans n1, fun h => e2 (e1 h), fun ha hb => g2 (g1 ha hb).1 (g1 ha hb).2⟩

theorem PortRec.offersNotice_congr (h : r'.offer = r.offer) : r'.offersNotice = r.offersNotice := by
  unfold PortRec.offersNotice
  rw [h]

theorem PortRec.offersNotice_none (h : r.offer = none) : r.offersNotice = false := by
  simp [PortRec.offersNotice, h]

/-- A change of a port that leaves its state and its offer. -/
theorem PortRec.Lives.of_eq (h1 : r'.state = r.state) (h2 : r'.offer = r.offer) : r.Lives r' := by
  refine ⟨PortRec.offersNotice_congr h2, ?_, ?_⟩ <;> rw [h1]
  · exact id
  · exact fun ha hb => ⟨ha, h2.trans hb⟩

/-- An offer of d's operation withdrawn. -/
theorem PortRec.lives_withoutOffer (h : r.offersFor d = true) : r.Lives r.withoutOffer := by
  have hn : r.offersNotice = false := by
    rw [← Bool.not_eq_true, PortRec.offersNotice_iff]
    rintro ⟨x, b, ho⟩
    simp [PortRec.offersFor, ho, Offer.concerns] at h
  refine ⟨by rw [hn]; rfl, fun _ => by simp [PortRec.withoutOffer], fun _ ho => ?_⟩
  simp [PortRec.offersFor, ho] at h

theorem PortRec.lives_endReset {y : Option Drive} (h : r.state = .resetting) :
    r.Lives { r with state := .idle, resetDrive := y } :=
  ⟨rfl, fun _ => by simp, fun hd => by simp [h] at hd⟩

theorem PortRec.lives_answered : r.Lives (r.answered d) := by
  unfold PortRec.answered
  split
  next => exact .of_eq rfl rfl
  next => exact .refl r

/-- Of d's owed set and the queue of p, from s to t: nothing, or the DEVICE-FREE that the port was owed. A DISABLED port without
an offer is told nothing. -/
structure State.Frees (d : Drive) (p : Port) (s t : State) : Prop where
  lives : (s.port p).Lives (t.port p)
  silent : (s.port p).state = .disabled → (s.port p).offer = none → t.queue p = s.queue p
  tells : (s.port p).state ≠ .disabled →
    ((t.share d).owes p = (s.share d).owes p ∧ (t.queue p).notices = (s.queue p).notices) ∨
    (((s.share d).owes p).isSome = true ∧ (t.share d).owes p = none ∧
      (t.queue p).notices = (enterQueue (s.queue p).notices (s.port p).offersNotice (.deviceFree d)).1)

theorem State.Frees.refl (d : Drive) (p : Port) (s : State) : State.Frees d p s s := ⟨.refl _, fun _ _ => rfl, fun _ => .inl ⟨rfl, rfl⟩⟩

theorem State.Frees.trans (h1 : State.Frees d p s t) (h2 : State.Frees d p t u) : State.Frees d p s u where
  lives := h1.lives.trans h2.lives
  silent hd ho := by
    obtain ⟨hd', ho'⟩ := h1.lives.2.2 hd ho
    exact (h2.silent hd' ho').trans (h1.silent hd ho)
  tells hd := by
    rcases h1.tells hd with ⟨hw, hq⟩ | ⟨hw, hn, hq⟩ <;> rcases h2.tells (h1.lives.2.1 hd) with ⟨hw', hq'⟩ | ⟨hw', hn', hq'⟩
    · exact .inl ⟨hw'.trans hw, hq'.trans hq⟩
    · exact .inr ⟨by rwa [hw] at hw', hn', by rw [hq', hq, h1.lives.1]⟩
    · exact .inr ⟨hw, hw'.trans hn, hq'.trans hq⟩
    · rw [hn] at hw'
      cases hw'

/-- A step that touches neither queues nor sharing records. -/
theorem State.Frees.of_port (hl : (s.port p).Lives (t.port p)) (hq : t.queue p = s.queue p) (hs : t.share d = s.share d) :
    State.Frees d p s t :=
  ⟨hl, fun _ _ => hq, fun _ => .inl ⟨by rw [hs], by rw [hq]⟩⟩

theorem State.owedTest_frees (s : State) (d : Drive) (p : Port) : State.Frees d p s (s.owedTest d) := by
  obtain ⟨b, hb⟩ := s.owedTest_port d p
  have hl : (s.port p).Lives ((s.owedTest d).port p) := by
    rw [hb]
    exact .of_eq rfl rfl
  by_cases h : (s.share d).owes p = none ∨ ∃ m, (s.share d).owes p = some m ∧ s.admittedNow d p m = false
  · obtain ⟨hw, hq⟩ := State.owedTest_untold h
    exact ⟨hl, fun _ _ => hq, fun _ => .inl ⟨hw, by rw [hq]⟩⟩
  · obtain ⟨hn, ha⟩ := not_or.mp h
    obtain ⟨m, hm⟩ := Option.ne_none_iff_exists'.mp hn
    have hadm : s.admittedNow d p m = true := by
      by_contra hc
      exact ha ⟨m, hm, by simpa using hc⟩
    obtain ⟨hw, hq⟩ := State.owedTest_told hm hadm
    refine ⟨hl, fun hd _ => hq.trans (by rw [State.post_disabled hd]), fun hd => .inr ⟨by rw [hm]; rfl, hw, ?_⟩⟩
    rw [hq, State.post_queue, if_pos ⟨rfl, hd⟩]

theorem State.answerWaiting_frees (s : State) (d : Drive) (p : Port) : State.Frees d p s (s.answerWaiting d) := by
  refine .of_port ?_ (s.answerWaiting_queue d p) (s.answerWaiting_share d d)
  rw [State.answerWaiting_port]
  exact PortRec.lives_answered

theorem State.endOperation_frees (s : State) (d : Drive) (p : Port) : State.Frees d p s (s.endOperation d) :=
  ((State.Frees.of_port (s := s) (t := s.discardOp d) (.refl _) rfl rfl).trans (State.owedTest_frees _ d p)).trans
    (State.answerWaiting_frees _ d p)

theorem State.withdrawOffersOf_frees (s : State) (d : Drive) (p : Port) : State.Frees d p s (s.withdrawOffersOf d) := by
  refine .of_port ?_ (s.withdrawOffersOf_queue d p) (s.withdrawOffersOf_share d d)
  rw [State.withdrawOffersOf_port]
  split
  next h => exact PortRec.lives_withoutOffer h
  next => exact .refl _

theorem State.dropUnclaimed_frees (s : State) (d : Drive) (p : Port) : State.Frees d p s (s.dropUnclaimed d) := by
  unfold State.dropUnclaimed
  split
  next =>
    split
    next =>
      split
      next => exact (s.withdrawOffersOf_frees d p).trans (State.endOperation_frees _ d p)
      next => exact .refl ..
    next => exact .refl ..
  next => exact .refl ..

/-- The end of a connection, at a port that has no offer beside it. -/
theorem State.endConnection_frees (h : q = p → (s.port p).offer = none ∧ (s.port p).state ≠ .disabled) :
    State.Frees d p s (s.endConnection q) := by
  by_cases hq : q = p
  · subst hq
    obtain ⟨ho, hd⟩ := h rfl
    refine ⟨?_, fun hs => absurd hs hd, fun _ => .inl ⟨by rw [State.endConnection_share], ?_⟩⟩
    · rw [State.endConnection_port_same]
      exact ⟨(PortRec.offersNotice_none rfl).trans (PortRec.offersNotice_none ho).symm, fun _ => by simp [PortRec.disconnected],
        fun hs => absurd hs hd⟩
    · rw [State.endConnection_queue_same]
  · refine .of_port ?_ (State.endConnection_queue_ne s (Ne.symm hq)) (s.endConnection_share q d)
    rw [State.endConnection_port_ne s (Ne.symm hq)]
    exact .refl _

/-! ## The steps of READY LOST (R50, R104, R171) -/

/-- The write left to be finished is dropped: of a port, at most RESETTING ends. -/
theorem State.dropFinishing_port (s : State) (d : Drive) (q : Port) : ∃ x y,
    (s.dropFinishing d).port q = { s.port q with state := x, resetDrive := y } ∧
    (s.port q).Lives ((s.dropFinishing d).port q) := by
  have hsame : ∃ x y, s.port q = { s.port q with state := x, resetDrive := y } ∧ (s.port q).Lives (s.port q) :=
    ⟨_, _, rfl, .refl _⟩
  unfold State.dropFinishing
  split
  next f _ =>
    dsimp only
    split
    next p _ =>
      unfold State.endReset
      by_cases hp : p = q
      · subst hp
        rw [State.modPort_port_same, State.setFinish_port]
        split
        next h => exact ⟨_, _, rfl, PortRec.lives_endReset h⟩
        next => exact hsame
      · rw [State.modPort_port_ne _ _ _ _ hp]
        exact hsame
    next => exact hsame
  next => exact hsame

theorem State.dropFinishing_shape (s : State) (d : Drive) :
    ∃ a b, s.dropFinishing d = { s with ports := a, finishing := b } ∧ (s.dropFinishing d).finish d = none := by
  unfold State.dropFinishing
  split
  next f _ =>
    dsimp only
    split
    next => exact ⟨_, _, rfl, State.setFinish_finish_same s d none⟩
    next => exact ⟨_, _, rfl, State.setFinish_finish_same s d none⟩
  next h => exact ⟨_, _, rfl, h⟩

/-- The FAULT NOT READY of a connection without an operation. -/
def lostStatus : Status := { fault := true, disconnect := true, reason := .fault .notReady }

/-- A port at READY LOST of d (R104): a connection with it that holds no operation ends with FAULT NOT READY. -/
def PortRec.lost (d : Drive) (holds : Option Operation) (r : PortRec) : PortRec :=
  if r.conn = some (.drive d) ∧ holds = none ∧ r.draining = false ∧ r.ending = false then
    { r with answer := none, held := [], requests := [], awaiting := false
             link := dropData r.link ++ [.status (r.addressOf (.drive d)) lostStatus true] }
  else r

theorem dropData_notEnding {l : List OutFrame} (h : l.any OutFrame.isEnding = false) :
    (dropData l).any OutFrame.isEnding = false := by
  rw [List.any_eq_false] at h ⊢
  exact fun f hf => h f (List.mem_of_mem_filter hf)

theorem State.losePort_port_same : (s.losePort d p).port p = (s.port p).lost d (s.opOn d p) := by
  unfold State.losePort PortRec.lost
  dsimp only
  split
  next h =>
    obtain ⟨-, -, -, he⟩ := h
    have hend : ({ (s.port p).emptied with awaiting := false } : PortRec).ending = false := dropData_notEnding he
    unfold State.reply State.sendStatus State.push
    rw [State.modPort_port_same, State.modPort_port_same, hend]
    rfl
  next => rfl

theorem State.losePort_port_ne (h : p ≠ q) : (s.losePort d p).port q = s.port q := by
  unfold State.losePort
  dsimp only
  split
  next => exact (State.modPort_port_ne _ _ _ _ h).trans (State.modPort_port_ne _ _ _ _ h)
  next => rfl

theorem State.losePort_shape (s : State) (d : Drive) (p : Port) : ∃ a, s.losePort d p = { s with ports := a } := by
  unfold State.losePort
  dsimp only
  split
  next => exact ⟨_, rfl⟩
  next => exact ⟨_, rfl⟩

theorem State.losePorts_shape (s : State) (d : Drive) :
    ∃ a, (s.forPorts fun s p => s.losePort d p) = { s with ports := a } := by
  refine foldl_ind (P := fun t => ∃ a, t = { s with ports := a }) _ _ s ⟨_, rfl⟩ fun t p h => ?_
  obtain ⟨a, rfl⟩ := h
  exact State.losePort_shape _ d p

theorem State.opOn_of_ops (h : t.ops = s.ops) : t.opOn d p = s.opOn d p := by
  unfold State.opOn State.op
  rw [h]

theorem State.losePorts_port (s : State) (d : Drive) (q : Port) :
    (s.forPorts fun s p => s.losePort d p).port q = (s.port q).lost d (s.opOn d q) := by
  have hops : ∀ (s : State) p, (s.losePort d p).ops = s.ops := fun s p => by
    obtain ⟨a, ha⟩ := s.losePort_shape d p
    rw [ha]
  have hv := forPorts_at (f := fun s p => s.losePort d p) (fun p s => (s.port p, s.ops)) (fun s p q h => ?_) (fun s t p h => ?_)
    s q
  · exact (congrArg Prod.fst hv).trans State.losePort_port_same
  · rw [State.losePort_port_ne h, hops]
  · simp only [Prod.mk.injEq] at h
    obtain ⟨hp, ho⟩ := h
    rw [State.losePort_port_same, State.losePort_port_same, hops, hops, hp, ho, State.opOn_of_ops ho]

theorem PortRec.lives_lost (x : Option Operation) : r.Lives (r.lost d x) := by
  unfold PortRec.lost
  split
  next => exact .of_eq rfl rfl
  next => exact .refl r

/-! ## The operation at READY LOST -/

theorem State.loseOperation_none (h : s.op d = none) : s.loseOperation d = s := by
  simp [State.loseOperation, h]

theorem State.loseOperation_closing (h : s.op d = some o) (hc : o.conn = some q) (hx : o.isClosing = true) :
    s.loseOperation d = (s.endConnection q).endOperation d := by
  unfold State.loseOperation
  rw [h]
  simp [hc, hx, State.finishStopped, h]

/-- The record of a connected port as FAULT NOT READY is produced. -/
def PortRec.lostCommand (d : Drive) (res : Nat) (r : PortRec) : PortRec :=
  (r.emptied).faulted d (Status.faultOf .notReady .none res).disc

theorem State.loseOperation_connected (h : s.op d = some o) (hc : o.conn = some q) (hx : o.isClosing = false) :
    s.loseOperation d = (s.modPort q (PortRec.lostCommand d o.stopResidual)).endOperation d := by
  have hl : s.loseOperation d = (s.modPort q PortRec.emptied).faultInConnection d q o .notReady .none o.stopResidual none := by
    unfold State.loseOperation
    rw [h]
    simp [hc, hx]
  rw [hl, State.faultInConnection_eq]
  dsimp only
  rw [if_pos rfl, State.modPort_modPort]
  rfl

theorem State.loseOperation_alternate {a : AltOp} (h : s.op d = some o) (hc : o.conn = none) (ha : o.alt = some a) :
    s.loseOperation d = ((s.withdrawOffersOf d).undoAlternate d).endAlternate d (.fault .notReady .none) := by
  unfold State.loseOperation
  rw [h]
  simp [hc, ha]

theorem State.loseOperation_kept_pending (h : s.op d = some o) (hc : o.conn = none) (ha : o.alt = none) :
    s.loseOperation d =
      (s.withdrawOffersOf d).keepPending d (Status.faultOf .notReady .none o.stopResidual).disc none := by
  unfold State.loseOperation
  rw [h]
  simp [hc, ha]

/-- What an alternate operation leaves as it ends, before the question who can take its status. -/
def State.altEnded (s : State) (d : Drive) (o : Operation) (a : AltOp) (k : FaultKind) (det : Detail) : State :=
  let res := s.altResult d o a (.fault k det)
  { s with lastAlt := some res
           ops := s.ops.set d (some { o with
             alt := some (a.ended (.fault k det)), work := .ended, orient := none, statusDeferred := PortSet.none,
             pending := some { status := { (Status.faultOf k det 0).disc with alt := some res }, record := none } }) }

theorem State.endAlternate_eq {a : AltOp} (h : s.op d = some o) (ha : o.alt = some a) (k : FaultKind) (det : Detail) :
    s.endAlternate d (.fault k det) = ((s.altEnded d o a k det).freeInternalPath d).dropUnclaimed d := by
  unfold State.endAlternate
  rw [h]
  dsimp only
  rw [ha]
  dsimp only
  have hop : ({ s with lastAlt := some (s.altResult d o a (.fault k det)) } : State).op d = some o := h
  unfold State.keepPending State.modAlt
  rw [State.modOp_some _ _ _ hop, State.modOp_some _ _ _ (State.setOp_op_same _ _ _), State.setOp_setOp, ha]
  rfl

/-! ## What the operation's part of READY LOST leaves -/

theorem State.dropUnclaimed_cases (s : State) (d : Drive) :
    s.dropUnclaimed d = s ∨ s.dropUnclaimed d = (s.withdrawOffersOf d).endOperation d := by
  unfold State.dropUnclaimed
  split
  next =>
    split
    next =>
      split
      next => exact .inr rfl
      next => exact .inl rfl
    next => exact .inl rfl
  next => exact .inl rfl

/-- A status that the issuer may still claim is not dropped. -/
theorem State.dropUnclaimed_claimed {a : AltOp} (h : s.op d = some o) (ha : o.alt = some a) (hi : a.issuerHeld = true) :
    s.dropUnclaimed d = s := by
  unfold State.dropUnclaimed
  rw [h]
  dsimp only
  rw [ha]
  split
  next hx _ =>
    cases hx
    exact if_neg (by simp [State.unclaimable, hi])
  next => rfl

/-- An operation's ends write its record, the ports, the queues, the paths and its drive's sharing record, and no more. -/
theorem State.dropUnclaimed_shape (s : State) (d : Drive) : ∃ a b c g f, s.dropUnclaimed d =
    { s with ops := a, ports := b, queues := c, sharing := g, paths := f } ∧
    (∀ e, e ≠ d → (s.dropUnclaimed d).op e = s.op e ∧ (s.dropUnclaimed d).share e = s.share e) := by
  rcases s.dropUnclaimed_cases d with h | h
  · rw [h]
    exact ⟨_, _, _, _, _, rfl, fun _ _ => ⟨rfl, rfl⟩⟩
  · rw [h]
    obtain ⟨a, b, c, g, he⟩ := State.endOperation_shape (s.withdrawOffersOf d) d
    obtain ⟨a', b', hw⟩ := s.withdrawOffersOf_shape d
    refine ⟨a, b, c, g, (s.withdrawOffersOf d).paths, ?_, fun e hne => ⟨?_, ?_⟩⟩
    · rw [he, hw]
    · rw [State.endOperation_eq, State.endsWith_op, if_neg hne.symm, State.withdrawOffersOf_op]
    · rw [State.endOperation_eq, State.endsWith_share_ne _ _ hne, State.withdrawOffersOf_share]

/-- The blocks and the other drives that the operation's part leaves alone. -/
theorem State.loseOperation_keeps (s : State) (d : Drive) : (s.loseOperation d).positioners = s.positioners ∧
    (s.loseOperation d).finishing = s.finishing ∧ (∀ e, e ≠ d → (s.loseOperation d).share e = s.share e) := by
  cases h : s.op d with
  | none =>
    rw [State.loseOperation_none h]
    exact ⟨rfl, rfl, fun _ _ => rfl⟩
  | some o =>
    cases hc : o.conn with
    | some q =>
      cases hx : o.isClosing with
      | true =>
        rw [State.loseOperation_closing h hc hx]
        refine ⟨by simp, by simp, fun e he => ?_⟩
        rw [State.endOperation_eq, State.endsWith_share_ne _ _ he, State.endConnection_share]
      | false =>
        rw [State.loseOperation_connected h hc hx]
        refine ⟨by simp, by simp, fun e he => ?_⟩
        rw [State.endOperation_eq, State.endsWith_share_ne _ _ he, State.modPort_share]
    | none =>
      cases ha : o.alt with
      | none =>
        rw [State.loseOperation_kept_pending h hc ha]
        exact ⟨by simp [State.keepPending], by simp [State.keepPending], fun e he => by simp [State.keepPending]⟩
      | some a =>
        have hop : (s.withdrawOffersOf d).op d = some o := by rw [State.withdrawOffersOf_op]; exact h
        rw [State.loseOperation_alternate h hc ha, State.undoAlternate_some hop,
          State.endAlternate_eq (o := o) (a := a) (by exact hop) ha]
        obtain ⟨_, _, _, _, _, he, hne⟩ := State.dropUnclaimed_shape ((State.altEnded { s.withdrawOffersOf d with
          spareMap := o.undone d (s.withdrawOffersOf d).spareMap } d o a .notReady .none).freeInternalPath d) d
        refine ⟨?_, ?_, fun e hd => (hne e hd).2.trans ?_⟩
        · rw [he]
          simp [State.altEnded]
        · rw [he]
          simp [State.altEnded]
        · simp [State.altEnded, State.share]

/-- The operation's part of READY LOST at an alternate operation: the abort at the spare map, the record kept with its status, and
the question who can take that. -/
theorem State.loseOperation_aborts {a : AltOp} (h : s.op d = some o) (hc : o.conn = none) (ha : o.alt = some a) :
    s.loseOperation d = ((State.altEnded { s.withdrawOffersOf d with
      spareMap := o.undone d s.spareMap } d o a .notReady .none).freeInternalPath d).dropUnclaimed d := by
  have hop : (s.withdrawOffersOf d).op d = some o := by rw [State.withdrawOffersOf_op]; exact h
  rw [State.loseOperation_alternate h hc ha, State.undoAlternate_some hop, State.withdrawOffersOf_spareMap,
    State.endAlternate_eq (o := o) (a := a) (by exact hop) ha]

theorem State.loseOperation_frees (h : ∀ o, s.op d = some o → o.conn = some p → (s.port p).offer = none ∧
    (s.port p).state ≠ .disabled) : State.Frees d p s (s.loseOperation d) := by
  cases ho : s.op d with
  | none =>
    rw [State.loseOperation_none ho]
    exact .refl ..
  | some o =>
    cases hc : o.conn with
    | some q =>
      have hq : q = p → (s.port p).offer = none ∧ (s.port p).state ≠ .disabled := fun hq => h o ho (hq ▸ hc)
      cases hx : o.isClosing with
      | true =>
        rw [State.loseOperation_closing ho hc hx]
        exact (State.endConnection_frees hq).trans (State.endOperation_frees _ d p)
      | false =>
        rw [State.loseOperation_connected ho hc hx]
        refine (State.Frees.of_port ?_ ?_ ?_).trans (State.endOperation_frees _ d p)
        · by_cases hqp : q = p
          · subst hqp
            rw [State.modPort_port_same]
            exact .of_eq rfl rfl
          · rw [State.modPort_port_ne _ _ _ _ hqp]
            exact .refl _
        · rfl
        · rfl
    | none =>
      cases ha : o.alt with
      | none =>
        rw [State.loseOperation_kept_pending ho hc ha]
        refine (s.withdrawOffersOf_frees d p).trans (.of_port ?_ ?_ ?_) <;> simp [State.keepPending, PortRec.Lives.refl]
      | some a =>
        rw [State.loseOperation_aborts ho hc ha]
        refine ((s.withdrawOffersOf_frees d p).trans (.of_port ?_ ?_ ?_)).trans (State.dropUnclaimed_frees _ d p) <;>
          simp [State.altEnded, State.port, State.queue, State.share, PortRec.Lives.refl]

/-- A port that neither offers nor waits nor is connected with the operation is left as it is, but for the overflow flag. -/
theorem State.loseOperation_port (h : ∀ o, s.op d = some o → o.conn ≠ some p) (ho : (s.port p).offer = none)
    (hw : (s.port p).awaiting = false) : ∃ b, (s.loseOperation d).port p = { s.port p with overflow := b } := by
  have hends : ∀ t : State, t.port p = s.port p → ∃ b, (t.endOperation d).port p = { s.port p with overflow := b } := by
    intro t ht
    obtain ⟨b, hb⟩ := State.endsWith_port t d none (by rw [ht]; exact hw)
    exact ⟨b, hb.trans (by rw [ht])⟩
  have hwithdraw : ∀ t : State, t.port p = s.port p → (t.withdrawOffersOf d).port p = s.port p := by
    intro t ht
    rw [State.withdrawOffersOf_port_none (by rw [ht]; exact ho), ht]
  cases hop : s.op d with
  | none =>
    rw [State.loseOperation_none hop]
    exact ⟨_, rfl⟩
  | some o =>
    cases hc : o.conn with
    | some q =>
      have hqp : q ≠ p := fun hq => h o hop (hq ▸ hc)
      cases hx : o.isClosing with
      | true =>
        rw [State.loseOperation_closing hop hc hx]
        exact hends _ (State.endConnection_port_ne s hqp.symm)
      | false =>
        rw [State.loseOperation_connected hop hc hx]
        exact hends _ (State.modPort_port_ne _ _ _ _ hqp)
    | none =>
      cases ha : o.alt with
      | none =>
        rw [State.loseOperation_kept_pending hop hc ha]
        exact ⟨_, (by simp [State.keepPending] : _ = (s.withdrawOffersOf d).port p).trans (hwithdraw s rfl)⟩
      | some a =>
        rw [State.loseOperation_aborts hop hc ha]
        have hport : ((State.altEnded { s.withdrawOffersOf d with spareMap := o.undone d s.spareMap } d o a
            .notReady .none).freeInternalPath d).port p = s.port p :=
          (State.freeInternalPath_port ..).trans (hwithdraw s rfl)
        rcases State.dropUnclaimed_cases ((State.altEnded { s.withdrawOffersOf d with spareMap := o.undone d s.spareMap } d o a
          .notReady .none).freeInternalPath d) d with e | e <;> rw [e]
        · exact ⟨_, hport⟩
        · exact hends _ (hwithdraw _ hport)

/-- A connected operation has ended. -/
theorem State.loseOperation_op_connected (h : s.op d = some o) (hc : o.conn = some q) : (s.loseOperation d).op d = none := by
  cases hx : o.isClosing with
  | true =>
    rw [State.loseOperation_closing h hc hx, State.endOperation_eq, State.endsWith_op, if_pos rfl]
  | false =>
    rw [State.loseOperation_connected h hc hx, State.endOperation_eq, State.endsWith_op, if_pos rfl]

/-- A disconnected drive command keeps the pending NOT READY. -/
theorem State.loseOperation_op_pending (h : s.op d = some o) (hc : o.conn = none) (ha : o.alt = none) :
    (s.loseOperation d).op d = some { o with
      work := .ended, orient := none, statusDeferred := PortSet.none
      pending := some { status := (Status.faultOf .notReady .none o.stopResidual).disc, record := none } } := by
  have hop : (s.withdrawOffersOf d).op d = some o := by rw [State.withdrawOffersOf_op]; exact h
  rw [State.loseOperation_kept_pending h hc ha]
  unfold State.keepPending
  rw [State.freeInternalPath_op, State.modOp_op_same, hop]
  rfl

/-- An alternate operation is undone at the spare map and leaves its result, and the status where the issuer may claim it. -/
theorem State.loseOperation_alt {a : AltOp} (h : s.op d = some o) (hc : o.conn = none) (ha : o.alt = some a) :
    (s.loseOperation d).spareMap = o.undone d s.spareMap ∧
    ∃ res : AltResult, (s.loseOperation d).lastAlt = some res ∧ res.drive = d ∧ res.home = o.home ∧
      res.outcome = .fault .notReady .none ∧ res.marked = a.marked ∧ res.retired = a.retired ∧
      (a.issuerHeld = true → ∃ o', (s.loseOperation d).op d = some o' ∧ o'.work = .ended ∧ o'.statusDeferred = PortSet.none ∧
        o'.pending = some { status := { (Status.faultOf .notReady .none 0).disc with alt := some res }, record := none }) := by
  let w : State := { s.withdrawOffersOf d with spareMap := o.undone d s.spareMap }
  obtain ⟨_, _, _, _, _, he, -⟩ := State.dropUnclaimed_shape ((w.altEnded d o a .notReady .none).freeInternalPath d) d
  rw [State.loseOperation_aborts h hc ha]
  have hmap : (((w.altEnded d o a .notReady .none).freeInternalPath d).dropUnclaimed d).spareMap = o.undone d s.spareMap := by
    rw [he]
    dsimp only
    rw [State.freeInternalPath_spareMap]
    rfl
  have hlast : (((w.altEnded d o a .notReady .none).freeInternalPath d).dropUnclaimed d).lastAlt =
      some (w.altResult d o a (.fault .notReady .none)) := by
    rw [he]
    dsimp only
    rw [State.freeInternalPath_lastAlt]
    rfl
  refine ⟨hmap, w.altResult d o a (.fault .notReady .none), hlast, rfl, rfl, rfl, rfl, rfl, fun hi => ?_⟩
  have hop : ((w.altEnded d o a .notReady .none).freeInternalPath d).op d = some { o with
      alt := some (a.ended (.fault .notReady .none)), work := .ended, orient := none, statusDeferred := PortSet.none
      pending := some { status := { (Status.faultOf .notReady .none 0).disc with
        alt := some (w.altResult d o a (.fault .notReady .none)) }, record := none } } :=
    (State.freeInternalPath_op ..).trans (State.setOp_op_same w d _)
  rw [State.dropUnclaimed_claimed hop rfl hi]
  exact ⟨_, hop, rfl, rfl, rfl⟩

theorem Operation.undone_eq {a : AltOp} (ha : o.alt = some a) (m : List SpareEntry) : o.undone d m = if a.fresh
    then m.filter fun e => !(decide (e.drive = d) && decide (e.home = o.home))
    else m.map fun e => if e.drive = d ∧ e.home = o.home then { e with pending := none } else e := by
  simp only [Operation.undone, ha, SpareEntry.isFor, Bool.and_eq_true, decide_eq_true_eq]

/-! ## READY LOST as a whole -/

/-- The state in which the operation's part is taken. -/
@[irreducible] def State.lostPorts (s : State) (d : Drive) : State :=
  ((s.setPos d Positioner.notReady).dropFinishing d).forPorts fun s p => s.losePort d p

theorem State.lostPorts_shape (s : State) (d : Drive) : ∃ a b, s.lostPorts d =
    { s.setPos d Positioner.notReady with ports := a, finishing := b } ∧ (s.lostPorts d).finish d = none := by
  obtain ⟨a, b, hf, hn⟩ := State.dropFinishing_shape (s.setPos d Positioner.notReady) d
  obtain ⟨c, hc⟩ := State.losePorts_shape ((s.setPos d Positioner.notReady).dropFinishing d) d
  unfold State.lostPorts
  rw [hc]
  refine ⟨c, b, by rw [hf], hn⟩

/-- A port as the operation's part finds it. -/
theorem State.lostPorts_port (s : State) (d : Drive) (q : Port) : ∃ x y,
    (s.lostPorts d).port q = ({ s.port q with state := x, resetDrive := y } : PortRec).lost d (s.opOn d q) ∧
    (s.port q).Lives ((s.lostPorts d).port q) := by
  obtain ⟨x, y, hp, hl⟩ := State.dropFinishing_port (s.setPos d Positioner.notReady) d q
  obtain ⟨a, b, hs, -⟩ := State.dropFinishing_shape (s.setPos d Positioner.notReady) d
  have hops : ((s.setPos d Positioner.notReady).dropFinishing d).opOn d q = s.opOn d q := by
    rw [hs]
    rfl
  have hport : (s.lostPorts d).port q = ({ s.port q with state := x, resetDrive := y } : PortRec).lost d (s.opOn d q) := by
    unfold State.lostPorts
    refine (State.losePorts_port _ d q).trans ?_
    rw [hops, hp]
    rfl
  refine ⟨x, y, hport, ?_⟩
  rw [hport]
  rw [hp] at hl
  exact hl.trans (PortRec.lives_lost _)

/-- The state after the operation's part. -/
@[irreducible] def State.lostOperation (s : State) (d : Drive) : State := (s.lostPorts d).loseOperation d

theorem State.lostOperation_eq (s : State) (d : Drive) : s.lostOperation d = (s.lostPorts d).loseOperation d := by
  unfold State.lostOperation
  rfl

/-- The same with the drive's paths FREE, its reservation and hold gone. -/
@[irreducible] def State.lostShare (s : State) (d : Drive) : State :=
  ((s.lostOperation d).freePaths fun h => decide (h.drive = d)).modShare d fun x => { x with owner := none, hold := none }

theorem State.loseReady_eq (s : State) (d : Drive) :
    s.loseReady d = ((s.lostShare d).freeAllOwed d none).postStateChange s d := by
  unfold State.lostShare State.lostOperation State.lostPorts
  rfl

theorem State.lostShare_ports (s : State) (d : Drive) : (s.lostShare d).ports = (s.lostOperation d).ports ∧
    (s.lostShare d).queues = (s.lostOperation d).queues := by
  simp [State.lostShare]

theorem State.lostShare_share (s : State) (d : Drive) :
    (s.lostShare d).share d = { (s.lostOperation d).share d with owner := none, hold := none } := by
  unfold State.lostShare
  rw [State.modShare_share_same, State.freePaths_share]

theorem State.loseReady_shape (s : State) (d : Drive) : ∃ a b, s.loseReady d =
    { ((s.lostOperation d).freePaths fun h => decide (h.drive = d)).setShare d
        { owner := none, hold := none, owed := Vector.replicate 4 none } with ports := a, queues := b } := by
  obtain ⟨a, b, h1⟩ := State.postStateChange_shape (before := s) (d := d) (s := (s.lostShare d).freeAllOwed d none)
  obtain ⟨a', b', h2⟩ := State.postAll_shape (d := d) (n := .deviceFree d)
    (named := fun _ y q => (y.owes q).isSome && decide (none ≠ some q)) (s.lostShare d)
  refine ⟨a, b, (s.loseReady_eq d).trans (h1.trans ?_)⟩
  rw [State.freeAllOwed_eq, h2]
  simp [State.lostShare, State.modShare, State.setShare, State.share]

theorem State.loseReady_blocks (s : State) (d : Drive) : (s.loseReady d).positioners = (s.lostOperation d).positioners ∧
    (s.loseReady d).ops = (s.lostOperation d).ops ∧ (s.loseReady d).finishing = (s.lostOperation d).finishing ∧
    (s.loseReady d).spareMap = (s.lostOperation d).spareMap ∧ (s.loseReady d).lastAlt = (s.lostOperation d).lastAlt ∧
    (s.loseReady d).paths = (s.lostOperation d).paths.map fun h => h.bind fun x => if x.drive = d then none else some x := by
  obtain ⟨a, b, h⟩ := s.loseReady_shape d
  rw [h]
  simp [State.freePaths_eq, State.setShare]

theorem State.loseReady_share (s : State) (d : Drive) :
    (s.loseReady d).share d = { owner := none, hold := none, owed := Vector.replicate 4 none } ∧
    ∀ e, e ≠ d → (s.loseReady d).share e = (s.lostOperation d).share e := by
  obtain ⟨a, b, h⟩ := s.loseReady_shape d
  rw [h]
  refine ⟨State.setShare_share_same _ _ _, fun e he => (State.setShare_share_ne _ _ _ _ he.symm).trans ?_⟩
  rw [State.freePaths_share]

/-- The owed set emptied and the change posted leave of a port all but the overflow flag. -/
theorem State.freeAllOwed_port (s : State) (d : Drive) (x : Option Port) (q : Port) :
    ∃ b, (s.freeAllOwed d x).port q = { s.port q with overflow := b } := by
  rw [State.freeAllOwed_eq, State.modShare_port]
  exact State.postAll_port s q

theorem State.loseReady_port (s : State) (d : Drive) (q : Port) :
    ∃ b, (s.loseReady d).port q = { (s.lostOperation d).port q with overflow := b } := by
  obtain ⟨b, hb⟩ := State.postStateChange_port (before := s) (d := d) ((s.lostShare d).freeAllOwed d none) q
  obtain ⟨c, hc⟩ := (s.lostShare d).freeAllOwed_port d none q
  have hp : (s.lostShare d).port q = (s.lostOperation d).port q := by simp only [State.port, (s.lostShare_ports d).1]
  exact ⟨b, (congrArg (State.port · q) (s.loseReady_eq d)).trans (by rw [hb, hc, hp])⟩

/-- The queue of a port: DEVICE-FREE where it is still owed, then STATE-CHANGE where it is due. -/
theorem State.loseReady_queue (s : State) (d : Drive) (q : Port) : ∃ t : State,
    (s.loseReady d).queue q = (if ((s.port q).state = .idle ∨ (s.port q).state = .connected) ∧
      (s.port q).maskStateChange = true then (t.post q (.stateChange d)).queue q else t.queue q) ∧
    t.queue q = (if (((s.lostOperation d).share d).owes q).isSome = true
      then ((s.lostOperation d).post q (.deviceFree d)).queue q else (s.lostOperation d).queue q) ∧
    ∃ b, t.port q = { (s.lostOperation d).port q with overflow := b } := by
  obtain ⟨hp, hq⟩ := s.lostShare_ports d
  obtain ⟨b, hb⟩ := (s.lostShare d).freeAllOwed_port d none q
  refine ⟨(s.lostShare d).freeAllOwed d none, ?_, ?_, b, ?_⟩
  · rw [State.loseReady_eq]
    exact State.postStateChange_queue
  · rw [State.freeAllOwed_queue, State.lostShare_share, State.post_queue_congr hp hq]
    refine if_congr (by simp [Sharing.owes]) rfl ?_
    simp only [State.queue, hq]
  · rw [hb]
    simp only [State.port, hp]

theorem State.lostOperation_frees (h : ∀ o, s.op d = some o → o.conn = some p → (s.port p).offer = none ∧
    (s.port p).state ≠ .disabled) : State.Frees d p s (s.lostOperation d) := by
  obtain ⟨a, b, hs, -⟩ := s.lostPorts_shape d
  obtain ⟨x, y, hp, hl⟩ := s.lostPorts_port d p
  have hop : (s.lostPorts d).op d = s.op d := by
    rw [hs]
    rfl
  rw [State.lostOperation_eq]
  refine (State.Frees.of_port hl ?_ ?_).trans (State.loseOperation_frees fun o ho hc => ?_)
  · rw [hs]
    rfl
  · rw [hs]
    rfl
  · obtain ⟨hoff, hst⟩ := h o (hop.symm.trans ho) hc
    refine ⟨?_, hl.2.1 hst⟩
    rw [hp]
    unfold PortRec.lost
    split <;> exact hoff

/-- What a port that takes notices finds in its queue after READY LOST. -/
theorem State.loseReady_notices (hd : (s.port p).state ≠ .disabled)
    (h : ∀ o, s.op d = some o → o.conn = some p → (s.port p).offer = none) : ((s.loseReady d).queue p).notices =
      let freed := if ((s.share d).owes p).isSome = true
        then (enterQueue (s.queue p).notices (s.port p).offersNotice (.deviceFree d)).1 else (s.queue p).notices
      if ((s.port p).state = .idle ∨ (s.port p).state = .connected) ∧ (s.port p).maskStateChange = true
        then (enterQueue freed (s.port p).offersNotice (.stateChange d)).1 else freed := by
  obtain ⟨hl, -, htells⟩ := State.lostOperation_frees (s := s) (d := d) fun o ho hc => ⟨h o ho hc, hd⟩
  obtain ⟨hoffers, hlive, -⟩ := hl
  obtain ⟨t, hq, ht, b, hb⟩ := s.loseReady_queue d p
  have hstate : (t.port p).state ≠ .disabled := by
    rw [hb]
    exact fun hs => hlive hd hs
  have hnotice : (t.port p).offersNotice = (s.port p).offersNotice := by
    rw [hb]
    exact (PortRec.offersNotice_congr (r := (s.lostOperation d).port p) rfl).trans hoffers
  have hfreed : (t.queue p).notices = if ((s.share d).owes p).isSome = true
      then (enterQueue (s.queue p).notices (s.port p).offersNotice (.deviceFree d)).1 else (s.queue p).notices := by
    rw [ht]
    rcases htells hd with ⟨hw, hn⟩ | ⟨hw, hw', hn⟩
    · rw [hw]
      by_cases hs : ((s.share d).owes p).isSome = true
      · rw [if_pos hs, if_pos hs, State.post_queue, if_pos ⟨rfl, hlive hd⟩, hn, hoffers]
      · rw [if_neg hs, if_neg hs, hn]
    · rw [hw', if_pos hw]
      exact hn
  dsimp only
  rw [hq, ← hfreed]
  split
  next => rw [State.post_queue, if_pos ⟨rfl, hstate⟩, hnotice]
  next => rfl

/-- A DISABLED port without an offer is told nothing. -/
theorem State.loseReady_disabled (hd : (s.port p).state = .disabled) (ho : (s.port p).offer = none)
    (h : ∀ o, s.op d = some o → o.conn ≠ some p) : (s.loseReady d).queue p = s.queue p := by
  obtain ⟨hl, hsilent, -⟩ := State.lostOperation_frees (s := s) (d := d) (p := p) fun o hop hc => absurd hc (h o hop)
  obtain ⟨hdis, -⟩ := hl.2.2 hd ho
  obtain ⟨t, hq, ht, b, hb⟩ := s.loseReady_queue d p
  rw [hq, if_neg (by simp [hd]), ht, State.post_disabled hdis, ite_self]
  exact hsilent hd ho

/-- FAULT NOT READY at the port of the operation. -/
theorem State.loseReady_link_op (hop : s.op d = some o) (hc : o.conn = some p) (hx : o.isClosing = false)
    (hw : (s.port p).awaiting = false) : ((s.loseReady d).port p).link = dropData (s.port p).link ++
      [.status ((s.port p).addressOf (.drive d)) (Status.faultOf .notReady .none o.stopResidual).disc true] := by
  obtain ⟨b, hb⟩ := s.loseReady_port d p
  obtain ⟨a, f, hs, -⟩ := s.lostPorts_shape d
  obtain ⟨x, y, hp, -⟩ := s.lostPorts_port d p
  have hop' : (s.lostPorts d).op d = some o := by
    rw [hs]
    exact hop
  have hholds : s.opOn d p = some o := by simp [State.opOn, hop, hc]
  have hlost : (s.lostPorts d).port p = { s.port p with state := x, resetDrive := y } := by
    rw [hp, hholds]
    exact if_neg (by simp)
  have hport : (((s.lostPorts d).modPort p (PortRec.lostCommand d o.stopResidual)).port p) =
      PortRec.lostCommand d o.stopResidual { s.port p with state := x, resetDrive := y } := by
    rw [State.modPort_port_same, hlost]
  obtain ⟨c, hcd⟩ := State.endsWith_port ((s.lostPorts d).modPort p (PortRec.lostCommand d o.stopResidual)) d none
    (by rw [hport]; exact hw)
  have hl : (s.lostOperation d).port p =
      { PortRec.lostCommand d o.stopResidual { s.port p with state := x, resetDrive := y } with overflow := c } := by
    rw [State.lostOperation_eq, State.loseOperation_connected hop' hc hx, State.endOperation_eq, hcd, hport]
  rw [hb, hl]
  rfl

/-- FAULT NOT READY at a port connected with the drive without its operation. -/
theorem State.loseReady_link_bare (hc : (s.port p).conn = some (.drive d)) (hop : ∀ o, s.op d = some o → o.conn ≠ some p)
    (hd : (s.port p).draining = false) (he : (s.port p).ending = false) (ho : (s.port p).offer = none) :
    ((s.loseReady d).port p).link = dropData (s.port p).link ++
      [.status ((s.port p).addressOf (.drive d)) lostStatus true] ∧
    ((s.loseReady d).port p).held = [] ∧ ((s.loseReady d).port p).requests = [] ∧ ((s.loseReady d).port p).answer = none := by
  obtain ⟨b, hb⟩ := s.loseReady_port d p
  obtain ⟨a, f, hs, -⟩ := s.lostPorts_shape d
  obtain ⟨x, y, hp, -⟩ := s.lostPorts_port d p
  have hholds : s.opOn d p = none := by
    unfold State.opOn
    split
    next o h => exact if_neg (hop o h)
    next => rfl
  rw [hholds, PortRec.lost, if_pos ⟨hc, rfl, hd, he⟩] at hp
  obtain ⟨c, hl⟩ := State.loseOperation_port (s := s.lostPorts d) (d := d) (p := p) (fun o h => hop o (by rw [← h, hs]; rfl))
    (by rw [hp]; exact ho) (by rw [hp])
  rw [hb, State.lostOperation_eq, hl, hp]
  exact ⟨rfl, rfl, rfl, rfl⟩

end Change

/-- Settles O56: READY LOST block by block and port by port, READY GAINED and WRITE-PROTECT CHANGE. -/
theorem readyAndWriteProtectChange : Obligations.ReadyAndWriteProtectChange := by
  unfold Obligations.ReadyAndWriteProtectChange
  refine ⟨fun o => ⟨fun r h => ?_, fun w h => ?_, fun h1 h2 => ?_, fun h => ?_, fun h1 h2 => ?_⟩, fun s u d hu => ⟨fun hn i hi => ?_,
    fun hr => ⟨fun on => ?_, ?_, ?_⟩, fun hn => ?_⟩⟩
  · simp only [Operation.stopResidual, h]
    rfl
  · simp only [Operation.stopResidual, h]
    rfl
  · unfold Operation.stopResidual
    split
    next r h => exact absurd h (h1 r)
    next w h => exact absurd h (h2 w)
    all_goals rfl
  · unfold Operation.pendingResidual
    rcases h with ⟨r, h⟩ | ⟨w, h⟩ <;> rw [h]
  · unfold Operation.pendingResidual
    split
    next r h => exact absurd h (h1 r)
    next w h => exact absurd h (h2 w)
    all_goals rfl
  · rcases hi with rfl | ⟨on, rfl⟩
    · unfold exec execReadyLost
      exact (State.perform_finds _ hu).trans (by rw [State.fromReady, if_pos hn])
    · unfold exec execWriteProtectChange
      exact (State.perform_finds _ hu).trans (by rw [State.fromReady, if_pos hn])
  · unfold exec execWriteProtectChange
    exact (State.perform_finds _ hu).trans (by rw [State.fromReady, if_neg hr])
  · unfold exec execReadyGained
    exact (State.perform_finds _ hu).trans (by rw [State.gainReady, if_neg hr])
  · have hexec : exec (.readyLost d) s = .next (u.loseReady d).serveClaims := by
      unfold exec execReadyLost
      exact (State.perform_finds _ hu).trans (by rw [State.fromReady, if_neg hr])
    obtain ⟨vpos, vops, vfinish, vmap, valt, vpaths⟩ := u.loseReady_blocks d
    obtain ⟨vshare, vshare'⟩ := u.loseReady_share d
    obtain ⟨x, y, hs, hfin⟩ := u.lostPorts_shape d
    obtain ⟨hpos, hfinish, hshare⟩ := (u.lostPorts d).loseOperation_keeps d
    rw [← State.lostOperation_eq] at hpos hfinish hshare
    have hop : (u.lostPorts d).op d = u.op d := by
      rw [hs]
      rfl
    have hvop : (u.loseReady d).op d = ((u.lostPorts d).loseOperation d).op d := by
      rw [← State.lostOperation_eq]
      exact State.op_of_ops vops d
    have hvpos : ∀ e, (u.loseReady d).pos e = (u.setPos d Positioner.notReady).pos e := by
      intro e
      unfold State.pos
      rw [vpos, hpos, hs]
    refine ⟨_, hexec, ?_, fun e he => ⟨?_, ?_⟩, ?_, fun n z hz => ?_, ?_, fun o ho hc ha => ?_, fun o ho hc => ?_, fun ho => ?_,
      fun o p ho hc hx hst hcn hw hf => State.loseReady_link_op ho hc hx hw,
      fun p hc ho hd he hoff => State.loseReady_link_bare hc ho hd he hoff, fun o x ho hc ha => ?_,
      fun p hd hoff ho => State.loseReady_disabled hd hoff ho, fun p hd ho => State.loseReady_notices hd ho⟩
    · exact (hvpos d).trans (State.setPos_pos_same _ _ _)
    · exact (hvpos e).trans (State.setPos_pos_ne _ _ _ _ he.symm)
    · rw [vshare' e he, hshare e he, hs]
      rfl
    · exact vshare
    · have hpath : (u.loseReady d).path n = ((u.lostOperation d).path n).bind fun x => if x.drive = d then none else some x := by
        unfold State.path
        rw [vpaths]
        exact Vector.getElem_map _ _
      rw [hpath] at hz
      obtain ⟨w, -, hw⟩ := Option.bind_eq_some_iff.mp hz
      split at hw
      next => cases hw
      next h =>
        cases hw
        exact h
    · unfold State.finish
      rw [vfinish, hfinish]
      exact hfin
    · exact ⟨_, hvop.trans (State.loseOperation_op_pending (hop.trans ho) hc ha), rfl, rfl, rfl, rfl, rfl, rfl⟩
    · obtain ⟨q, hq⟩ := Option.isSome_iff_exists.mp hc
      exact hvop.trans (State.loseOperation_op_connected (hop.trans ho) hq)
    · rw [hvop, State.loseOperation_none (hop.trans ho)]
      exact hop.trans ho
    · obtain ⟨hm, res, hl, hd, hh, hout, hmk, hrt, hi⟩ := State.loseOperation_alt (hop.trans ho) hc ha
      have hmap : (u.lostPorts d).spareMap = u.spareMap := by
        rw [hs]
        rfl
      rw [vmap, valt, hvop, State.lostOperation_eq, hm, Operation.undone_eq ha, hmap]
      exact ⟨rfl, res, hl, hd, hh, hout, hmk, hrt, hi⟩
  · let w := ((u.modPos d Positioner.readyGained).staleEntries d).removeSuspectsOf d
    have hexec : exec (.readyGained d) s = .next (w.postStateChange u d).serveClaims := by
      unfold exec execReadyGained
      exact (State.perform_finds _ hu).trans (by rw [State.gainReady, if_pos hn])
    obtain ⟨a, b, hv⟩ := State.postStateChange_shape w u d
    refine ⟨_, hexec, ?_, by rw [hv]; rfl, ?_, by rw [hv]; rfl, by rw [hv]; rfl, fun e he => ?_, fun p => ?_⟩
    · rw [hv]
      exact State.modPos_pos_same u d _
    · rw [hv]
      show u.suspects.filter _ = _
      simp
    · rw [hv]
      exact State.modPos_pos_ne u d _ e he.symm
    · rw [State.postStateChange_queue]
      refine if_ctx_congr Iff.rfl (fun hp => ?_) fun _ => rfl
      refine (State.post_queue_congr (s := u) (t := w) (q := p) rfl rfl _).trans ?_
      have hd : (u.port p).state ≠ .disabled := by
        rcases hp.1 with h | h <;> simp [h]
      rw [State.post_queue, if_pos ⟨rfl, hd⟩]

end Sys2Proof.Machine
end

section
/-! SUPPORT. The step, the written frames, and where drive commands are taken, refused and admitted. -/

namespace Sys2Proof.Machine

open Sys2Proof

/-! ## One step (log 2) -/

-- The proofs before this one end before those after it begin: they have to compile within the check's memory.
set_option Elab.async false in
/-- Settles O1: a step reads the front of the queue. -/
theorem stepTakesTheFrontCommand : Obligations.StepTakesTheFrontCommand := by
  unfold Obligations.StepTakesTheFrontCommand
  refine ⟨fun s c rest h => ?_, fun s c => rfl⟩
  unfold step
  rw [h]

/-! ## Frames written out (8.10) -/

/-- The body of a STATUS by its items, without an alternate result and with one. -/
theorem Status.body_plain {st : Status} (h : st.alt = none) : st.body =
    [byteOf st.itemsCode, byteOf st.reason.code, byteOf st.detail.code] ++ twoBytes st.residual := by
  simp [Status.body, h]

theorem Status.body_alternate {st : Status} {x : AltResult} (h : st.alt = some x) : st.body =
    [byteOf st.itemsCode, byteOf st.reason.code, byteOf st.detail.code] ++ twoBytes st.residual ++ x.statusBytes := by
  simp [Status.body, h]

theorem OutFrame.bytes_status (a : Nat) (st : Status) (e : Bool) :
    (OutFrame.status a st e).bytes = [0x81, byteOf a] ++ twoBytes st.body.length ++ st.body := rfl

/-- The OFFER of a notice has six bytes of body. -/
theorem OutFrame.bytes_notice (a : Nat) (n : Notice) : (OutFrame.offer a (.notice n)).bytes =
    [0x85, byteOf a, 0, 6, 3, byteOf n.code, n.driveByte] ++ trackBytes n.track := by
  have hlen : (Offer.body (.notice n)).length = 6 := by cases n <;> rfl
  have htwo : twoBytes 6 = [0, 6] := by decide
  show [0x85, byteOf a] ++ twoBytes (Offer.body (.notice n)).length ++ Offer.body (.notice n) = _
  rw [hlen, htwo]
  rfl

theorem trackBytes_length (x : Option Track) : (trackBytes x).length = 3 := by
  cases x <;> rfl

theorem AltResult.statusBytes_length (x : AltResult) : x.statusBytes.length = 11 := by
  simp [AltResult.statusBytes, trackBytes_length, twoBytes]

theorem AltOrder.code_eq (x : AltOrder) : x.code = if x = .assign then 1 else 2 := by
  cases x <;> rfl

/-- A STATUS frame with an alternate result has sixteen bytes of body. -/
theorem OutFrame.bytes_alternate {st : Status} {x : AltResult} (h : st.alt = some x) (a : Nat) (e : Bool) :
    (OutFrame.status a st e).bytes = [0x81, byteOf a, 0, 16] ++
      ([byteOf st.itemsCode, byteOf st.reason.code, byteOf st.detail.code] ++ twoBytes st.residual ++ x.statusBytes) := by
  have hlen : st.body.length = 16 := by
    rw [Status.body_alternate h]
    simp [AltResult.statusBytes_length, twoBytes]
  have htwo : twoBytes 16 = [0, 16] := by decide
  rw [OutFrame.bytes_status, hlen, htwo, Status.body_alternate h]
  rfl

/-- Settles O11: the inbound frames and the codes by evaluation, the outbound ones by their layouts. -/
theorem writtenFramesDecode : Obligations.WrittenFramesDecode := by
  unfold Obligations.WrittenFramesDecode
  intro two track bit
  have hcode : byteOf 1 = 1 ∧ byteOf 2 = 2 ∧ byteOf 3 = 3 ∧ byteOf 4 = 4 ∧ byteOf 5 = 5 := by decide
  have hone : twoBytes 1 = [0, 1] := by decide
  have hbit : ∀ (b : Bool) n, b.toNat * n = bit b n := fun b n => by cases b <;> simp [bit]
  have hbits : ∀ st : Status, st.itemsCode = bit st.accept 0x80 + bit st.disconnect 0x40 + bit st.done 0x20 +
      bit st.matched 0x10 + bit st.endCyl 0x08 + bit st.halted 0x04 + bit st.held 0x02 + bit st.fault 0x01 := fun st => by
    simp only [Status.itemsCode, hbit]
  refine ⟨by decide, by decide, by decide, by decide, by decide, by decide, by decide, fun a st e => ⟨fun h => ?_, fun x h => ?_⟩,
    fun a off bs => rfl, fun a off n => ?_, fun a d t => ⟨?_, ?_, ?_, ?_, ?_, ?_, ?_⟩, rfl, rfl, rfl, fun t => rfl, rfl, rfl,
    rfl⟩
  · have hlen : st.body.length = 5 := by
      rw [Status.body_plain h]
      rfl
    have htwo : twoBytes 5 = [0, 5] := by decide
    rw [OutFrame.bytes_status, hlen, htwo, Status.body_plain h, ← hbits]
    rfl
  · rw [OutFrame.bytes_alternate h, ← hbits]
    cases hx : x.alternate <;>
      simp [hx, AltResult.statusBytes, AltResult.flags, AltOrder.code_eq, bit, two, twoBytes, track, trackBytes]
  · have htwo : twoBytes 4 = [0, 4] := by decide
    unfold OutFrame.bytes
    rw [htwo]
    rfl
  · show [0x85, byteOf a] ++ twoBytes 1 ++ [1] = _
    rw [hone]
    rfl
  · show [0x85, byteOf a] ++ twoBytes 1 ++ [2] = _
    rw [hone]
    rfl
  all_goals
    rw [OutFrame.bytes_notice]
    simp only [Notice.code, hcode]
    rfl

/-! ## Unit orders (R148, R185) -/

section Orders
variable {s u t r : State} {h : Hdr} {p : Port} {d : Drive} {st : Status}

/-- A unit order that needs the control strap is refused without it. -/
theorem State.controlOrder_refused (ht : u.TakesOrder h t) (hc : (t.port h.port).straps.control = false) (take : State → State) :
    u.controlOrder h take = t.unitReject h.port 0 := by
  unfold State.controlOrder
  rw [State.unitOrder_takes ht]
  simp [hc]

theorem State.unitStatus_stands (hc : (t.port p).closing = false) : t.unitStatus p st = t.modPort p fun r =>
    { r with link := r.link ++ [.status (r.addressOf .unit) st false], idleTimer := some (t.now + 250) } := by
  unfold State.unitStatus State.sendStatus State.push State.armIdle
  rw [hc, if_neg Bool.false_ne_true, State.modPort_modPort]
  simp [State.modPort]

theorem State.unitStatus_closing (hc : (t.port p).closing = true) : t.unitStatus p st = t.modPort p fun r =>
    { r with link := r.link ++ [.status (r.addressOf .unit) { st with disconnect := true } true] } := by
  unfold State.unitStatus State.sendStatus State.push
  rw [if_pos hc]
  simp [State.modPort, Status.disc]

end Orders

/-- Settles O38: the STATUS of an order whose connection stands or is closing, and the refusal without the strap. -/
theorem unitOrderAnswers : Obligations.UnitOrderAnswers := by
  unfold Obligations.UnitOrderAnswers
  refine ⟨fun t p st => ⟨State.unitStatus_stands, State.unitStatus_closing⟩, fun s u t h i hu ht hc hi => ?_⟩
  have hr := fun take => State.controlOrder_refused ht hc take
  rcases hi with ⟨ty, x, rfl⟩ | ⟨d, c, ty, w, cur, rfl⟩ | ⟨es, rfl⟩ | ⟨d, x, rfl⟩ | ⟨d, x, rfl⟩ | ⟨d, x, rfl⟩ | rfl
  · unfold exec execLoadDriveType
    exact (State.perform_finds _ hu).trans (by rw [hr]; rfl)
  · unfold exec execLoadDriveRecord
    exact (State.perform_finds _ hu).trans (by rw [hr]; rfl)
  · unfold exec execLoadSpareEntries
    exact (State.perform_finds _ hu).trans (by rw [hr]; rfl)
  · unfold exec execDeleteSpareEntry
    exact (State.perform_finds _ hu).trans (by rw [hr]; rfl)
  · unfold exec execAssignAlternate
    exact (State.perform_finds _ hu).trans (by rw [hr]; rfl)
  · unfold exec execRestoreTrack
    exact (State.perform_finds _ hu).trans (by rw [hr]; rfl)
  · unfold exec execUnitClear
    exact (State.perform_finds _ hu).trans (by rw [hr]; rfl)

/-! ## Where a drive command is taken (R78) -/

section Places
variable {s u t r : State} {h : Hdr} {p : Port} {d : Drive} {o : Operation} {hold : Bool} {st : Steps}
variable {first : State → Drive → State} {within : State → Drive → Operation → State} {bare : State → Drive → State}

theorem State.opOn_some (ho : u.op d = some o) (hc : o.conn = some p) : u.opOn d p = some o := by
  simp [State.opOn, ho, hc]

theorem State.opOn_none (ho : ∀ o, u.op d = some o → o.conn ≠ some p) : u.opOn d p = none := by
  unfold State.opOn
  split
  next o h => exact if_neg (ho o h)
  next => rfl

theorem State.opOn_iff : u.opOn d p = some o ↔ u.op d = some o ∧ o.conn = some p := by
  unfold State.opOn
  cases u.op d with
  | none => simp
  | some o' =>
    by_cases hc : o'.conn = some p
    · simp only [if_pos hc, Option.some.injEq]
      exact ⟨fun h => ⟨h, h ▸ hc⟩, fun h => h.1⟩
    · simp only [if_neg hc, Option.some.injEq, reduceCtorEq, false_iff]
      rintro ⟨rfl, h⟩
      exact hc h

theorem State.driveCommand_opens (ho : u.Opens h (.drive d) r) : u.driveCommand h hold first within bare = first r d := by
  unfold State.driveCommand
  rw [ho]

/-- At the unit address a drive command is refused, as the first of a SELECT or in a standing connection. -/
theorem State.driveCommand_unit (ho : u.Opens h .unit r ∨ u.Stands h .unit ∧ r = u) :
    u.driveCommand h hold first within bare = r.unitRefuse h.port := by
  unfold State.driveCommand
  rcases ho with ho | ⟨hs, rfl⟩
  · rw [ho]
  · rw [hs]

/-- In a connection whose operation has a command in progress, that is stopped. -/
theorem State.driveCommand_busy (hs : u.Stands h (.drive d)) (ho : u.opOn d h.port = some o) (hc : o.cmd ≠ none) :
    u.driveCommand h hold first within bare = u.rejectWithin d h.port hold := by
  unfold State.driveCommand
  rw [hs]
  dsimp only
  rw [ho]
  simp [Option.isSome_iff_ne_none.mpr hc]

/-- In a connection whose operation has none, the command is taken by that operation. -/
theorem State.driveCommand_chains (hc : u.Chains h d o) : u.driveCommand h hold first within bare = within u d o := by
  obtain ⟨hs, ho, hn⟩ := hc
  unfold State.driveCommand
  rw [hs]
  dsimp only
  rw [ho]
  simp [hn]

/-- In a connection without an operation, an answer due or awaited ends with the refusal. -/
theorem State.driveCommand_due (hs : u.Stands h (.drive d)) (ho : u.opOn d h.port = none)
    (hd : (u.port h.port).answer.isSome = true ∨ (u.port h.port).awaiting = true) :
    u.driveCommand h hold first within bare = u.bareReject h.port d := by
  unfold State.driveCommand
  rw [hs]
  dsimp only
  rw [ho]
  exact if_pos hd

theorem State.driveCommand_bare (hs : u.Stands h (.drive d)) (ho : u.opOn d h.port = none)
    (hd : ¬ ((u.port h.port).answer.isSome = true ∨ (u.port h.port).awaiting = true)) :
    u.driveCommand h hold first within bare = bare u d := by
  unfold State.driveCommand
  rw [hs]
  dsimp only
  rw [ho]
  exact if_neg hd

theorem State.passAdmission_fault {k : FaultKind} (ha : r.admission d p st = .fault k) (f : State → State) :
    r.passAdmission d p st f = r.reply p d (.faultOf k .none 0) := by
  simp [State.passAdmission, ha]

theorem State.passAdmission_held {x : Reason} (ha : r.admission d p st = .held x) (f : State → State) :
    r.passAdmission d p st f = (r.oweCommand d p).reply p d (.heldFor x) := by
  simp [State.passAdmission, ha]

/-! ## Admission (R160) -/

theorem State.admission_notConfigured (hc : (r.record d).configured = false) : r.admission d p st = .fault .notConfigured := by
  simp [State.admission, hc]

theorem State.admission_notReady (hc : (r.record d).configured = true) (ha : (r.pos d).actuator = .notReady) :
    r.admission d p st = .fault .notReady := by
  simp [State.admission, hc, ha]

/-- Past the first two conditions the hold, the reservation and the operation decide. -/
theorem State.admission_past (hc : (r.record d).configured = true) (ha : (r.pos d).actuator ≠ .notReady) :
    r.admission d p st = if st = .all ∧ r.heldByOther d p = true then .held .hold
      else if st = .all ∧ r.reservedByOther d p = true then .held .reserved
      else if st ≠ .ready ∧ (r.op d).isSome = true then .held .busy else .admitted := by
  simp [State.admission, hc, ha]

/-- READ FAULT RECORD is tested at steps 1 and 2 from the holding port, at all from any other. -/
theorem State.faultRecordSteps_eq (h1 : (∃ x, (r.share d).hold = some x ∧ x.port = p) → st = .ready)
    (h2 : ¬ (∃ x, (r.share d).hold = some x ∧ x.port = p) → st = .all) : r.faultRecordSteps d p = st := by
  unfold State.faultRecordSteps
  split
  next h => exact (h1 (State.heldBy_iff.mp h)).symm
  next h => exact (h2 fun hx => h (State.heldBy_iff.mpr hx)).symm

/-- A code outside chapter 9's four is taken as any command that may not be the first of a SELECT. -/
theorem State.unknownFirst_other {n : Nat} (hn : n ∉ [0x16, 0x17, 0x19, 0x1A]) : r.unknownFirst d p n = r.neverFirst d p := by
  unfold State.unknownFirst
  dsimp only
  split
  next => exact absurd (by decide) hn
  next => exact absurd (by decide) hn
  next => exact absurd (by decide) hn
  next => exact absurd (by decide) hn
  next => rfl

/-- The commands that are tested at given steps of admission. -/
def testedAt (i : Instr) (h : Hdr) (d : Drive) (r : State) (st : Steps) : Prop :=
  let own : Prop := ∃ x, (r.share d).hold = some x ∧ x.port = h.port
  let code (n : Nat) : Prop := ∃ ps, i = .unknownCommandCode h n ps
  st = .all ∧ (i = .recalibrate h ∨ i = .reserve h ∨ (∃ t rec sec, i = .locate h t rec sec) ∨ (∃ n, i = .write h n) ∨
      (∃ n sp, i = .read h n sp) ∨ (∃ c a, i = .search h c a) ∨ (∃ ds, i = .formatTrack h ds) ∨
      ∃ n, code n ∧ n ∉ [0x16, 0x17, 0x19, 0x1A]) ∨
    (i = .readFaultRecord h ∨ code 0x17) ∧ (own → st = .ready) ∧ (¬ own → st = .all) ∨
    st = .release ∧ (i = .release h ∨ code 0x1A) ∨ st = .ready ∧ (i = .reserveUnconditional h ∨ code 0x19)

/-- As the first of a SELECT such a command goes through admission at its steps. -/
theorem exec_tested {i : Instr} (hu : s.Finds u) (ho : u.Opens h (.drive d) r) (hi : testedAt i h d r st) :
    ∃ k, exec i s = .next (r.passAdmission d h.port st k).serveClaims := by
  have hcmd := fun hold first within bare =>
    State.driveCommand_opens (hold := hold) (first := first) (within := within) (bare := bare) ho
  rcases hi with ⟨rfl, hi⟩ | ⟨hi, h1, h2⟩ | ⟨rfl, hi⟩ | ⟨rfl, hi⟩
  · rcases hi with rfl | rfl | ⟨t, rec, sec, rfl⟩ | ⟨n, rfl⟩ | ⟨n, sp, rfl⟩ | ⟨c, a, rfl⟩ | ⟨ds, rfl⟩ | ⟨n, ⟨ps, rfl⟩, hn⟩
    · unfold exec execRecalibrate
      exact ⟨_, (State.perform_finds _ hu).trans (by rw [State.selectOnly, hcmd]; rfl)⟩
    · unfold exec execReserve
      exact ⟨_, (State.perform_finds _ hu).trans (by rw [State.sharingCommand, hcmd]; rfl)⟩
    · unfold exec execLocate
      exact ⟨_, (State.perform_finds _ hu).trans (by rw [State.selectOnly, hcmd]; rfl)⟩
    · unfold exec execWrite
      exact ⟨_, (State.perform_finds _ hu).trans (by rw [State.operationOnly, hcmd]; rfl)⟩
    · unfold exec execRead
      exact ⟨_, (State.perform_finds _ hu).trans (by rw [State.operationOnly, hcmd]; rfl)⟩
    · unfold exec execSearch
      exact ⟨_, (State.perform_finds _ hu).trans (by rw [State.operationOnly, hcmd]; rfl)⟩
    · unfold exec execFormatTrack
      exact ⟨_, (State.perform_finds _ hu).trans (by rw [State.operationOnly, hcmd]; rfl)⟩
    · unfold exec execUnknownCommandCode
      exact ⟨_, (State.perform_finds _ hu).trans (by rw [hcmd, State.unknownFirst_other hn]; rfl)⟩
  · have hst := State.faultRecordSteps_eq h1 h2
    rcases hi with rfl | ⟨ps, rfl⟩
    · unfold exec execReadFaultRecord
      exact ⟨_, (State.perform_finds _ hu).trans (by rw [State.sharingCommand, hcmd, hst])⟩
    · unfold exec execUnknownCommandCode
      exact ⟨_, (State.perform_finds _ hu).trans (by rw [hcmd, ← hst]; rfl)⟩
  · rcases hi with rfl | ⟨ps, rfl⟩
    · unfold exec execRelease
      exact ⟨_, (State.perform_finds _ hu).trans (by rw [State.sharingCommand, hcmd])⟩
    · unfold exec execUnknownCommandCode
      exact ⟨_, (State.perform_finds _ hu).trans (by rw [hcmd]; rfl)⟩
  · rcases hi with rfl | ⟨ps, rfl⟩
    · unfold exec execReserveUnconditional
      exact ⟨_, (State.perform_finds _ hu).trans (by rw [State.sharingCommand, hcmd])⟩
    · unfold exec execUnknownCommandCode
      exact ⟨_, (State.perform_finds _ hu).trans (by rw [hcmd]; rfl)⟩

end Places

/-- Settles O13: the conditions in their order, and the two refusals of admission wherever it is tested. -/
theorem admissionTakesTheFirstConditionMet : Obligations.AdmissionTakesTheFirstConditionMet := by
  unfold Obligations.AdmissionTakesTheFirstConditionMet
  refine ⟨fun u d p => ⟨fun hc st => State.admission_notConfigured hc, fun hc ha st => State.admission_notReady hc ha,
    fun hc ha => ⟨fun hx => ?_, fun hx => ⟨fun hg => ?_, fun hg => ?_⟩, ?_, ?_⟩⟩, fun s u r h d i st hu ho => ?_⟩
  · have hh : u.heldByOther d p = true := by
      rw [← Bool.not_eq_false, State.heldByOther_eq_false]
      intro hall
      obtain ⟨x, hx, hp⟩ := hx
      exact hp (hall x hx)
    simp [State.admission_past hc ha, hh]
  · have hr : u.reservedByOther d p = true := by
      rw [← Bool.not_eq_false, State.reservedByOther_eq_false]
      intro hall
      obtain ⟨g, hg, hne⟩ := hg
      exact hne (hall g hg)
    simp [State.admission_past hc ha, State.heldByOther_eq_false.mpr hx, hr]
  · simp [State.admission_past hc ha, State.heldByOther_eq_false.mpr hx, State.reservedByOther_eq_false.mpr hg]
  · simp [State.admission_past hc ha]
  · simp [State.admission_past hc ha]
  · intro own code hi
    obtain ⟨k, he⟩ := exec_tested (st := st) hu ho hi
    refine ⟨fun f hf => ?_, fun x hx => ?_⟩
    · rw [he, State.passAdmission_fault hf]
      rfl
    · rw [he, State.passAdmission_held hx]
      rfl

end Sys2Proof.Machine
end

section
/-! SUPPORT. A SELECT or COMMAND by the state of its port (8.1, 8.2), and the refusals in a standing connection (R78, R147). -/

namespace Sys2Proof.Machine

open Sys2Proof

section Receive
variable {u v : State} {h : Hdr} {c c' : Conn} {p : Port} {d : Drive} {o : Operation}

/-! ## A frame by the state of its port (R141, R143) -/

-- The proofs before this one end before those after it begin: they have to compile within the check's memory.
set_option Elab.async false in
theorem State.receive_nowhere (hn : (u.port h.port).state = .disabled ∨ (u.port h.port).named h.address = none) :
    u.receive h = (u, .nowhere) := by
  unfold State.receive
  split
  next => rfl
  next hs => rw [hn.resolve_left hs]

theorem State.receive_select (hn : (u.port h.port).named h.address = some c) (hv : h.via = .select)
    (hs : (u.port h.port).state ≠ .disabled) : u.receive h = u.selectAt h.port c := by
  simp [State.receive, hs, hn, hv]

theorem State.receive_command (hn : (u.port h.port).named h.address = some c) (hv : h.via = .command)
    (hs : (u.port h.port).state = .connected) : u.receive h = u.commandAt h.port c := by
  simp [State.receive, hs, hn, hv]

/-- A port that ends its connection, or whose connection is being set aside, is busy with DISCONNECT. -/
theorem State.busyConnected_ending (h : (u.port p).ending = true ∨ (u.port p).draining = true) :
    u.busyConnected p c = u.sendStatus p c { held := true, disconnect := true, reason := .portBusy } false := by
  have hb : ((u.port p).ending || (u.port p).draining) = true := by simpa using h
  unfold State.busyConnected
  dsimp only
  rw [hb]
  rfl

/-- In a standing connection the busy STATUS lets it stand. -/
theorem State.busyConnected_stands (h1 : (u.port p).ending = false) (h2 : (u.port p).draining = false) :
    u.busyConnected p c =
      let t := u.sendStatus p c { held := true, reason := .portBusy } false
      match (u.port p).conn with
      | some .unit => if (u.port p).answer = none then t.armIdle p else t
      | some (.drive d) => if (u.opOn d p).isSome then t.modOp d fun o => { o with idle := 0 } else t
      | none => t := by
  unfold State.busyConnected
  dsimp only
  rw [h1, h2]
  rfl

theorem State.commandAt_ending (hc : (u.port p).conn = some c') (h : (u.port p).ending = true ∨ (u.port p).draining = true) :
    u.commandAt p c = (u.refuseEnding p c', .nowhere) := by
  unfold State.commandAt
  rw [hc]
  exact if_pos h.symm

theorem State.commandAt_stands (hc : (u.port p).conn = some c') (h1 : (u.port p).ending = false)
    (h2 : (u.port p).draining = false) : u.commandAt p c = if c = c' then (u, .within c)
      else match c' with
        | .drive d => (u.rejectWithin d p true, .nowhere)
        | .unit => (u.unitRefuse p, .nowhere) := by
  unfold State.commandAt
  rw [hc]
  exact if_neg (by simp [h1, h2])

/-- A COMMAND taken in a connection finds it standing, with nothing that ends it under way. -/
theorem State.stands_port (hs : u.Stands h c) : (u.port h.port).conn = some c ∧ (u.port h.port).ending = false ∧
    (u.port h.port).draining = false := by
  unfold State.Stands State.receive at hs
  split at hs
  next => simp at hs
  next =>
    split at hs
    next => simp at hs
    next c' hn =>
      split at hs
      next =>
        unfold State.selectAt at hs
        split at hs
        next => simp at hs
        next => simp at hs
        next => simp at hs
        next => split at hs <;> simp at hs
        next => simp at hs
      next =>
        split at hs
        next => simp at hs
        next => simp at hs
        next =>
          unfold State.commandAt at hs
          split at hs
          next x hx =>
            split at hs
            next => simp at hs
            next hne =>
              obtain ⟨h1, h2⟩ := not_or.mp hne
              split at hs
              next hc =>
                cases hs
                exact ⟨hx.trans (by rw [hc]), by simpa using h2, by simpa using h1⟩
              next => split at hs <;> simp at hs
          next => simp at hs
        next => simp at hs
        next => simp at hs

/-! ## The refusals (R78, R147) -/

/-- The refusal in a drive connection without an operation. -/
theorem State.bareReject_eq (he : (u.port p).ending = false) : u.bareReject p d =
    ((u.modPort p PortRec.emptied).modPort p fun r => { r with awaiting := false }).sendStatus p (.drive d)
      (Status.faultOf .commandReject .none 0).disc true := by
  have hend : ({ (u.port p).emptied with awaiting := false } : PortRec).ending = false := dropData_notEnding he
  unfold State.bareReject State.reply
  rw [State.modPort_port_same, hend, State.modPort_modPort]
  rfl

/-- The end of a connection whose operation o is refused a COMMAND, in v, with a hold or without (R78, R166). -/
def State.refusedIn (v : State) (d : Drive) (p : Port) (o : Operation) (hold : Bool) (residual : Nat) : State :=
  if hold then v.faultInConnection d p o .commandReject .none residual none
  else ((v.modPort p fun r => { r with answer := none, held := [], requests := [] }).sendStatus p (.drive d)
    { fault := true, reason := .fault .commandReject, residual := residual, disconnect := true } true).endOperation d

theorem State.finishStopped_rejected (ho : v.op d = some o) (hold : Bool) (residual : Nat) :
    v.finishStopped d p (.rejected hold) residual = v.refusedIn d p o hold residual := by
  unfold State.finishStopped State.refusedIn
  rw [ho]
  cases hold <;> rfl

/-- Inside a WRITE's data field the stop is kept with the command, and the buffer goes. -/
theorem State.stopCommand_write {w : WriteCmd} (ho : v.op d = some o) (hw : o.cmd = some (.write w)) (hb : w.begun = true)
    (hs : w.stop = none) (e : StopEnd) : v.stopCommand d p e = (v.modPort p PortRec.emptied).setOp d
      (some { o with cmd := some (.write { w with stop := some e, toAsk := [] }) }) := by
  have hop : (v.modPort p PortRec.emptied).op d = some o := ho
  have hstop : v.stopCommand d p e = (v.modPort p PortRec.emptied).setCmd d (.write { w with stop := some e, toAsk := [] }) := by
    unfold State.stopCommand
    rw [ho]
    simp [hw, hb, hs]
  rw [hstop]
  exact State.modOp_some _ _ _ hop

/-- Inside a FORMAT TRACK's writing likewise. -/
theorem State.stopCommand_format {f : FormatCmd} (ho : v.op d = some o) (hf : o.cmd = some (.format f)) (hb : f.begun = true)
    (hs : f.stop = none) (e : StopEnd) : v.stopCommand d p e =
      v.setOp d (some { o with cmd := some (.format { f with stop := some e }) }) := by
  have hstop : v.stopCommand d p e = v.setCmd d (.format { f with stop := some e }) := by
    unfold State.stopCommand
    rw [ho]
    simp [hf, hb, hs]
  rw [hstop]
  exact State.modOp_some _ _ _ ho

/-- A write that is being stopped already goes on to the end it was given (log 22). -/
theorem State.stopCommand_again (ho : v.op d = some o)
    (hs : (∃ w, o.cmd = some (.write w) ∧ w.begun = true ∧ w.stop.isSome = true) ∨
      ∃ f, o.cmd = some (.format f) ∧ f.begun = true ∧ f.stop.isSome = true) (e : StopEnd) : v.stopCommand d p e = v := by
  unfold State.stopCommand
  rw [ho]
  rcases hs with ⟨w, hw, hb, hs⟩ | ⟨f, hf, hb, hs⟩
  · simp [hw, hb, hs]
  · simp [hf, hb, hs]

/-- What a command in progress becomes as it is stopped at once by a refused COMMAND. -/
theorem State.stopCommand_refused (ho : v.op d = some o) (hw : o.writing = false) (hold : Bool) :
    v.stopCommand d p (.rejected hold) = (v.modPort p o.clearsBuffer).refusedIn d p o hold o.stopResidual := by
  rw [State.stopCommand_atOnce ho hw]
  exact State.finishStopped_rejected (v := v.modPort p o.clearsBuffer) ho hold _

/-- Commands that have no bytes in the port's buffer leave it alone. -/
theorem State.clearsBuffer_keeps (h : o.cmd = none ∨ (∃ f, o.cmd = some (.locate f)) ∨ (∃ k g ph, o.cmd = some (.search k g ph)) ∨
    ∃ f, o.cmd = some (.format f)) : u.modPort p o.clearsBuffer = u := by
  have he : o.clearsBuffer = fun r => r := by
    funext r
    unfold Operation.clearsBuffer
    rcases h with h | ⟨_, h⟩ | ⟨_, _, _, h⟩ | ⟨_, h⟩ <;> rw [h]
  rw [he]
  exact State.modPort_id u p

theorem State.clearsBuffer_empties (h : o.cmd = some .driveState ∨ (∃ r, o.cmd = some (.read r)) ∨ ∃ w, o.cmd = some (.write w)) :
    u.modPort p o.clearsBuffer = u.modPort p PortRec.emptied := by
  have he : o.clearsBuffer = PortRec.emptied := by
    funext r
    unfold Operation.clearsBuffer
    rcases h with h | ⟨_, h⟩ | ⟨_, h⟩ <;> rw [h]
  rw [he]

theorem Operation.stopResidual_none (h : (∀ r, o.cmd ≠ some (.read r)) ∧ ∀ w, o.cmd ≠ some (.write w)) : o.stopResidual = 0 := by
  unfold Operation.stopResidual
  split
  next r hr => exact absurd hr (h.1 r)
  next w hw => exact absurd hw (h.2 w)
  all_goals rfl

theorem State.rejectWithin_op (ho : u.op d = some o) (hc : o.conn = some p) (hold : Bool) :
    u.rejectWithin d p hold = u.stopCommand d p (.rejected hold) := by
  unfold State.rejectWithin State.refuseWithin
  rw [State.opOn_some ho hc]
  rfl

theorem State.rejectWithin_bare (ho : ∀ o, u.op d = some o → o.conn ≠ some p) (hold : Bool) :
    u.rejectWithin d p hold = u.bareReject p d := by
  unfold State.rejectWithin State.refuseWithin
  rw [State.opOn_none ho]
  rfl

/-! ## The drive commands refused in a standing connection (R78) -/

variable {s : State} {hold : Bool} {i : Instr}
variable {first : State → Drive → State} {within : State → Drive → Operation → State} {bare : State → Drive → State}

/-- A command that the operation's connection refuses does so with a command in progress and without. -/
theorem State.driveCommand_refused (hs : u.Stands h (.drive d)) (ho : u.opOn d h.port = some o)
    (hw : within u d o = u.rejectWithin d h.port hold) :
    u.driveCommand h hold first within bare = u.rejectWithin d h.port hold := by
  by_cases hc : o.cmd = none
  · exact (State.driveCommand_chains ⟨hs, ho, hc⟩).trans hw
  · exact State.driveCommand_busy hs ho hc

/-- The same where the connection holds no operation. -/
theorem State.driveCommand_bareRefused (hs : u.Stands h (.drive d)) (ho : u.opOn d h.port = none)
    (hb : bare u d = u.bareReject h.port d) : u.driveCommand h hold first within bare = u.bareReject h.port d := by
  by_cases hd : (u.port h.port).answer.isSome = true ∨ (u.port h.port).awaiting = true
  · exact State.driveCommand_due hs ho hd
  · exact (State.driveCommand_bare hs ho hd).trans hb

theorem exemptCode_iff {code : Nat} : exemptCode code = true ↔ code ∈ [0x16, 0x17, 0x19, 0x1A] := by
  simp [exemptCode, or_assoc]

/-- The commands refused in every connection that holds an operation; `hold` says whether the refusal gives a hold. -/
def alwaysRefused (i : Instr) (h : Hdr) (hold : Bool) : Prop :=
  hold = true ∧ ((i = .recalibrate h ∨ ∃ x rec sec, i = .locate h x rec sec) ∨ i = .reserve h ∨
      ∃ code ps, i = .unknownCommandCode h code ps ∧ exemptCode code = false) ∨
    hold = false ∧ ((i = .readFaultRecord h ∨ i = .release h ∨ i = .reserveUnconditional h) ∨
      ∃ code ps, i = .unknownCommandCode h code ps ∧ exemptCode code = true)

theorem exec_alwaysRefused (hu : s.Finds u) (hs : u.Stands h (.drive d)) (ho : u.opOn d h.port = some o)
    (hi : alwaysRefused i h hold) : exec i s = .next (u.rejectWithin d h.port hold).serveClaims := by
  have hcmd := fun hold first within bare =>
    State.driveCommand_refused (hold := hold) (first := first) (within := within) (bare := bare) hs ho
  rcases hi with ⟨rfl, (rfl | ⟨x, rec, sec, rfl⟩) | rfl | ⟨code, ps, rfl, hc⟩⟩ | ⟨rfl, (rfl | rfl | rfl) | ⟨code, ps, rfl, hc⟩⟩
  · unfold exec execRecalibrate
    exact (State.perform_finds _ hu).trans (by rw [State.selectOnly, hcmd _ _ _ _ rfl])
  · unfold exec execLocate
    exact (State.perform_finds _ hu).trans (by rw [State.selectOnly, hcmd _ _ _ _ rfl])
  · unfold exec execReserve
    exact (State.perform_finds _ hu).trans (by rw [State.sharingCommand, hcmd _ _ _ _ rfl])
  · unfold exec execUnknownCommandCode
    exact (State.perform_finds _ hu).trans (by rw [hcmd _ _ _ _ rfl, hc]; rfl)
  · unfold exec execReadFaultRecord
    exact (State.perform_finds _ hu).trans (by rw [State.sharingCommand, hcmd _ _ _ _ rfl])
  · unfold exec execRelease
    exact (State.perform_finds _ hu).trans (by rw [State.sharingCommand, hcmd _ _ _ _ rfl])
  · unfold exec execReserveUnconditional
    exact (State.perform_finds _ hu).trans (by rw [State.sharingCommand, hcmd _ _ _ _ rfl])
  · unfold exec execUnknownCommandCode
    exact (State.perform_finds _ hu).trans (by rw [hcmd _ _ _ _ rfl, hc]; rfl)

/-- The commands refused while a command is in progress. -/
def refusedWhileBusy (i : Instr) (h : Hdr) (hold : Bool) : Prop :=
  hold = true ∧ ((∃ c a, i = .search h c a) ∨ (∃ n sp, i = .read h n sp) ∨ (∃ n, i = .write h n) ∨ ∃ ds, i = .formatTrack h ds) ∨
    hold = false ∧ i = .readDriveState h

theorem exec_refusedWhileBusy (hu : s.Finds u) (hs : u.Stands h (.drive d)) (ho : u.opOn d h.port = some o) (hc : o.cmd ≠ none)
    (hi : refusedWhileBusy i h hold) : exec i s = .next (u.rejectWithin d h.port hold).serveClaims := by
  have hcmd := fun hold first within bare =>
    State.driveCommand_busy (hold := hold) (first := first) (within := within) (bare := bare) hs ho hc
  rcases hi with ⟨rfl, ⟨c, a, rfl⟩ | ⟨n, sp, rfl⟩ | ⟨n, rfl⟩ | ⟨ds, rfl⟩⟩ | ⟨rfl, rfl⟩
  · unfold exec execSearch
    exact (State.perform_finds _ hu).trans (by rw [State.operationOnly, hcmd])
  · unfold exec execRead
    exact (State.perform_finds _ hu).trans (by rw [State.operationOnly, hcmd])
  · unfold exec execWrite
    exact (State.perform_finds _ hu).trans (by rw [State.operationOnly, hcmd])
  · unfold exec execFormatTrack
    exact (State.perform_finds _ hu).trans (by rw [State.operationOnly, hcmd])
  · unfold exec execReadDriveState
    exact (State.perform_finds _ hu).trans (by rw [hcmd])

/-- The commands refused in every connection without an operation. -/
def bareRefused (i : Instr) (h : Hdr) : Prop :=
  (i = .recalibrate h ∨ ∃ x rec sec, i = .locate h x rec sec) ∨
    ((∃ c a, i = .search h c a) ∨ (∃ n sp, i = .read h n sp) ∨ (∃ n, i = .write h n) ∨ ∃ ds, i = .formatTrack h ds) ∨
    ∃ code ps, i = .unknownCommandCode h code ps

theorem exec_bareRefused (hu : s.Finds u) (hs : u.Stands h (.drive d)) (ho : u.opOn d h.port = none)
    (hi : bareRefused i h) : exec i s = .next (u.bareReject h.port d).serveClaims := by
  have hcmd := fun hold first within bare =>
    State.driveCommand_bareRefused (hold := hold) (first := first) (within := within) (bare := bare) hs ho
  rcases hi with (rfl | ⟨x, rec, sec, rfl⟩) | (⟨c, a, rfl⟩ | ⟨n, sp, rfl⟩ | ⟨n, rfl⟩ | ⟨ds, rfl⟩) | ⟨code, ps, rfl⟩
  · unfold exec execRecalibrate
    exact (State.perform_finds _ hu).trans (by rw [State.selectOnly, hcmd _ _ _ _ rfl])
  · unfold exec execLocate
    exact (State.perform_finds _ hu).trans (by rw [State.selectOnly, hcmd _ _ _ _ rfl])
  · unfold exec execSearch
    exact (State.perform_finds _ hu).trans (by rw [State.operationOnly, hcmd _ _ _ _ rfl])
  · unfold exec execRead
    exact (State.perform_finds _ hu).trans (by rw [State.operationOnly, hcmd _ _ _ _ rfl])
  · unfold exec execWrite
    exact (State.perform_finds _ hu).trans (by rw [State.operationOnly, hcmd _ _ _ _ rfl])
  · unfold exec execFormatTrack
    exact (State.perform_finds _ hu).trans (by rw [State.operationOnly, hcmd _ _ _ _ rfl])
  · unfold exec execUnknownCommandCode
    exact (State.perform_finds _ hu).trans (by rw [hcmd _ _ _ _ rfl])

/-- Those of chapter 9, and READ DRIVE STATE, are refused there while an answer is due. -/
theorem exec_dueRefused (hu : s.Finds u) (hs : u.Stands h (.drive d)) (ho : u.opOn d h.port = none)
    (hd : (u.port h.port).answer.isSome = true ∨ (u.port h.port).awaiting = true)
    (hi : (i = .readFaultRecord h ∨ i = .release h ∨ i = .reserveUnconditional h) ∨ i = .reserve h ∨ i = .readDriveState h) :
    exec i s = .next (u.bareReject h.port d).serveClaims := by
  have hcmd := fun hold first within bare =>
    State.driveCommand_due (hold := hold) (first := first) (within := within) (bare := bare) hs ho hd
  rcases hi with (rfl | rfl | rfl) | rfl | rfl
  · unfold exec execReadFaultRecord
    exact (State.perform_finds _ hu).trans (by rw [State.sharingCommand, hcmd])
  · unfold exec execRelease
    exact (State.perform_finds _ hu).trans (by rw [State.sharingCommand, hcmd])
  · unfold exec execReserveUnconditional
    exact (State.perform_finds _ hu).trans (by rw [State.sharingCommand, hcmd])
  · unfold exec execReserve
    exact (State.perform_finds _ hu).trans (by rw [State.sharingCommand, hcmd])
  · unfold exec execReadDriveState
    exact (State.perform_finds _ hu).trans (by rw [hcmd])

end Receive

/-- Settles O12: the port's states in turn, then the refusals by the command that is stopped. -/
theorem framesByPortState : Obligations.FramesByPortState := by
  unfold Obligations.FramesByPortState
  intro u h reject emptied bare ended stopped chapter9 opens chains unknown
  have hstop : ∀ d o hold v, u.op d = some o → o.conn = some h.port → stopped d o hold v →
      u.rejectWithin d h.port hold = v := by
    intro d o hold v ho hc hs
    obtain ⟨h0, hstate, hread, hwrite, hformat⟩ := hs
    rw [State.rejectWithin_op ho hc]
    have hnow : ∀ w n, (u.modPort h.port o.clearsBuffer) = w → o.writing = false → o.stopResidual = n →
        v = w.refusedIn d h.port o hold n → u.stopCommand d h.port (.rejected hold) = v := by
      rintro w n rfl hw rfl rfl
      exact State.stopCommand_refused ho hw hold
    cases hcmd : o.cmd with
    | none =>
      exact hnow u 0 (State.clearsBuffer_keeps (.inl hcmd)) (by simp [Operation.writing, hcmd])
        (Operation.stopResidual_none (by simp [hcmd])) (h0 (.inl hcmd))
    | some c =>
      cases c with
      | locate f =>
        exact hnow u 0 (State.clearsBuffer_keeps (.inr (.inl ⟨f, hcmd⟩))) (by simp [Operation.writing, hcmd])
          (Operation.stopResidual_none (by simp [hcmd])) (h0 (.inr (.inl ⟨f, hcmd⟩)))
      | search k g ph =>
        exact hnow u 0 (State.clearsBuffer_keeps (.inr (.inr (.inl ⟨k, g, ph, hcmd⟩)))) (by simp [Operation.writing, hcmd])
          (Operation.stopResidual_none (by simp [hcmd])) (h0 (.inr (.inr (.inl ⟨k, g, ph, hcmd⟩))))
      | driveState =>
        exact hnow emptied 0 (State.clearsBuffer_empties (.inl hcmd)) (by simp [Operation.writing, hcmd])
          (Operation.stopResidual_none (by simp [hcmd])) (hstate hcmd)
      | read r =>
        exact hnow emptied _ (State.clearsBuffer_empties (.inr (.inl ⟨r, hcmd⟩))) (by simp [Operation.writing, hcmd])
          (by simp [Operation.stopResidual, hcmd, Operation.transferred]) (hread r hcmd)
      | write w =>
        obtain ⟨h1, h2, h3⟩ := hwrite w hcmd
        cases hb : w.begun with
        | false =>
          exact hnow emptied _ (State.clearsBuffer_empties (.inr (.inr ⟨w, hcmd⟩))) (by simp [Operation.writing, hcmd, hb])
            (by simp [Operation.stopResidual, hcmd, WriteCmd.drawn]) (h1 hb)
        | true =>
          by_cases hsn : w.stop = none
          · rw [State.stopCommand_write ho hcmd hb hsn, h2 hb hsn]
            rfl
          · have hsome := Option.isSome_iff_ne_none.mpr hsn
            rw [State.stopCommand_again ho (.inl ⟨w, hcmd, hb, hsome⟩), h3 hb hsome]
      | format f =>
        cases hb : f.begun with
        | false =>
          exact hnow u 0 (State.clearsBuffer_keeps (.inr (.inr (.inr ⟨f, hcmd⟩)))) (by simp [Operation.writing, hcmd, hb])
            (Operation.stopResidual_none (by simp [hcmd])) (h0 (.inr (.inr (.inr ⟨f, hcmd, hb⟩))))
        | true =>
          obtain ⟨h1, h2⟩ := hformat f hcmd hb
          by_cases hsn : f.stop = none
          · rw [State.stopCommand_format ho hcmd hb hsn, h1 hsn]
          · have hsome := Option.isSome_iff_ne_none.mpr hsn
            rw [State.stopCommand_again ho (.inr ⟨f, hcmd, hb, hsome⟩), h2 hsome]
  have hbare : ∀ d, (u.port h.port).ending = false → u.bareReject h.port d = bare d := fun d he => State.bareReject_eq he
  refine ⟨State.receive_nowhere, fun c hn => ⟨fun hv hs => ?_, fun hv hs hsent => ?_, fun hv hs => ?_, fun hv hs he => ?_,
    fun hv hs he hd => ?_, fun hv hs => ?_, fun hv hs => ?_, fun hv hs hc he hd => ?_, fun c' hv hs hc he => ?_,
    fun c' hv hs hc hne he hd => ⟨?_, ?_⟩⟩, fun s d hu hst => ⟨fun o v hold i ho hc hv hi => ?_, fun ho i hi => ?_⟩⟩
  · rw [State.receive_select hn hv (by simp [hs]), State.selectAt, hs]
    rfl
  · rw [State.receive_select hn hv (by simp [hs]), State.selectAt, hs]
    dsimp only
    rw [hsent]
    rfl
  · rcases hs with ⟨hs, hsent⟩ | hs
    · rw [State.receive_select hn hv (by simp [hs]), State.selectAt, hs]
      dsimp only
      rw [hsent]
      rfl
    · rw [State.receive_select hn hv (by simp [hs]), State.selectAt, hs]
      rfl
  · rw [State.receive_select hn hv (by simp [hs]), State.selectAt, hs]
    dsimp only
    rw [State.busyConnected_ending he]
  · intro busy
    have hr : u.receive h = (u.busyConnected h.port c, .nowhere) := by
      rw [State.receive_select hn hv (by simp [hs]), State.selectAt, hs]
    rw [hr, State.busyConnected_stands he hd]
    dsimp only
    refine ⟨fun hc ha => ?_, fun hc ha => ?_, fun hc => ?_, fun d hc => ⟨fun o ho hoc => ?_, fun ho => ?_⟩⟩
    · rw [hc]
      dsimp only
      rw [if_pos ha]
      rfl
    · rw [hc]
      dsimp only
      rw [if_neg (by simpa [Option.isSome_iff_ne_none] using ha)]
    · rw [hc]
    · rw [hc]
      dsimp only
      rw [State.opOn_some ho hoc, Option.isSome_some, if_pos rfl, State.modOp_some _ _ _ (o := o) (by exact ho)]
    · rw [hc]
      dsimp only
      rw [State.opOn_none ho]
      rfl
  · unfold State.receive
    rcases hs with hs | hs <;> simp [hs, hn, hv, State.noConnection, Status.faultOf, Status.disc]
  · unfold State.receive
    simp [hs, hn, hv]
  · rw [State.receive_command hn hv hs, State.commandAt_stands hc he hd, if_pos rfl]
  · rw [State.receive_command hn hv hs, State.commandAt_ending hc he]
    rfl
  · rintro rfl
    have hr : u.receive h = (u.unitRefuse h.port, .nowhere) := by
      rw [State.receive_command hn hv hs, State.commandAt_stands hc he hd, if_neg hne.symm]
    rw [hr]
    refine ⟨fun ha hcl => ?_, fun ha => ?_⟩
    · unfold State.unitRefuse State.unitReject State.unitStatus
      rw [ha, hcl]
      rfl
    · unfold State.unitRefuse
      rw [if_pos ha]
      rfl
  · rintro d rfl
    have hr : u.receive h = (u.rejectWithin d h.port true, .nowhere) := by
      rw [State.receive_command hn hv hs, State.commandAt_stands hc he hd, if_neg hne.symm]
    rw [hr]
    refine ⟨fun ho => ?_, fun o v ho hoc hv => ?_⟩
    · rw [State.rejectWithin_bare ho, hbare d he]
    · rw [hstop d o true v ho hoc hv]
  · have hop := State.opOn_some ho hc
    have hcode : ∀ code e, (code ∈ [0x16, 0x17, 0x19, 0x1A] ↔ e = true) → exemptCode code = e := fun code e he => by
      rw [Bool.eq_iff_iff, exemptCode_iff, he]
    rw [← hstop d o hold v ho hc hv]
    rcases hi with ⟨hh, hi⟩ | ⟨hh, hi⟩ | ⟨hcmd, hi⟩
    · refine exec_alwaysRefused hu hst hop (.inl ⟨hh, hi.imp id (Or.imp id ?_)⟩)
      rintro ⟨code, ps, rfl, he⟩
      exact ⟨code, ps, rfl, hcode _ _ he⟩
    · refine exec_alwaysRefused hu hst hop (.inr ⟨hh, hi.imp id ?_⟩)
      rintro ⟨code, ps, rfl, he⟩
      exact ⟨code, ps, rfl, hcode _ _ he⟩
    · exact exec_refusedWhileBusy hu hst hop hcmd hi
  · have hop := State.opOn_none ho
    rw [← hbare d (State.stands_port hst).2.1]
    rcases hi with hi | hi | ⟨e, code, ps, rfl, he⟩ | ⟨hd, hi⟩
    · exact exec_bareRefused hu hst hop (.inl hi)
    · exact exec_bareRefused hu hst hop (.inr (.inl hi))
    · exact exec_bareRefused hu hst hop (.inr (.inr ⟨code, ps, rfl⟩))
    · exact exec_dueRefused hu hst hop hd hi

end Sys2Proof.Machine
end

section
/-! SUPPORT. POWER ON block by block, and the drive commands that begin an operation or answer without one (chapters 5 and 9). -/

namespace Sys2Proof.Machine

open Sys2Proof

/-! ## POWER ON (11.4) -/

-- The proofs before this one end before those after it begin: they have to compile within the check's memory.
set_option Elab.async false in
/-- Settles O26: each block read back from the state that POWER ON builds. -/
theorem powerOnSetsEveryBlock : Obligations.PowerOnSetsEveryBlock := by
  unfold Obligations.PowerOnSetsEveryBlock
  intro straps levels s
  refine ⟨s.powerUp straps levels, rfl, rfl, rfl, rfl, fun p => ⟨?_, Vector.getElem_replicate _⟩, fun d => ⟨?_,
    Vector.getElem_replicate _, Vector.getElem_replicate _, Vector.getElem_replicate _, Vector.getElem_replicate _⟩,
    rfl, rfl, rfl, rfl, rfl, rfl, rfl⟩
  · exact State.powerUp_port straps levels p
  · rw [State.powerUp_pos]
    unfold Positioner.powerOn
    cases levels[d].ready <;> rfl

/-! ## A drive command admitted (R78, R160) -/

section Begins
variable {s u t r : State} {h : Hdr} {p : Port} {d : Drive}

theorem State.operationOnly_admits (ha : u.Admits h d t) (within : State → Drive → Operation → State) :
    u.operationOnly h within = t.rejectHolding d h.port 0 := by
  obtain ⟨r, ho, hr, rfl⟩ := ha
  unfold State.operationOnly
  rw [State.driveCommand_opens ho]
  exact State.passAdmission_admitted hr fun s => (s.endOwnHold d h.port).rejectHolding d h.port 0

theorem State.operationOnly_chains {o : Operation} (hc : u.Chains h d o) (within : State → Drive → Operation → State) :
    u.operationOnly h within = within u d o := State.driveCommand_chains hc

theorem State.selectOnly_admits (ha : u.Admits h d t) (k : Drive → State → State) :
    (u.selectOnly h fun s d => s.admitEnding d h.port (k d)) = k d t := by
  obtain ⟨r, ho, hr, rfl⟩ := ha
  unfold State.selectOnly
  rw [State.driveCommand_opens ho]
  exact State.passAdmission_admitted hr _

theorem DriveType.isHome_true {ty : DriveType} {x : Track} (h1 : x.cyl < ty.dataCyls) (h2 : x.head < ty.heads) :
    ty.isHome x = true := by
  simp [DriveType.isHome, h1, h2]

theorem DriveType.isHome_false {ty : DriveType} {x : Track} (h : ty.dataCyls ≤ x.cyl ∨ ty.heads ≤ x.head) :
    ty.isHome x = false := by
  simp only [DriveType.isHome, Bool.and_eq_false_iff, decide_eq_false_iff_not, not_lt]
  exact h

/-- A motion order is sent while fewer than two are unanswered (R36 to R38). -/
theorem State.orderMotion_sent (hu : (s.pos d).unanswered < 2) (kind : Actuator) (cyl dist : Nat) :
    s.orderMotion d kind cyl dist = (s.modPos d fun q =>
      { q with actuator := kind, cyl := none, motionTarget := some cyl, owned := true, status := none,
               deadline := some (s.now + (s.typeOf d).motionTime dist) }, .moving) := by
  unfold State.orderMotion
  rw [if_neg (not_le.mpr hu)]

theorem State.beginRecalibrate_sent (ha : (s.pos d).actuator = .uncalibrated ∨ (s.pos d).actuator = .onCylinder)
    (hu : (s.pos d).unanswered < 2) : s.beginRecalibrate d = s.modPos d fun q =>
      { q with actuator := .recalibrating, cyl := none, motionTarget := some 0, owned := true, status := none,
               deadline := some (s.now + (s.typeOf d).motionTime ((s.typeOf d).dataCyls + (s.typeOf d).altCyls)) } := by
  unfold State.beginRecalibrate State.orderRecalibrate
  rw [State.orderMotion_sent hu]
  rcases ha with ha | ha <;> rw [ha]

theorem State.beginRecalibrate_waits (ha : (s.pos d).actuator = .seeking ∨ (s.pos d).actuator = .recalibrating) :
    s.beginRecalibrate d = s := by
  unfold State.beginRecalibrate
  rcases ha with ha | ha <;> rw [ha]

end Begins

/-- Settles O27: a home track of the type is taken, any other refused with a hold. -/
theorem locateBegins : Obligations.LocateBegins := by
  unfold Obligations.LocateBegins
  intro s u t h d x record sector hu ha accepted o
  have he : exec (.locate h x record sector) s = .next (t.takeLocate d h.port x record sector).serveClaims := by
    unfold exec execLocate
    exact (State.perform_finds _ hu).trans
      (by rw [State.selectOnly_admits ha fun d s => s.takeLocate d h.port x record sector])
  rw [he]
  unfold State.takeLocate
  refine ⟨fun h1 h2 => ?_, fun hx => ?_⟩
  · rw [DriveType.isHome_true h1 h2, if_neg nofun]
    rfl
  · rw [DriveType.isHome_false hx, if_pos rfl]
    unfold State.rejectHolding State.beginHold
    rw [State.reply_typeOf, State.modShare, State.reply_share]
    rfl

/-- Settles O28: the operation is created, then the order goes out or the motion left over is awaited. -/
theorem recalibrateBegins : Obligations.RecalibrateBegins := by
  unfold Obligations.RecalibrateBegins
  intro s u t h d hu ha o t' ty
  have he : exec (.recalibrate h) s = .next (t'.beginRecalibrate d).serveClaims := by
    unfold exec execRecalibrate
    exact (State.perform_finds _ hu).trans
      (by rw [State.selectOnly_admits ha fun d s => s.takeRecalibrate d h.port]; rfl)
  have hpos : t'.pos d = t.pos d := rfl
  rw [he]
  refine ⟨fun hs hn => ?_, fun hs => ?_⟩
  · rw [State.beginRecalibrate_sent (by rwa [hpos]) (by rwa [hpos])]
    rfl
  · rw [State.beginRecalibrate_waits (by rwa [hpos])]

/-! ## RESERVE and RELEASE (R162, R163) -/

/-- Settles O34: the two answers by the port's group, and what the new owner keeps off. -/
theorem reserveTakesTheDrive : Obligations.ReserveTakesTheDrive := by
  unfold Obligations.ReserveTakesTheDrive
  intro s u r h d hu hr ha t g
  have he : exec (.reserve h) s = .next (t.takeReserve d h.port).serveClaims := by
    unfold exec execReserve
    exact (State.perform_finds _ hu).trans
      (by rw [State.sharingCommand_reaches hr, State.admitEnding, State.passAdmission_admitted ha])
  refine ⟨fun hg => ?_, fun hg => ?_, fun hg q => ?_, fun ho => ?_⟩
  · rw [he, State.takeReserve, if_pos hg]
    rfl
  · rw [he, State.takeReserve, if_neg hg]
    rfl
  · rw [State.reservedByOther, State.setShare_share_same, State.setShare_port]
  · exact State.setShare_self _ _ (by rw [← ho])

/-- Settles O35: owner and own hold go where they are the port's, with one test for both. -/
theorem releaseClearsTheOwner : Obligations.ReleaseClearsTheOwner := by
  unfold Obligations.ReleaseClearsTheOwner
  intro s u r h d hu hr ha g clears holds
  have he : exec (.release h) s = .next (r.takeRelease d h.port).serveClaims := by
    unfold exec execRelease
    exact (State.perform_finds _ hu).trans
      (by rw [State.sharingCommand_reaches hr, State.passAdmission_admitted ha])
  have hheld : holds ↔ r.heldBy d h.port = true := State.heldBy_iff.symm
  rw [he]
  unfold State.takeRelease
  refine ⟨fun hc hh => ?_, fun hc hh => ?_, fun hc hh => ?_, fun hc hh => ?_⟩
  · rw [hheld, Bool.not_eq_true] at hh
    simp only [hh, show (r.share d).owner = some (r.port h.port).group from hc, decide_true, if_true, Bool.true_or,
      Bool.false_eq_true, if_false]
    rfl
  · rw [hheld] at hh
    simp only [hh, show (r.share d).owner = some (r.port h.port).group from hc, decide_true, if_true, Bool.true_or,
      State.dropHold, State.setOwner, State.modShare_modShare]
    rfl
  · rw [hheld] at hh
    simp only [hh, show ¬ (r.share d).owner = some (r.port h.port).group from hc, decide_false, if_true, Bool.or_true,
      Bool.false_eq_true, if_false]
    rfl
  · rw [hheld, Bool.not_eq_true] at hh
    simp only [hh, show ¬ (r.share d).owner = some (r.port h.port).group from hc, decide_false, Bool.or_false,
      Bool.false_eq_true, if_false]
    rfl

/-! ## READ DRIVE STATE and READ FAULT RECORD (R101, R169) -/

section Answers
variable {s u t r : State} {h : Hdr} {p : Port} {d : Drive}

/-- An answer of at most 256 bytes is one DATA frame. -/
theorem answerFrames_one (a : Nat) {bs : List Byte} (h1 : bs ≠ []) (h2 : bs.length ≤ 256) :
    answerFrames a 2 0 bs = [.data a 0 bs] := by
  simp [answerFrames, h1, List.take_of_length_le h2, List.drop_eq_nil_of_le h2]

theorem State.answerData_one (c : Conn) {bs : List Byte} (h1 : bs ≠ []) (h2 : bs.length ≤ 256) :
    s.answerData p c bs = s.modPort p fun x =>
      { x with held := [], link := dropData x.link ++ [.data (x.addressOf c) 0 bs],
               answer := some { status := { done := true }, found := none, resets := false } } := by
  unfold State.answerData
  simp only [answerFrames_one _ h1 h2]
  rfl

theorem State.driveStateBytes_length : (s.driveStateBytes d).length = 14 := by
  simp [State.driveStateBytes, twoBytes, trackBytes_length]

theorem State.driveStateAnswer_eq : s.driveStateAnswer d p = s.modPort p fun x =>
    { x with held := [], link := dropData x.link ++ [.data (x.addressOf (.drive d)) 0 (s.driveStateBytes d)],
             answer := some { status := { done := true }, found := none, resets := false } } := by
  have hlen := State.driveStateBytes_length (s := s) (d := d)
  exact State.answerData_one _ (List.ne_nil_of_length_pos (by omega)) (by omega)

theorem FaultRecord.bytes_length (x : FaultRecord) : x.bytes.length = 15 := by
  simp [FaultRecord.bytes, twoBytes, trackBytes_length]

theorem State.faultRecordAnswer_eq (x : FaultRecord) : s.answerData p (.drive d) x.bytes = s.modPort p fun y =>
    { y with held := [], link := dropData y.link ++ [.data (y.addressOf (.drive d)) 0 x.bytes],
             answer := some { status := { done := true }, found := none, resets := false } } := by
  have hlen := x.bytes_length
  exact State.answerData_one _ (List.ne_nil_of_length_pos (by omega)) (by omega)

/-! ## A DATA frame that leaves (R145) -/

variable {o : Operation} {c : Answer}

/-- The DONE of a command of the operation's connection is produced as its last frame leaves. -/
theorem State.produce_done (hc : (s.port p).conn = some (.drive d)) (ho : s.op d = some o) (hoc : o.conn = some p)
    (hr : c.status.reason = .none) : s.produce p c =
      ((s.modPort p fun r => { r with answer := none }).sendStatus p (.drive d) c.status false).setOp d
        (some { o with cmd := none, idle := 0, searchIndex := if c.resets then 0 else o.searchIndex }) := by
  have hop : ((s.modPort p fun r => { r with answer := none }).sendStatus p (.drive d) c.status false).op d = some o := ho
  have hdone := State.modOp_some _ _ (fun o =>
    { o with cmd := none, idle := 0, searchIndex := if c.resets then 0 else o.searchIndex }) hop
  unfold State.produce
  rw [hc]
  dsimp only
  rw [State.modPort_op, ho]
  dsimp only
  rw [if_pos hoc, hr]
  exact hdone

/-- A DATA frame has left: with others still there, nothing more; else the connection set aside ends, or the answer due is
produced. -/
theorem State.frameLeft_data {a off : Nat} {bs : List Byte} {rest : List OutFrame} (hl : (s.port p).link = .data a off bs :: rest) :
    s.frameLeft p = (s.modPort p fun r => { r with link := rest }).dataLeft p (off + bs.length) := by
  unfold State.frameLeft
  rw [hl]

/-- A command that is no READ counts no bytes as sent. -/
theorem Operation.noteSent_other (h : ∀ r, o.cmd ≠ some (.read r)) (n : Nat) : o.noteSent n = o := by
  unfold Operation.noteSent
  split
  next r hr => exact absurd hr (h r)
  all_goals rfl

/-- The bytes of a DATA frame that has left are counted for a READ, up to this offset (R90). -/
def State.countSent (s : State) (p : Port) (n : Nat) : State :=
  match (s.port p).drive with
  | some d => if s.countsSent d p then s.modOp d fun o => o.noteSent n else s
  | none => s

theorem State.dataLeft_eq (n : Nat) : s.dataLeft p n =
    if (s.port p).slots ≠ 0 then s.countSent p n
    else if (s.port p).draining then (s.countSent p n).endConnection p
    else match (s.port p).answer with
      | some a => (s.countSent p n).produce p a
      | none => s.countSent p n := by
  have hport : (s.countSent p n).port p = s.port p := by
    unfold State.countSent
    split
    · split <;> rfl
    · rfl
  rw [← hport]
  rfl

theorem PortRec.drive_some {r : PortRec} : r.drive = some d ↔ r.conn = some (.drive d) := by
  unfold PortRec.drive
  split
  next e he => simp [he]
  next he => simp [he]
  next he => simp [he]

/-- No byte is counted where the connection's operation has no READ. -/
theorem State.countSent_none (hn : ∀ d o, (s.port p).conn = some (.drive d) → s.op d = some o → ∀ r, o.cmd ≠ some (.read r))
    (n : Nat) : s.countSent p n = s := by
  unfold State.countSent
  split
  next d hd =>
    split
    next =>
      cases ho : s.op d with
      | none => exact State.modOp_none _ _ _ ho
      | some o =>
        rw [State.modOp_some _ _ _ ho, Operation.noteSent_other (hn d o (PortRec.drive_some.mp hd) ho)]
        exact State.setOp_self _ _ ho
    next => rfl
  next => rfl

theorem State.dataLeft_last (hn : ∀ d o, (s.port p).conn = some (.drive d) → s.op d = some o → ∀ r, o.cmd ≠ some (.read r))
    (hs : (s.port p).slots = 0) (hd : (s.port p).draining = false) (n : Nat) (ha : (s.port p).answer = some c) :
    s.dataLeft p n = s.produce p c := by
  rw [State.dataLeft_eq, State.countSent_none hn, if_neg (not_not.mpr hs), hd, ha]
  rfl

/-- A link without DATA frames takes no slot. -/
theorem PortRec.slots_none {x : PortRec} (hl : x.link.all (fun f => !f.isData) = true) : x.slots = 0 := by
  unfold PortRec.slots
  rw [List.length_eq_zero_iff, List.filter_eq_nil_iff]
  intro f hf
  simpa using List.all_eq_true.mp hl f hf

end Answers

/-- Settles O32: the answer at once, without an operation and with one, and the DONE once its DATA has left. -/
theorem readDriveStateAnswers : Obligations.ReadDriveStateAnswers := by
  unfold Obligations.ReadDriveStateAnswers
  intro bytes done
  refine ⟨fun s u r h d hu hr => ?_, fun s u h d o hu hc => ?_,
    fun s u p d o a off bs rest hu hconn ho hoc hcmd hlink hrest hdrain hans => ?_⟩
  · unfold exec execReadDriveState
    refine (State.perform_finds _ hu).trans ?_
    have hcmd : (u.driveCommand h false (fun s d => s.driveStateAnswer d h.port)
        (fun s d _ => (s.setCmd d .driveState).driveStateAnswer d h.port) (fun s d => s.driveStateAnswer d h.port)) =
        r.driveStateAnswer d h.port := by
      rcases hr with ho | ⟨hs, hop, hans, haw, rfl⟩
      · exact State.driveCommand_opens ho
      · exact State.driveCommand_bare hs hop (by simp [hans, haw])
    rw [hcmd, State.driveStateAnswer_eq]
    rfl
  · unfold exec execReadDriveState
    refine (State.perform_finds _ hu).trans ?_
    have ho := (State.opOn_iff.mp hc.2.1).1
    rw [State.driveCommand_chains hc, State.setCmd, State.modOp_some _ _ _ ho, State.driveStateAnswer_eq]
    have hb : (u.setOp d (some { o with cmd := some .driveState })).driveStateBytes d = bytes u d := by
      simp only [State.driveStateBytes, State.setOp_op_same, State.setOp_pos, State.setOp_share, State.setOp_record,
        bytes, ho, twoBytes, Option.isSome_some]
    rw [hb]
  · unfold exec execOutboundFrameLeft
    refine (State.perform_finds _ hu).trans ?_
    let v := u.modPort p fun r => { r with link := rest }
    have hport : v.port p = { u.port p with link := rest } := State.modPort_port_same _ _ _
    have hv : v.port p = { u.port p with link := rest, conn := some (.drive d), draining := false, answer := some done } := by
      rw [hport, ← hconn, ← hdrain, ← hans]
    have hlast : v.dataLeft p (off + bs.length) = v.produce p done := by
      refine State.dataLeft_last ?_ ?_ ?_ _ ?_
      · intro e x hce hx r hr
        rw [hv] at hce
        cases hce
        rw [show v.op d = some o from ho] at hx
        cases hx
        simp [hcmd] at hr
      · exact PortRec.slots_none (by rw [hv]; exact hrest)
      · rw [hv]
      · rw [hv]
    rw [State.frameLeft_data hlink, hlast, State.produce_done (by rw [hv]) (by exact ho) hoc rfl]
    simp only [v, State.sendStatus, State.push, State.modPort_modPort, State.modPort_port_same]
    rfl

section FaultRecords
variable {s u t r : State} {h : Hdr} {p : Port} {d : Drive} {o : Operation}

/-- A command of chapter 9 that the operation's connection refuses with no command in progress. -/
theorem State.rejectWithin_chains (hc : u.Chains h d o) (hold : Bool) :
    u.rejectWithin d h.port hold = u.refusedIn d h.port o hold 0 := by
  obtain ⟨-, hop, hn⟩ := hc
  obtain ⟨ho, hoc⟩ := State.opOn_iff.mp hop
  rw [State.rejectWithin_op ho hoc, State.stopCommand_refused ho (by simp [Operation.writing, hn]),
    State.clearsBuffer_keeps (.inl hn), Operation.stopResidual_none (by simp [hn])]

theorem State.sharingCommand_chains (hc : u.Chains h d o) (hold : Bool) (take : State → Drive → State) :
    u.sharingCommand h hold take = u.refusedIn d h.port o hold 0 :=
  (State.driveCommand_chains hc).trans (State.rejectWithin_chains hc hold)

/-- What READ FAULT RECORD does where it is taken, by the steps it is tested at. -/
theorem exec_readFaultRecord (hu : s.Finds u) (hr : u.Reaches h d r) : exec (.readFaultRecord h) s =
    .next (r.passAdmission d h.port (r.faultRecordSteps d h.port) fun s => s.takeFaultRecord d h.port).serveClaims := by
  unfold exec execReadFaultRecord
  exact (State.perform_finds _ hu).trans (by rw [State.sharingCommand_reaches hr])

end FaultRecords

/-- Settles O33: the port's own record, the port another's hold keeps off, no hold, and an operation's connection. -/
theorem readFaultRecordAnswers : Obligations.ReadFaultRecordAnswers := by
  unfold Obligations.ReadFaultRecordAnswers
  intro two track bytes
  have htrack : ∀ x, track x = trackBytes x := fun x => by cases x <;> rfl
  have hbytes : ∀ x : FaultRecord, bytes x = x.bytes := fun x => by
    simp only [bytes, htrack, FaultRecord.bytes]
    cases x.kind <;> rfl
  refine ⟨fun s u r h d hu hr => ?_, fun s u h d o hu hc => ?_⟩
  · intro answer
    have he := exec_readFaultRecord hu hr
    refine ⟨fun x hx hp hc ha => ?_, fun x hx hp hc ha => ?_, fun hx ha => ?_⟩
    · have hst : r.faultRecordSteps d h.port = .ready :=
        State.faultRecordSteps_eq (fun _ => rfl) fun hn => absurd ⟨x, hx, hp⟩ hn
      rw [he, hst, State.passAdmission_admitted (State.admission_ready hc ha), State.takeFaultRecord, hx]
      dsimp only
      rw [if_pos hp, State.endOwnHold_own hx hp, State.faultRecordAnswer_eq, hbytes]
    · have hown : ¬ ∃ y, (r.share d).hold = some y ∧ y.port = h.port := by
        rintro ⟨y, hy, hyp⟩
        rw [hx] at hy
        cases hy
        exact hp hyp
      have hst : r.faultRecordSteps d h.port = .all := State.faultRecordSteps_eq (fun hn => absurd hn hown) fun _ => rfl
      have hoth : r.heldByOther d h.port = true := by
        simp [State.heldByOther, hx, hp]
      have hadm : r.admission d h.port .all = .held .hold := by
        rw [State.admission_past hc ha, hoth]
        rfl
      rw [he, hst, State.passAdmission_held hadm]
      rfl
    · have hown : ¬ ∃ y, (r.share d).hold = some y ∧ y.port = h.port := by
        simp [hx]
      have hst : r.faultRecordSteps d h.port = .all := State.faultRecordSteps_eq (fun hn => absurd hn hown) fun _ => rfl
      have hempty : FaultRecord.empty.bytes = [0, 0, 0, 0xFF, 0xFF, 0xFF, 0xFF, 0xFF, 0xFF, 0, 0, 0, 0, 0, 0] := by decide
      rw [he, hst, State.passAdmission_admitted ha, State.takeFaultRecord, hx]
      dsimp only
      rw [State.endOwnHold_other (by simp [hx]), State.faultRecordAnswer_eq, hempty]
  · unfold exec execReadFaultRecord
    refine (State.perform_finds _ hu).trans ?_
    rw [State.sharingCommand_chains hc]
    rfl

end Sys2Proof.Machine
end

section
/-! SUPPORT. Unknown codes, and commands and orders at the wrong kind of address (8.3, 11.1). -/

namespace Sys2Proof.Machine

open Sys2Proof

section Unknown
variable {s u t r : State} {h : Hdr} {p : Port} {d : Drive} {o : Operation} {i : Instr} {code : Nat} {e : StopEnd}

/-- The drive commands, an unknown code among them. -/
def drivesCommand (i : Instr) (h : Hdr) : Prop :=
  (∃ code params, i = .unknownCommandCode h code params) ∨ (∃ x rec sec, i = .locate h x rec sec) ∨ i = .recalibrate h ∨
    (∃ c a, i = .search h c a) ∨ (∃ n sp, i = .read h n sp) ∨ (∃ n, i = .write h n) ∨ (∃ ds, i = .formatTrack h ds) ∨
    i = .readDriveState h ∨ i = .readFaultRecord h ∨ i = .reserve h ∨ i = .reserveUnconditional h ∨ i = .release h

-- The proofs before this one end before those after it begin: they have to compile within the check's memory.
set_option Elab.async false in
/-- Each of them is taken by its place. -/
theorem exec_driveCommand (hu : s.Finds u) (hi : drivesCommand i h) :
    ∃ hold first within bare, exec i s = .next (u.driveCommand h hold first within bare).serveClaims := by
  rcases hi with ⟨_, _, rfl⟩ | ⟨_, _, _, rfl⟩ | rfl | ⟨_, _, rfl⟩ | ⟨_, _, rfl⟩ | ⟨_, rfl⟩ | ⟨_, rfl⟩ | rfl | rfl | rfl | rfl | rfl
  · unfold exec execUnknownCommandCode
    exact ⟨_, _, _, _, State.perform_finds _ hu⟩
  · unfold exec execLocate
    exact ⟨_, _, _, _, State.perform_finds _ hu⟩
  · unfold exec execRecalibrate
    exact ⟨_, _, _, _, State.perform_finds _ hu⟩
  · unfold exec execSearch
    exact ⟨_, _, _, _, State.perform_finds _ hu⟩
  · unfold exec execRead
    exact ⟨_, _, _, _, State.perform_finds _ hu⟩
  · unfold exec execWrite
    exact ⟨_, _, _, _, State.perform_finds _ hu⟩
  · unfold exec execFormatTrack
    exact ⟨_, _, _, _, State.perform_finds _ hu⟩
  · unfold exec execReadDriveState
    exact ⟨_, _, _, _, State.perform_finds _ hu⟩
  · unfold exec execReadFaultRecord
    exact ⟨_, _, _, _, State.perform_finds _ hu⟩
  · unfold exec execReserve
    exact ⟨_, _, _, _, State.perform_finds _ hu⟩
  · unfold exec execReserveUnconditional
    exact ⟨_, _, _, _, State.perform_finds _ hu⟩
  · unfold exec execRelease
    exact ⟨_, _, _, _, State.perform_finds _ hu⟩

theorem State.unitRefuse_answered (ha : (r.port p).answer = none) (hc : (r.port p).closing = false) :
    r.unitRefuse p = r.modPort p fun x =>
      { x with link := x.link ++ [.status (x.addressOf .unit) { fault := true, reason := .fault .commandReject } false],
               idleTimer := some (r.now + 250) } := by
  unfold State.unitRefuse
  rw [ha, Option.isSome_none, if_neg Bool.false_ne_true]
  exact State.unitStatus_stands hc

theorem State.unitRefuse_unanswered (ha : (r.port p).answer.isSome = true) : r.unitRefuse p = r.modPort p fun x =>
    { x with link := x.link ++ [.status (x.addressOf .unit) { fault := true, reason := .fault .commandReject } false] } := by
  unfold State.unitRefuse
  rw [if_pos ha]
  rfl

/-! ## A unit order at a drive address (log 51) -/

theorem State.unitOrderAs_opens (ho : u.Opens h (.drive d) r) (take : State → State) :
    u.unitOrderAs h e take = r.neverFirst d h.port := by
  unfold State.unitOrderAs
  rw [ho]

theorem State.unitOrderAs_stands (hs : u.Stands h (.drive d)) (take : State → State) :
    u.unitOrderAs h e take = u.refuseWithin d h.port e := by
  unfold State.unitOrderAs
  rw [hs]

/-- An unknown code taken by its place (R144). -/
def State.unknownCode (u : State) (h : Hdr) (code : Nat) : State :=
  u.driveCommand h (!exemptCode code) (fun s d => s.unknownFirst d h.port code)
    (fun s d _ => s.rejectWithin d h.port (!exemptCode code)) (fun s d => s.bareReject h.port d)

theorem exec_unknownCode (hu : s.Finds u) (params : List Byte) :
    exec (.unknownCommandCode h code params) s = .next (u.unknownCode h code).serveClaims := by
  unfold exec execUnknownCommandCode
  exact State.perform_finds _ hu

theorem exemptCode_false (hn : code ∉ [0x16, 0x17, 0x19, 0x1A]) : exemptCode code = false := by
  rw [← Bool.not_eq_true, exemptCode_iff]
  exact hn

theorem State.unknownCode_opens (ho : u.Opens h (.drive d) r) (hn : code ∉ [0x16, 0x17, 0x19, 0x1A]) :
    u.unknownCode h code = r.neverFirst d h.port := by
  unfold State.unknownCode
  rw [State.driveCommand_opens ho, State.unknownFirst_other hn]

theorem State.unknownCode_stands (hs : u.Stands h (.drive d)) (hn : code ∉ [0x16, 0x17, 0x19, 0x1A]) :
    u.unknownCode h code = u.rejectWithin d h.port true := by
  unfold State.unknownCode
  rw [exemptCode_false hn]
  cases ho : u.opOn d h.port with
  | some o => exact State.driveCommand_refused hs ho rfl
  | none =>
    rw [State.driveCommand_bareRefused hs ho rfl]
    unfold State.rejectWithin State.refuseWithin
    rw [ho]
    rfl

theorem State.refuseWithin_op (ho : u.op d = some o) (hc : o.conn = some p) : u.refuseWithin d p e = u.stopCommand d p e := by
  unfold State.refuseWithin
  rw [State.opOn_some ho hc]
  rfl

theorem State.stopCommand_tables (ho : u.op d = some o) (hw : o.writing = false) : u.stopCommand d p .tables =
    (u.modPort p o.clearsBuffer).faultInConnection d p o .commandReject .none 0 none := by
  have hop : (u.modPort p o.clearsBuffer).op d = some o := ho
  rw [State.stopCommand_atOnce ho hw]
  unfold State.finishStopped
  rw [hop]

/-- READ DRIVE TABLES carries residual 0, which is another command's own where no bytes of READ or WRITE are left. -/
theorem State.refuseWithin_tables (hn : ∀ o, u.op d = some o → o.conn = some p → o.writing = false ∧ o.stopResidual = 0) :
    u.refuseWithin d p .tables = u.rejectWithin d p true := by
  cases ho : u.opOn d p with
  | some o =>
    obtain ⟨hop, hc⟩ := State.opOn_iff.mp ho
    obtain ⟨hw, hr⟩ := hn o hop hc
    rw [State.refuseWithin_op hop hc, State.rejectWithin_op hop hc, State.stopCommand_tables hop hw,
      State.stopCommand_refused hop hw, hr]
    rfl
  | none =>
    unfold State.rejectWithin State.refuseWithin
    rw [ho, Option.isSome_none, if_neg Bool.false_ne_true, if_neg Bool.false_ne_true]

/-- The unit orders other than READ DRIVE TABLES. -/
def ordersUnit (i : Instr) (h : Hdr) : Prop :=
  (∃ n ty, i = .loadDriveType h n ty) ∨ (∃ n c ty w cur, i = .loadDriveRecord h n c ty w cur) ∨
    (∃ es, i = .loadSpareEntries h es) ∨ (∃ n x, i = .deleteSpareEntry h n x) ∨ (∃ n, i = .readSpareMap h n) ∨
    (∃ n x, i = .assignAlternate h n x) ∨ (∃ n x, i = .restoreTrack h n x) ∨ i = .readSuspectList h ∨
    (∃ g, i = .setPathGroup h g) ∨ (∃ a b, i = .setNoticeMask h a b) ∨ i = .readUnitState h ∨ i = .unitClear h

theorem exec_unitOrder (hu : s.Finds u) (hi : ordersUnit i h) :
    ∃ take, exec i s = .next (u.unitOrderAs h (.rejected true) take).serveClaims := by
  rcases hi with ⟨_, _, rfl⟩ | ⟨_, _, _, _, _, rfl⟩ | ⟨_, rfl⟩ | ⟨_, _, rfl⟩ | ⟨_, rfl⟩ | ⟨_, _, rfl⟩ | ⟨_, _, rfl⟩ | rfl | ⟨_, rfl⟩ |
    ⟨_, _, rfl⟩ | rfl | rfl
  · unfold exec execLoadDriveType
    exact ⟨_, State.perform_finds _ hu⟩
  · unfold exec execLoadDriveRecord
    exact ⟨_, State.perform_finds _ hu⟩
  · unfold exec execLoadSpareEntries
    exact ⟨_, State.perform_finds _ hu⟩
  · unfold exec execDeleteSpareEntry
    exact ⟨_, State.perform_finds _ hu⟩
  · unfold exec execReadSpareMap
    exact ⟨_, State.perform_finds _ hu⟩
  · unfold exec execAssignAlternate
    exact ⟨_, State.perform_finds _ hu⟩
  · unfold exec execRestoreTrack
    exact ⟨_, State.perform_finds _ hu⟩
  · unfold exec execReadSuspectList
    exact ⟨_, State.perform_finds _ hu⟩
  · unfold exec execSetPathGroup
    exact ⟨_, State.perform_finds _ hu⟩
  · unfold exec execSetNoticeMask
    exact ⟨_, State.perform_finds _ hu⟩
  · unfold exec execReadUnitState
    exact ⟨_, State.perform_finds _ hu⟩
  · unfold exec execUnitClear
    exact ⟨_, State.perform_finds _ hu⟩

theorem exec_readDriveTables (hu : s.Finds u) : exec (.readDriveTables h) s =
    .next (u.unitOrderAs h .tables fun s => s.answerData h.port .unit s.driveTablesBytes).serveClaims := by
  unfold exec execReadDriveTables
  exact State.perform_finds _ hu

/-- At a drive address an order that is refused as an unknown code is. -/
theorem State.unitOrderAs_unknown (hp : (∃ r, u.Opens h (.drive d) r) ∨ u.Stands h (.drive d))
    (hn : code ∉ [0x16, 0x17, 0x19, 0x1A]) (he : u.Stands h (.drive d) → u.refuseWithin d h.port e = u.rejectWithin d h.port true)
    (take : State → State) : u.unitOrderAs h e take = u.unknownCode h code := by
  rcases hp with ⟨r, ho⟩ | hs
  · rw [State.unitOrderAs_opens ho, State.unknownCode_opens ho hn]
  · rw [State.unitOrderAs_stands hs, State.unknownCode_stands hs hn, he hs]

end Unknown

/-- Settles O37: unknown codes by their place, any drive command at the unit address, and unit orders at a drive address. -/
theorem unknownCodesAreRefused : Obligations.UnknownCodesAreRefused := by
  unfold Obligations.UnknownCodesAreRefused
  intro s u h d code params hu reject
  refine ⟨fun t ha hn => ?_, fun r ho => ?_, fun o hc hn => ?_, fun i hi r hr hcl => ?_, fun o hs ho hoc => ?_,
    fun i hi hp hn => ?_⟩
  · obtain ⟨r, ho, hr, rfl⟩ := ha
    rw [exec_unknownCode hu, State.unknownCode_opens ho hn, State.neverFirst, State.admitEnding,
      State.passAdmission_admitted hr]
    rfl
  · rw [exec_unknownCode hu, State.unknownCode, State.driveCommand_opens ho]
    rfl
  · rw [exec_unknownCode hu, State.unknownCode_stands hc.1 hn, State.rejectWithin_chains hc]
    rfl
  · have hcmd : drivesCommand i h := hi.imp (fun he => ⟨code, params, he⟩) id
    obtain ⟨hold, first, within, bare, he⟩ := exec_driveCommand hu hcmd
    rw [he, State.driveCommand_unit hr]
    exact ⟨fun ha => by rw [State.unitRefuse_answered ha hcl], fun ha => by rw [State.unitRefuse_unanswered ha]⟩
  · intro emptied
    rw [exec_readDriveTables hu, State.unitOrderAs_stands hs, State.refuseWithin_op ho hoc]
    refine ⟨fun hcmd => ?_, fun w hw hb hst => ?_, fun f hf hb hst => ?_⟩
    · have hw : o.writing = false := by
        rcases hcmd with ⟨r, hr⟩ | ⟨w, hw, hb⟩
        · simp [Operation.writing, hr]
        · simp [Operation.writing, hw, hb]
      rw [State.stopCommand_tables ho hw, State.clearsBuffer_empties (.inr (hcmd.imp id fun ⟨w, hw, _⟩ => ⟨w, hw⟩))]
      rfl
    · rw [State.stopCommand_write ho hw hb hst]
      rfl
    · rw [State.stopCommand_format ho hf hb hst]
  · rw [exec_unknownCode hu]
    have hunit : ∀ j, ordersUnit j h → exec j s = .next (u.unknownCode h code).serveClaims := fun j hj => by
      obtain ⟨take, he⟩ := exec_unitOrder hu hj
      rw [he, State.unitOrderAs_unknown hp hn fun _ => rfl]
    rcases hi with hi | hi | ⟨rfl, hres⟩ | hi
    · exact hunit i (.inl hi)
    · exact hunit i (.inr (.inl hi))
    · rw [exec_readDriveTables hu, State.unitOrderAs_unknown hp hn]
      refine fun hs => State.refuseWithin_tables fun o ho hoc => ?_
      rcases hres o hs ho hoc with hc | hc | ⟨f, hc⟩ | ⟨k, a, ph, hc⟩ | ⟨f, hc, hb⟩
      · simp [Operation.writing, Operation.stopResidual, hc]
      · simp [Operation.writing, Operation.stopResidual, hc]
      · simp [Operation.writing, Operation.stopResidual, hc]
      · simp [Operation.writing, Operation.stopResidual, hc]
      · simp [Operation.writing, Operation.stopResidual, hc, hb]
    · exact hunit i (.inr (.inr hi))

end Sys2Proof.Machine
end

section
/-! SUPPORT. The commands of an operation's connection as they begin: SEARCH, READ, WRITE and FORMAT TRACK (5.3 to 5.7). -/

namespace Sys2Proof.Machine

open Sys2Proof

section Connected
variable {s u t : State} {h : Hdr} {p : Port} {d : Drive} {o : Operation} {w : WriteCmd}

/-! ## SEARCH and READ (5.3 to 5.5) -/

-- The proofs before this one end before those after it begin: they have to compile within the check's memory.
set_option Elab.async false in
theorem exec_search (hu : s.Finds u) (hc : u.Chains h d o) (c : Nat) (a : List Byte) :
    exec (.search h c a) s = .next (u.takeSearch d h.port o c a).serveClaims := by
  unfold exec execSearch
  exact (State.perform_finds _ hu).trans (by rw [State.operationOnly_chains hc])

theorem exec_read (hu : s.Finds u) (hc : u.Chains h d o) (n sp : Nat) :
    exec (.read h n sp) s = .next (u.takeRead d h.port o n sp).serveClaims := by
  unfold exec execRead
  exact (State.perform_finds _ hu).trans (by rw [State.operationOnly_chains hc])

theorem exec_write (hu : s.Finds u) (hc : u.Chains h d o) (n : Nat) :
    exec (.write h n) s = .next (u.takeWrite d h.port o n).serveClaims := by
  unfold exec execWrite
  exact (State.perform_finds _ hu).trans (by rw [State.operationOnly_chains hc])

theorem exec_formatTrack (hu : s.Finds u) (hc : u.Chains h d o) (ds : List Descriptor) :
    exec (.formatTrack h ds) s = .next (u.takeFormat d h.port o ds).serveClaims := by
  unfold exec execFormatTrack
  exact (State.perform_finds _ hu).trans (by rw [State.operationOnly_chains hc])

theorem searchCondOf_none {c : Nat} (hc : c < 1 ∨ 3 < c) : searchCondOf c = none := by
  unfold searchCondOf
  split
  next => omega
  next => omega
  next => omega
  next => rfl

theorem searchCondOf_some {c : Nat} {k : SearchCond} (h1 : 1 ≤ c) (h3 : c ≤ 3) (e1 : c = 1 → k = .eq)
    (e2 : c = 2 → k = .highOrEq) (e3 : c = 3 → k = .high) : searchCondOf c = some k := by
  obtain rfl | rfl | rfl : c = 1 ∨ c = 2 ∨ c = 3 := by omega
  · rw [e1 rfl]
    rfl
  · rw [e2 rfl]
    rfl
  · rw [e3 rfl]
    rfl

/-- The record a SEARCH awaits: after the current record where that lies on the track, else after the next INDEX MARK. -/
theorem Operation.nextRecord_eq {w : Awaited} (h0 : o.current = none ∨ o.logical = none → w = .afterIndex)
    (h1 : ∀ r x, o.current = some r → o.logical = some x → w = if r.id.address = x then .after r.start else .afterIndex) :
    o.nextRecord = w := by
  unfold Operation.nextRecord Operation.currentHere
  cases hc : o.current with
  | none => rw [h0 (.inl hc)]
  | some r =>
    cases hl : o.logical with
    | none => rw [h0 (.inr hl)]
    | some x =>
      rw [h1 r x hc hl]
      by_cases hx : r.id.address = x
      · simp [hx]
      · simp [hx]

/-- The operation changed, and then its command. -/
theorem State.setCmd_modOp (ho : u.op d = some o) (f : Operation → Operation) (c : Cmd) :
    (u.modOp d f).setCmd d c = u.setOp d (some { f o with cmd := some c }) := by
  rw [State.modOp_some _ _ _ ho, State.setCmd, State.modOp_some _ _ _ (State.setOp_op_same _ _ _), State.setOp_setOp]

/-- A SEARCH with a condition that is known is refused by the length of its argument, then by the search index count. -/
theorem State.takeSearch_known {c : Nat} {k : SearchCond} (hk : searchCondOf c = some k) (a : List Byte) :
    u.takeSearch d p o c a =
      if a.length < 1 ∨ 32 < a.length then u.faultInConnection d p o .commandReject .none 0 none
      else if 2 ≤ o.searchIndex then u.faultInConnection d p o .notFound .none 0 none
      else (u.modOp d fun o => o.newField.arm).setCmd d (.search k a (.id o.nextRecord)) := by
  unfold State.takeSearch
  rw [hk]

theorem State.takeSearch_unknown {c : Nat} (hk : searchCondOf c = none) (a : List Byte) :
    u.takeSearch d p o c a = u.faultInConnection d p o .commandReject .none 0 none := by
  unfold State.takeSearch
  rw [hk]

/-! ## WRITE (5.6, 8.7) -/

theorem State.notWritable_iff : u.notWritable d = true ↔ (u.record d).writePermitted = false ∨ (u.pos d).writeProtect = true := by
  simp [State.notWritable]

/-- A range of which at most 256 bytes are asked for now, and what is left of it. -/
def asksFirst (x : Nat × Nat) (rest : List (Nat × Nat)) : List (Nat × Nat) :=
  if 256 < x.2 then (x.1 + 256, x.2 - 256) :: rest else rest

/-- With a slot free the next range is asked for, at most 256 bytes of it (R153). -/
theorem State.requestBytes_one {x : Nat × Nat} {rest : List (Nat × Nat)} (ho : s.op d = some o) (hc : o.cmd = some (.write w))
    (ha : w.toAsk = x :: rest) (hs : (s.port p).requests.length + (s.port p).held.length < 2) (k : Nat) :
    s.requestBytes d p (k + 1) = ((s.setOp d (some { o with cmd := some (.write { w with toAsk := asksFirst x rest }) })).modPort p
      fun r => { r with link := r.link ++ [.request (r.addressOf (.drive d)) x.1 (min 256 x.2)],
                        requests := r.requests ++ [(x.1, min 256 x.2)] }).requestBytes d p k := by
  obtain ⟨off, len⟩ := x
  have hmore : (if min 256 len < len then (off + min 256 len, len - min 256 len) :: rest else rest) = asksFirst (off, len) rest := by
    unfold asksFirst
    by_cases hl : 256 < len
    · simp only [Nat.min_eq_left hl.le, if_pos hl]
    · simp only [Nat.min_eq_right (not_lt.mp hl), if_neg (lt_irrefl _), if_neg hl]
  rw [State.requestBytes, ho, Option.bind_some, hc]
  dsimp only
  rw [ha]
  dsimp only
  rw [if_neg (by omega), hmore, State.setCmd, State.modOp_some _ _ _ ho, State.push, State.modPort_modPort]
  rfl

/-- Nothing is asked for where nothing is left, or where no slot is free. -/
theorem State.requestBytes_none (ho : s.op d = some o) (hc : o.cmd = some (.write w)) (ha : w.toAsk = []) (k : Nat) :
    s.requestBytes d p k = s := by
  cases k with
  | zero => rfl
  | succ k =>
    rw [State.requestBytes, ho, Option.bind_some, hc]
    dsimp only
    rw [ha]

theorem State.requestBytes_full (hs : 2 ≤ (s.port p).requests.length + (s.port p).held.length) (k : Nat) :
    s.requestBytes d p k = s := by
  cases k with
  | zero => rfl
  | succ k =>
    rw [State.requestBytes]
    split
    · split
      · rfl
      · rw [if_pos hs]
    all_goals rfl

theorem State.modPort_congr {f g : PortRec → PortRec} (h : f (s.port p) = g (s.port p)) : s.modPort p f = s.modPort p g := by
  unfold State.modPort
  rw [h]

/-- An operation and a port are changed in either order. -/
theorem State.modPort_setOp (f : PortRec → PortRec) (x : Option Operation) :
    (s.modPort p f).setOp d x = (s.setOp d x).modPort p f := rfl

/-- The first requests of a WRITE at an empty buffer: one where 256 bytes are enough, else two (R93, R153). -/
theorem State.requestBytes_short {n : Nat} (ho : s.op d = some o) (hc : o.cmd = some (.write w)) (ha : w.toAsk = [(0, n)])
    (hreq : (s.port p).requests = []) (hheld : (s.port p).held = []) (hn : n ≤ 256) : s.requestBytes d p 2 =
      (s.setOp d (some { o with cmd := some (.write { w with toAsk := [] }) })).modPort p fun r =>
        { r with link := r.link ++ [.request ((s.port p).addressOf (.drive d)) 0 n], requests := [(0, n)] } := by
  have hmore : asksFirst (0, n) [] = [] := if_neg (not_lt.mpr hn)
  rw [State.requestBytes_one ho hc ha (by simp [hreq, hheld]), hmore]
  rw [State.requestBytes_none (o := { o with cmd := some (.write { w with toAsk := [] }) }) (by simp) rfl rfl]
  refine State.modPort_congr ?_
  simp only [State.setOp_port, hreq, List.nil_append, Nat.min_eq_right hn]

theorem State.requestBytes_long {n : Nat} (ho : s.op d = some o) (hc : o.cmd = some (.write w)) (ha : w.toAsk = [(0, n)])
    (hreq : (s.port p).requests = []) (hheld : (s.port p).held = []) (hn : 256 < n) : s.requestBytes d p 2 =
      (s.setOp d (some { o with cmd := some (.write { w with toAsk := if n ≤ 512 then [] else [(512, n - 512)] }) })).modPort p
        fun r => { r with
          link := r.link ++ [.request ((s.port p).addressOf (.drive d)) 0 256,
            .request ((s.port p).addressOf (.drive d)) 256 (min 256 (n - 256))],
          requests := [(0, 256), (256, min 256 (n - 256))] } := by
  have hmore : asksFirst (0, n) [] = [(256, n - 256)] := by simp [asksFirst, hn]
  have hlast : asksFirst (256, n - 256) [] = if n ≤ 512 then [] else [(512, n - 512)] := by
    unfold asksFirst
    by_cases h : n ≤ 512
    · rw [if_pos h, if_neg (by omega)]
    · rw [if_neg h, if_pos (by omega), Nat.sub_sub]
  rw [State.requestBytes_one ho hc ha (by simp [hreq, hheld]), hmore]
  rw [State.requestBytes_one (o := { o with cmd := some (.write { w with toAsk := [(256, n - 256)] }) }) (by simp) rfl rfl
    (by simp [hreq, hheld]), hlast, State.requestBytes]
  rw [State.modPort_setOp, State.setOp_setOp, State.modPort_modPort]
  refine State.modPort_congr ?_
  simp only [State.setOp_port, hreq, List.nil_append, List.append_assoc, Nat.min_eq_left hn.le]
  rfl

/-! ## FORMAT TRACK (5.7) -/

theorem State.formatFits_iff (ds : List Descriptor) : u.formatFits d ds = true ↔
    (∀ x ∈ ds, 1 ≤ x.number ∧ x.number ≤ 255) ∧ (u.typeOf d).fits ds = true := by
  simp [State.formatFits]

end Connected

/-- Settles O29: the checks of SEARCH and READ in turn, and the refusal as the first command. -/
theorem searchAndReadBegin : Obligations.SearchAndReadBegin := by
  unfold Obligations.SearchAndReadBegin
  refine ⟨fun s u h d o c a hu hc => ⟨fun hbad => ?_, fun h1 h3 ha1 ha2 => ⟨fun hi => ?_, fun hi k w e1 e2 e3 hw0 hw1 => ?_⟩⟩,
    fun s u t h d i hu ha hi => ?_, fun s u h d o count span hu hc => ⟨fun hbad => ?_, fun hcur hn => ?_⟩⟩
  · rw [exec_search hu hc]
    cases hk : searchCondOf c with
    | none => rw [State.takeSearch_unknown hk]
    | some k =>
      have hlen := hbad.resolve_left fun hc => by simp [searchCondOf_none hc] at hk
      rw [State.takeSearch_known hk, if_pos hlen]
  · obtain ⟨k, hk⟩ : ∃ k, searchCondOf c = some k := by
      obtain rfl | rfl | rfl : c = 1 ∨ c = 2 ∨ c = 3 := by omega
      all_goals exact ⟨_, rfl⟩
    rw [exec_search hu hc, State.takeSearch_known hk, if_neg (by omega), if_pos hi]
  · have ho := (State.opOn_iff.mp hc.2.1).1
    rw [exec_search hu hc, State.takeSearch_known (searchCondOf_some h1 h3 e1 e2 e3), if_neg (by omega), if_neg (by omega),
      State.setCmd_modOp ho, Operation.nextRecord_eq hw0 hw1]
    rfl
  · have hr : u.operationOnly h = fun _ => t.rejectHolding d h.port 0 := funext fun within => State.operationOnly_admits ha within
    rcases hi with ⟨c, a, rfl⟩ | ⟨n, sp, rfl⟩ | ⟨n, rfl⟩ | ⟨ds, rfl⟩
    · unfold exec execSearch
      exact (State.perform_finds _ hu).trans (by rw [hr]; rfl)
    · unfold exec execRead
      exact (State.perform_finds _ hu).trans (by rw [hr]; rfl)
    · unfold exec execWrite
      exact (State.perform_finds _ hu).trans (by rw [hr]; rfl)
    · unfold exec execFormatTrack
      exact (State.perform_finds _ hu).trans (by rw [hr]; rfl)
  · rw [exec_read hu hc, State.takeRead, if_pos hbad]
  · have ho := (State.opOn_iff.mp hc.2.1).1
    refine ⟨spanOf span, by rintro rfl; rfl, by rintro rfl; rfl, ?_⟩
    rw [exec_read hu hc, State.takeRead, if_neg (by simp [hcur, hn])]
    dsimp only
    rw [State.modOp_some _ _ _ ho]
    rfl

/-- Settles O30: the checks in order, then one request or two by the bytes needed. -/
theorem writeBegins : Obligations.WriteBegins := by
  unfold Obligations.WriteBegins
  intro s u h d o count hu hc
  have ho := (State.opOn_iff.mp hc.2.1).1
  rw [exec_write hu hc]
  refine ⟨fun hbad => ?_, fun f hf hn => ⟨fun hnw => ?_, fun hw hwp hreq hheld => ?_⟩⟩
  · unfold State.takeWrite
    split
    next => rfl
    next f hf => rw [if_pos (hbad.resolve_left (by simp [hf]))]
  · rw [State.takeWrite, hf]
    dsimp only
    rw [if_neg hn, if_pos (State.notWritable_iff.mpr hnw)]
  · intro n asking a
    have hno : ¬ u.notWritable d = true := by
      rw [State.notWritable_iff]
      simp [hw, hwp]
    have htake : u.takeWrite d h.port o count = (asking [(0, n)]).requestBytes d h.port 2 := by
      rw [State.takeWrite, hf]
      dsimp only
      rw [if_neg hn, if_neg hno, State.modOp_some _ _ _ ho]
      rfl
    have hop : (asking [(0, n)]).op d = some { o with
        rereads := 0, rereadDue := false, marksSince := 0, byteCount := count, accounted := 0,
        cmd := some (.write { need := n, bytes := [], toAsk := [(0, n)], seek := none, begun := false, zeroFill := false, stop := none }) } :=
      State.setOp_op_same _ _ _
    rw [htake]
    refine ⟨fun hn => ?_, fun hn => ?_⟩
    · rw [State.requestBytes_short hop rfl rfl hreq hheld hn, State.setOp_setOp]
      rfl
    · rw [State.requestBytes_long hop rfl rfl hreq hheld hn, State.setOp_setOp]
      rfl

/-- Settles O31: the checks in order, the fields of a track, and the fields of the records in list order. -/
theorem formatBegins : Obligations.FormatBegins := by
  unfold Obligations.FormatBegins
  refine ⟨fun s u h d o ds hu hc => ?_, fun t q => ⟨rfl, fun x rest => rfl⟩⟩
  intro listed
  have ho := (State.opOn_iff.mp hc.2.1).1
  have hlisted : u.formatFits d ds = true ↔ listed := State.formatFits_iff ds
  rw [exec_formatTrack hu hc]
  refine ⟨fun hbad => ?_, fun hr hcur hl => ⟨fun hnw => ?_, fun hw hwp cy hd st hcy hhd hst => ?_⟩⟩
  · unfold State.takeFormat
    split
    next => rfl
    next hno =>
      have hnl : ¬ listed := by
        rcases hbad with h1 | h1 | h1
        · exact absurd (.inl h1) hno
        · exact absurd (.inr h1) hno
        · exact h1
      rw [if_pos (by rw [← Bool.not_eq_true, hlisted]; exact hnl)]
  · rw [State.takeFormat, if_neg (by simp [hr, hcur]), if_neg (by rw [hlisted.mpr hl]; nofun),
      if_pos (State.notWritable_iff.mpr hnw)]
  · have hno : ¬ u.notWritable d = true := by
      rw [State.notWritable_iff]
      simp [hw, hwp]
    have hfield : (u.pos d).homeField = some { address := { cyl := cy, head := hd }, condition := st } := by
      simp [Positioner.homeField, Positioner.selected, hcy, hhd, hst]
    rw [State.takeFormat, if_neg (by simp [hr, hcur]), if_neg (by rw [hlisted.mpr hl]; nofun), if_neg hno, hfield]
    dsimp only
    rw [State.setCmd_modOp ho]
    rfl

end Sys2Proof.Machine
end

section
/-! SUPPORT. The unit orders on types, drive records, groups and masks (chapters 2, 9 and 10). -/

namespace Sys2Proof.Machine

open Sys2Proof

/-! ## The first item that fails (R29) -/

-- The proofs before this one end before those after it begin: they have to compile within the check's memory.
set_option Elab.async false in
/-- Of checks in item order the least item that fails is the first. -/
theorem firstFailing_least {cs : List (Nat × Bool)} (hs : (cs.map Prod.fst).Pairwise (· < ·)) {i : Nat} (hi : (i, false) ∈ cs)
    (hm : ∀ j < i, (j, false) ∉ cs) : firstFailing cs = some i := by
  induction cs with
  | nil => cases hi
  | cons c cs ih =>
    obtain ⟨n, b⟩ := c
    rw [List.map_cons, List.pairwise_cons] at hs
    cases b with
    | false =>
      have hn : n = i := by
        rcases List.mem_cons.mp hi with h | h
        · exact (Prod.mk.inj h).1.symm
        · by_contra hne
          have hlt := hs.1 i (List.mem_map_of_mem h)
          exact hm n hlt (by simp)
      simp [firstFailing, hn]
    | true =>
      have hmem : (i, false) ∈ cs := by simpa using hi
      have hrest := ih hs.2 hmem fun j hj hc => hm j hj (List.mem_cons_of_mem _ hc)
      simpa [firstFailing] using hrest

theorem firstFailing_iff {cs : List (Nat × Bool)} : firstFailing cs = none ↔ ∀ c ∈ cs, c.2 = true := by
  simp [firstFailing]

theorem typeNoOf_val (n : TypeNo) : typeNoOf n.val = some n := by
  simp [typeNoOf]

theorem typeNoOf_none {n : Nat} (h : 4 ≤ n) : typeNoOf n = none := by
  simp [typeNoOf, Nat.not_lt.mpr h]

theorem driveOf_val (d : Drive) : driveOf d.val = some d := by
  simp [driveOf]

theorem driveOf_none {n : Nat} (h : 8 ≤ n) : driveOf n = none := by
  simp [driveOf, Nat.not_lt.mpr h]

/-! ## LOAD DRIVE TYPE (R22) -/

section Types
variable {s u t : State} {h : Hdr} {p : Port} {x old : DriveType} {n i : Nat} {ty : TypeNo} {d : Drive}

theorem exec_loadDriveType (hu : s.Finds u) (ht : u.TakesControl h t) (n : Nat) (x : DriveType) :
    exec (.loadDriveType h n x) s = .next (t.takeDriveType h.port n x).serveClaims := by
  unfold exec execLoadDriveType
  exact (State.perform_finds _ hu).trans (by rw [State.controlOrder_takes ht])

theorem DriveType.inRange_iff : x.inRange = true ↔ firstFailing x.checks = none := by
  simp [DriveType.inRange]

theorem State.takeDriveType_outside (h : firstFailing x.checks = some i) :
    t.takeDriveType p ty.val x = t.unitReject p i := by
  unfold State.takeDriveType
  rw [typeNoOf_val, h]

theorem State.takeDriveType_differs (h : x.inRange = true) (hs : t.shapeDiffers ty x = some i) :
    t.takeDriveType p ty.val x = t.unitReject p i := by
  unfold State.takeDriveType
  rw [typeNoOf_val, DriveType.inRange_iff.mp h]
  dsimp only
  rw [hs]

theorem State.takeDriveType_fits (h : x.inRange = true) (hs : t.shapeDiffers ty x = none) : t.takeDriveType p ty.val x =
    if t.busyOfType ty = [] then (t.setType ty x).unitDone p else t.unitHeld p .busy (t.busyOfType ty) := by
  unfold State.takeDriveType
  rw [typeNoOf_val, DriveType.inRange_iff.mp h]
  dsimp only
  rw [hs]

theorem State.names_iff : t.names d ty = true ↔ (t.record d).configured = true ∧ (t.record d).typeNo = ty := by
  simp [State.names]

theorem State.shapeDiffers_named (ho : t.types[ty] = some old)
    (hd : ∃ d, (t.record d).configured = true ∧ (t.record d).typeNo = ty) :
    t.shapeDiffers ty x = firstFailing (x.shapeChecks old) := by
  obtain ⟨d, hd⟩ := hd
  unfold State.shapeDiffers
  rw [ho]
  dsimp only
  rw [if_pos (List.any_eq_true.mpr ⟨d, mem_allDrives d, State.names_iff.mpr hd⟩)]

/-- The shape is free where the type is not loaded, where no configured record names it, or where it stays. -/
theorem State.shapeDiffers_none (h : t.types[ty] = none ∨ (∀ d, (t.record d).configured = true → (t.record d).typeNo ≠ ty) ∨
    ∃ old, t.types[ty] = some old ∧ ∀ c ∈ x.shapeChecks old, c.2 = true) : t.shapeDiffers ty x = none := by
  unfold State.shapeDiffers
  rcases h with h | h | ⟨old, ho, hsame⟩
  · rw [h]
  · split
    · rw [if_neg]
      rw [List.any_eq_true]
      rintro ⟨d, -, hd⟩
      obtain ⟨hc, hn⟩ := State.names_iff.mp hd
      exact h d hc hn
    · rfl
  · rw [ho]
    dsimp only
    split
    · exact firstFailing_iff.mpr hsame
    · rfl

theorem State.busyOfType_nil : t.busyOfType ty = [] ↔
    ∀ d, (t.record d).configured = true → (t.record d).typeNo = ty → t.op d = none := by
  unfold State.busyOfType
  rw [List.filter_eq_nil_iff]
  constructor
  · intro h d hc hn
    have hd := h d (mem_allDrives d)
    simpa [State.names_iff, hc, hn] using hd
  · intro h d _ hd
    rw [Bool.and_eq_true, State.names_iff] at hd
    simp [h d hd.1.1 hd.1.2] at hd

end Types

/-- Settles O39: the ranges, then the shape, then the operations in flight. -/
theorem loadDriveTypeStores : Obligations.LoadDriveTypeStores := by
  unfold Obligations.LoadDriveTypeStores
  refine ⟨fun x => ?_, fun s u t h n x hu ht => ?_⟩
  · rw [DriveType.inRange_iff, firstFailing_iff]
    simp only [DriveType.checks, List.forall_mem_cons, List.not_mem_nil, false_implies, implies_true, and_true, decide_eq_true_eq]
  · intro reject
    rw [exec_loadDriveType hu ht]
    refine ⟨fun hn => ?_, ?_⟩
    · unfold State.takeDriveType
      rw [typeNoOf_none hn]
      rfl
    · rintro ty rfl outside differs
      have hout : ∀ i, outside i ↔ (i, false) ∈ x.checks := fun i => by
        simp only [outside, DriveType.checks, List.mem_cons, Prod.mk.injEq, List.not_mem_nil, or_false, eq_comm (a := false),
          decide_eq_false_iff_not]
      have hdiff : ∀ old i, differs old i ↔ (i, false) ∈ x.shapeChecks old := fun old i => by
        simp only [differs, DriveType.shapeChecks, List.mem_cons, Prod.mk.injEq, List.not_mem_nil, or_false,
          eq_comm (a := false), decide_eq_false_iff_not, ne_eq]
      refine ⟨fun i hi hm => ?_, fun hr => ⟨fun old i ho hd hi hm => ?_, fun hfit => ⟨fun hfree => ?_, fun hbusy => ?_⟩⟩⟩
      · rw [State.takeDriveType_outside (firstFailing_least (by simp [DriveType.checks]) ((hout i).mp hi)
          fun j hj hc => hm j hj ((hout j).mpr hc))]
        rfl
      · have hfirst := firstFailing_least (cs := x.shapeChecks old) (by simp [DriveType.shapeChecks]) ((hdiff old i).mp hi)
          fun j hj hc => hm j hj ((hdiff old j).mpr hc)
        rw [State.takeDriveType_differs hr ((State.shapeDiffers_named ho hd).trans hfirst)]
        rfl
      all_goals
        have hsame := State.shapeDiffers_none (x := x) (hfit.imp id (Or.imp id fun ⟨old, ho, h1, h2, h3, h4, h5⟩ =>
          ⟨old, ho, by simp [DriveType.shapeChecks, h1, h2, h3, h4, h5]⟩))
        rw [State.takeDriveType_fits hr hsame]
      · rw [if_pos (State.busyOfType_nil.mpr hfree)]
        rfl
      · obtain ⟨d, hc, hn, ho⟩ := hbusy
        have hne : ¬ t.busyOfType ty = [] := fun hnil => by
          simp [State.busyOfType_nil.mp hnil d hc hn] at ho
        rw [if_neg hne, State.unitHeld, State.busyOfType, List.foldl_filter]
        have hif : ∀ d, (t.names d ty && (t.op d).isSome) = true ↔
            (t.record d).configured = true ∧ (t.record d).typeNo = ty ∧ (t.op d).isSome = true := fun d => by
          rw [Bool.and_eq_true, State.names_iff, and_assoc]
        simp only [hif]
        rfl

/-! ## LOAD DRIVE RECORD (R24, R26, R27) -/

section Records
variable {s u t : State} {h : Hdr} {p : Port} {d : Drive} {r : DriveRecord} {x : DriveType} {k : TypeNo}
variable {conf ty w cur : Nat}

theorem exec_loadDriveRecord (hu : s.Finds u) (ht : u.TakesControl h t) (n conf ty w cur : Nat) :
    exec (.loadDriveRecord h n conf ty w cur) s = .next (t.takeDriveRecord h.port n conf ty w cur).serveClaims := by
  unfold exec execLoadDriveRecord
  exact (State.perform_finds _ hu).trans (by rw [State.controlOrder_takes ht])

theorem flagOf_none {n : Nat} (h : 2 ≤ n) : flagOf n = none := by
  unfold flagOf
  split
  next => omega
  next => omega
  next => rfl

theorem flagOf_some {n : Nat} (h : n ≤ 1) : flagOf n = some (decide (n = 1)) := by
  obtain rfl | rfl : n = 0 ∨ n = 1 := by omega
  · rfl
  · rfl

theorem State.takeDriveRecord_bad {i : Nat} (h : t.newRecord conf ty w cur = .inr i) :
    t.takeDriveRecord p d.val conf ty w cur = t.unitReject p i := by
  unfold State.takeDriveRecord
  rw [driveOf_val, h]

theorem State.takeDriveRecord_new (h : t.newRecord conf ty w cur = .inl r) : t.takeDriveRecord p d.val conf ty w cur =
    if (t.op d).isSome then (t.oweOrder d p).unitStatus p (.heldFor .busy)
    else if (t.share d).hold.isSome then (t.oweOrder d p).unitStatus p (.heldFor .hold)
    else (t.loadRecord d r).unitDone p := by
  unfold State.takeDriveRecord
  rw [driveOf_val, h]
  rfl

theorem State.newRecord_flag (h : 2 ≤ conf) : t.newRecord conf ty w cur = .inr 2 := by
  unfold State.newRecord
  rw [flagOf_none h]

/-- A record without a loaded type. -/
theorem State.newRecord_unloaded (h : 4 ≤ ty ∨ ∃ k : TypeNo, k.val = ty ∧ t.types[k] = none) :
    t.newRecord 1 ty w cur = .inr 3 := by
  unfold State.newRecord
  rcases h with h | ⟨k, rfl, hk⟩
  · rw [typeNoOf_none h]
    rfl
  · rw [typeNoOf_val, show flagOf 1 = some true from rfl]
    dsimp only
    rw [hk]

theorem State.newRecord_permit (hk : t.types[k] = some x) (hw : 2 ≤ w) : t.newRecord 1 k.val w cur = .inr 4 := by
  unfold State.newRecord
  rw [typeNoOf_val, show flagOf 1 = some true from rfl]
  dsimp only
  rw [hk, flagOf_none hw]

theorem State.newRecord_inRange (hk : t.types[k] = some x) (hw : w ≤ 1) : t.newRecord 1 k.val w cur =
    if cur ≤ x.altCyls * x.heads then .inl { configured := true, typeNo := k, writePermitted := decide (w = 1), cursor := cur }
    else .inr 5 := by
  have hw' := flagOf_some hw
  unfold State.newRecord
  rw [typeNoOf_val]
  simp only [hk, hw']
  rfl

theorem DriveRecord.changesType_iff {old new : DriveRecord} : old.changesType new = true ↔
    old.configured ≠ new.configured ∨ (old.configured = true ∧ old.typeNo ≠ new.typeNo) := by
  cases ho : old.configured <;> cases hn : new.configured <;> simp [DriveRecord.changesType, ho, hn]

/-- What a load leaves: the record, the spare map and the suspect list without the drive's entries, and its positioner. -/
theorem State.loadRecord_eq : t.loadRecord d r = ({ t.setRecord d r with
    spareMap := t.spareMap.filter fun e => decide (e.drive ≠ d)
    suspects := t.suspects.filter fun e => decide (e.drive ≠ d) } : State).modPos d fun q =>
      if (t.record d).changesType r then { q with status := none : Positioner }.retype else { q with status := none } := by
  simp only [ne_eq, decide_not]
  rfl

end Records

/-- Settles O40: the items in turn, the two answers that hold the order off, and the record taken. -/
theorem loadDriveRecordReplaces : Obligations.LoadDriveRecordReplaces := by
  unfold Obligations.LoadDriveRecordReplaces
  intro s u t h n conf ty w cur hu ht i reject
  have he : exec i s = .next (t.takeDriveRecord h.port n conf ty w cur).serveClaims := exec_loadDriveRecord hu ht n conf ty w cur
  rw [he]
  refine ⟨fun hn => ?_, ?_⟩
  · unfold State.takeDriveRecord
    rw [driveOf_none hn]
    rfl
  rintro d rfl
  refine ⟨fun hc => ?_, fun hc hty => ?_, fun k x hc hk hx => ⟨fun hw => ?_, fun hw hcur => ?_⟩, fun r hr => ?_⟩
  · rw [State.takeDriveRecord_bad (State.newRecord_flag hc)]
    rfl
  · subst hc
    rw [State.takeDriveRecord_bad (State.newRecord_unloaded hty)]
    rfl
  · subst hc hk
    rw [State.takeDriveRecord_bad (State.newRecord_permit hx hw)]
    rfl
  · subst hc hk
    rw [State.takeDriveRecord_bad ((State.newRecord_inRange hx hw).trans (if_neg (not_le.mpr hcur)))]
    rfl
  · have hnew : t.newRecord conf ty w cur = .inl r := by
      rcases hr with ⟨rfl, rfl⟩ | ⟨k, x, rfl, rfl, hx, hw, hcur, rfl⟩
      · rfl
      · exact (State.newRecord_inRange hx hw).trans (if_pos hcur)
    rw [State.takeDriveRecord_new hnew]
    refine ⟨fun ho => ?_, fun ho hh => ?_, fun ho hh => ?_⟩
    · rw [if_pos ho]
      rfl
    · rw [ho, if_neg nofun, if_pos hh]
      rfl
    · intro changes stored
      have hch : (t.record d).changesType r = true ↔ changes := DriveRecord.changesType_iff
      have hload : ∀ (f : Positioner → Positioner),
          (if (t.record d).changesType r then { t.pos d with status := none : Positioner }.retype
            else { t.pos d with status := none }) = f (t.pos d) → t.loadRecord d r = stored.modPos d f :=
        fun f hf => State.loadRecord_eq.trans (congrArg (stored.setPos d) hf)
      rw [ho, if_neg nofun, hh, if_neg nofun]
      refine ⟨fun hc => ?_, fun hc ha => ?_, fun hc ha => ?_, fun hc ha => ?_⟩
      · rw [hload (fun q => { q with status := none }) (if_neg (mt hch.mp hc))]
        rfl
      · rw [hload (fun q => { q with status := none, angle := none, cyl := none, actuator := .uncalibrated })
          (by rw [if_pos (hch.mpr hc)]; simp [Positioner.retype, ha])]
        rfl
      · rw [hload (fun q => { q with status := none, angle := none, calVoid := true })
          (by rw [if_pos (hch.mpr hc)]; rcases ha with ha | ha <;> simp [Positioner.retype, ha])]
        rfl
      · rw [hload (fun q => { q with status := none, angle := none })
          (by rw [if_pos (hch.mpr hc)]; rcases ha with ha | ha <;> simp [Positioner.retype, ha])]
        rfl

/-! ## SET PATH GROUP and SET NOTICE MASK (R158, R179) -/

section Groups
variable {s u t : State} {h : Hdr} {p : Port} {d : Drive} {g : Nat}

/-- Two folds over items without doubles agree where each step agrees on what an item finds, and the steps of other items leave
that as it is. -/
theorem foldl_agree {α : Type} {f k : State → α → State} {P : α → State → Prop} {l : List α} (hl : l.Nodup)
    (hP : ∀ s x y, x ≠ y → P x s → P y s → P y (f s x)) (hf : ∀ s x, P x s → f s x = k s x) (s : State)
    (hs : ∀ x ∈ l, P x s) : l.foldl f s = l.foldl k s := by
  induction l generalizing s with
  | nil => rfl
  | cons x l ih =>
    obtain ⟨hx, hl⟩ := List.nodup_cons.mp hl
    have hPx := hs x (by simp)
    rw [List.foldl_cons, List.foldl_cons, ← hf s x hPx]
    exact ih hl _ fun y hy => hP s x y (fun e => hx (e ▸ hy)) hPx (hs y (by simp [hy]))

theorem exec_setPathGroup (hu : s.Finds u) (ht : u.TakesOrder h t) (g : Nat) :
    exec (.setPathGroup h g) s = .next (t.takeGroup h.port g).serveClaims := by
  unfold exec execSetPathGroup
  exact (State.perform_finds _ hu).trans (by rw [State.unitOrder_takes ht])

theorem exec_setNoticeMask (hu : s.Finds u) (ht : u.TakesOrder h t) (a b : Nat) :
    exec (.setNoticeMask h a b) s = .next (t.takeMask h.port a b).serveClaims := by
  unfold exec execSetNoticeMask
  exact (State.perform_finds _ hu).trans (by rw [State.unitOrder_takes ht])

theorem State.holdsAny_iff : t.holdsAny p = true ↔ ∃ d x, (t.share d).hold = some x ∧ x.port = p := by
  unfold State.holdsAny
  rw [List.any_eq_true]
  exact ⟨fun ⟨d, _, hd⟩ => ⟨d, State.heldBy_iff.mp hd⟩, fun ⟨d, hd⟩ => ⟨d, mem_allDrives d, State.heldBy_iff.mpr hd⟩⟩

theorem State.takeGroup_free (hg : g ≤ 15) (hf : ∀ d x, (t.share d).hold = some x → x.port ≠ p) :
    t.takeGroup p g = (t.setGroup p g).unitDone p := by
  have hno : ¬ t.holdsAny p = true := fun hh => by
    obtain ⟨d, x, hx, hp⟩ := State.holdsAny_iff.mp hh
    exact hf d x hx hp
  unfold State.takeGroup
  rw [if_neg (by omega), if_neg hno]

theorem State.setGroup_same (hg : g = (t.port p).group) : t.setGroup p g = t := by
  unfold State.setGroup
  rw [if_pos hg.symm]

theorem State.setGroup_new (hg : g ≠ (t.port p).group) : t.setGroup p g =
    (t.modPort p fun r => { r with group := g }).forDrives fun s d =>
      (if ((s.share d).owes p).isSome then s.owedTest d else s).dropUnclaimed d := by
  unfold State.setGroup
  rw [if_neg hg.symm]

/-- An operation of a drive command is not ended for want of a port to take its status. -/
theorem State.dropUnclaimed_noAlt (h : ∀ o, s.op d = some o → o.alt = none) : s.dropUnclaimed d = s := by
  unfold State.dropUnclaimed
  split
  next o ho =>
    rw [h o ho]
  next => rfl

/-- Without alternate operations the new group makes the tests of the owed sets alone. -/
theorem State.setGroup_tests (hg : g ≠ (t.port p).group) (ha : ∀ d o, t.op d = some o → o.alt = none) : t.setGroup p g =
    allDrives.foldl (fun v d => if ((t.share d).owes p).isSome then v.owedTest d else v)
      (t.modPort p fun r => { r with group := g }) := by
  rw [State.setGroup_new hg]
  refine foldl_agree (P := fun d v => v.share d = t.share d ∧ v.op d = t.op d) (by decide) (fun v d e hde hd he => ?_)
    (fun v d hd => ?_) _ fun d _ => ⟨rfl, rfl⟩
  · have hop : ∀ w : State, w.op d = v.op d → w.dropUnclaimed d = w := fun w hw =>
      State.dropUnclaimed_noAlt fun o ho => ha d o (by rw [← hd.2, ← hw, ho])
    split
    next =>
      rw [hop _ (State.owedTest_op _ _ _)]
      exact ⟨(State.owedTest_share_ne v hde.symm).trans he.1, (State.owedTest_op _ _ _).trans he.2⟩
    next =>
      rw [hop _ rfl]
      exact he
  · have hop : ∀ w : State, w.op d = v.op d → w.dropUnclaimed d = w := fun w hw =>
      State.dropUnclaimed_noAlt fun o ho => ha d o (by rw [← hd.2, ← hw, ho])
    rw [hd.1]
    split
    next => exact hop _ (State.owedTest_op _ _ _)
    next => exact hop _ rfl

/-- The kept status of an alternate operation that no port can take any more ends with its operation. -/
theorem State.dropUnclaimed_lost {o : Operation} {a : AltOp} {x : Pending} (ho : s.op d = some o) (ha : o.alt = some a)
    (hx : o.pending = some x) (hi : a.issuerHeld = false) (hg : ∀ q, (s.port q).group ≠ o.group) :
    s.dropUnclaimed d = (s.withdrawOffersOf d).endOperation d := by
  have hun : s.unclaimable o a = true := by
    simp [State.unclaimable, hi, hg]
  unfold State.dropUnclaimed
  rw [ho]
  dsimp only
  rw [ha, hx]
  exact if_pos hun

end Groups

/-- Settles O45: the two refusals, then the group by what it acts on, and the masks. -/
theorem groupAndMaskOrders : Obligations.GroupAndMaskOrders := by
  unfold Obligations.GroupAndMaskOrders
  intro s u t h hu ht
  refine ⟨fun g hg => ?_, fun g hg hh => ?_, fun g hg hf howes ha => ?_, fun g hg hf => ⟨fun hsame => ?_, fun hne ha => ?_,
    fun d o a x hne howes hothers ho ha hx hi hog hq => ?_⟩, fun a b hab => ?_, fun a b => ?_⟩
  · rw [exec_setPathGroup hu ht, State.takeGroup, if_pos hg]
    rfl
  · rw [exec_setPathGroup hu ht, State.takeGroup, if_neg (by omega), if_pos (State.holdsAny_iff.mpr hh)]
    rfl
  · rw [exec_setPathGroup hu ht, State.takeGroup_free hg hf]
    by_cases hsame : g = (t.port h.port).group
    · rw [State.setGroup_same hsame, hsame]
      have hid : (t.modPort h.port fun r => { r with group := (t.port h.port).group }) = t := State.setPort_self _ _ rfl
      rw [hid]
      rfl
    · rw [State.setGroup_tests hsame ha, foldl_fixed fun d _ => by rw [howes d]; rfl]
      rfl
  · rw [exec_setPathGroup hu ht, State.takeGroup_free hg hf, State.setGroup_same hsame]
    rfl
  · rw [exec_setPathGroup hu ht, State.takeGroup_free hg hf, State.setGroup_tests hne ha]
    rfl
  · rw [exec_setPathGroup hu ht, State.takeGroup_free hg hf, State.setGroup_new hne]
    have hstep : ∀ (v : State) e, (v.share e).owes h.port = none →
        (if ((v.share e).owes h.port).isSome then v.owedTest e else v) = v := fun v e hv => by
      rw [hv]
      rfl
    have hgroup : ∀ q, ((t.modPort h.port fun r => { r with group := g }).port q).group ≠ o.group := fun q => by
      rw [State.modPort_port]
      by_cases hp : h.port = q
      · rw [if_pos hp]
        exact hog.symm
      · rw [if_neg hp]
        exact hq q (Ne.symm hp)
    have howes' : ∀ e, ((t.modPort h.port fun r => { r with group := g }).share e).owes h.port = none := howes
    have hop' : ∀ e, (t.modPort h.port fun r => { r with group := g }).op e = t.op e := fun e => rfl
    generalize (t.modPort h.port fun r => { r with group := g }) = v at hgroup howes' hop' ⊢
    have hlost := State.dropUnclaimed_lost ((hop' d).trans ho) ha hx hi hgroup
    rw [forDrives_single d (fun e he => ?_) fun e he => ?_]
    · rw [hstep _ d (howes' d), hlost]
      rfl
    · rw [hstep _ e (howes' e)]
      exact State.dropUnclaimed_noAlt fun o' ho' => hothers e o' he ((hop' e).symm.trans ho')
    · rw [hstep _ d (howes' d), hlost]
      have hshare : (((v.withdrawOffersOf d).endOperation d).share e).owes h.port = none := by
        rw [State.endOperation_eq, State.endsWith_share_ne _ _ he, State.withdrawOffersOf_share]
        exact howes' e
      rw [hstep _ e hshare]
      refine State.dropUnclaimed_noAlt fun o' ho' => hothers e o' he ?_
      rw [State.endOperation_eq, State.endsWith_op, if_neg (Ne.symm he), State.withdrawOffersOf_op] at ho'
      exact (hop' e).symm.trans ho'
  · rw [exec_setNoticeMask hu ht]
    unfold State.takeMask
    split
    next x y hx hy =>
      rcases hab with hab | hab
      · simp [flagOf_none hab] at hx
      · simp [flagOf_none hab] at hy
    next => rfl
  · rw [exec_setNoticeMask hu ht]
    cases a <;> cases b <;> rfl

end Sys2Proof.Machine
end

section
/-! SUPPORT. The beginning of the alternate operations, and the orders that read the unit's tables (chapters 2, 6, 7 and 11). -/

namespace Sys2Proof.Machine

open Sys2Proof

/-! ## ASSIGN ALTERNATE and RESTORE TRACK (R125, R131) -/

section Alternates
variable {s u t : State} {h : Hdr} {p : Port} {d : Drive} {x : Track} {n : Nat} {k : FaultKind}
variable {step9 : Drive → Option FaultKind} {start : Drive → State}

-- The proofs before this one end before those after it begin: they have to compile within the check's memory.
set_option Elab.async false in
theorem exec_assignAlternate (hu : s.Finds u) (ht : u.TakesControl h t) (n : Nat) (x : Track) :
    exec (.assignAlternate h n x) s =
      .next (t.takeAlternate h.port n x (t.assignStep9 x) fun d => t.startAssign d h.port x).serveClaims := by
  unfold exec execAssignAlternate
  exact (State.perform_finds _ hu).trans (by rw [State.controlOrder_takes ht])

theorem exec_restoreTrack (hu : s.Finds u) (ht : u.TakesControl h t) (n : Nat) (x : Track) :
    exec (.restoreTrack h n x) s =
      .next (t.takeAlternate h.port n x (t.restoreStep9 x) fun d => t.startRestore d h.port x).serveClaims := by
  unfold exec execRestoreTrack
  exact (State.perform_finds _ hu).trans (by rw [State.controlOrder_takes ht])

theorem State.takeAlternate_fault (hc : t.altCheck p n x = .fault k) :
    t.takeAlternate p n x step9 start = t.unitFault p k := by
  unfold State.takeAlternate
  rw [hc]

theorem State.takeAlternate_held {r : Reason} (hc : t.altCheck p n x = .held d r) :
    t.takeAlternate p n x step9 start = (t.oweOrder d p).unitStatus p (.heldFor r) := by
  unfold State.takeAlternate
  rw [hc]
  rfl

theorem State.takeAlternate_passed (hc : t.altCheck p n x = .passed d) : t.takeAlternate p n x step9 start =
    match step9 d with
    | some k => t.unitFault p k
    | none => if (t.pos d).writeProtect then t.unitFault p .notWritable else start d := by
  unfold State.takeAlternate
  rw [hc] <;> rfl

/-- The checks of a drive that exists, in their order. -/
theorem State.altCheck_eq : t.altCheck p d.val x =
    if (t.record d).configured = false then .fault .notConfigured
    else if (t.pos d).actuator = .notReady then .fault .notReady
    else if (t.typeOf d).isHome x = false then .fault .commandReject
    else if (t.share d).hold.isSome then .held d .hold
    else if t.reservedByOther d p then .held d .reserved
    else if (t.op d).isSome then .held d .busy
    else .passed d := by
  unfold State.altCheck
  rw [driveOf_val]

theorem DriveType.isHome_iff {ty : DriveType} : ty.isHome x = true ↔ x.cyl < ty.dataCyls ∧ x.head < ty.heads := by
  simp [DriveType.isHome]

end Alternates

/-- Settles O43: the checks that both orders share, then those of their own, then the operation. -/
theorem alternateOperationsBegin : Obligations.AlternateOperationsBegin := by
  unfold Obligations.AlternateOperationsBegin
  intro s u t h x hu ht refused
  have hassign := exec_assignAlternate hu ht
  have hrestore := exec_restoreTrack hu ht
  refine ⟨?_, fun d => ?_⟩
  · rintro n i hn (rfl | rfl)
    · have hc : t.altCheck h.port n x = .fault .commandReject := by rw [State.altCheck, driveOf_none hn]
      exact (hassign n x).trans (by rw [State.takeAlternate_fault hc]; rfl)
    · have hc : t.altCheck h.port n x = .fault .commandReject := by rw [State.altCheck, driveOf_none hn]
      exact (hrestore n x).trans (by rw [State.takeAlternate_fault hc]; rfl)
  · intro heldOff either isHome free
    have hfault : ∀ k, t.altCheck h.port d.val x = .fault k → either (refused k) := fun k hc =>
      ⟨(hassign _ x).trans (by rw [State.takeAlternate_fault hc]; rfl),
        (hrestore _ x).trans (by rw [State.takeAlternate_fault hc]; rfl)⟩
    have hheld : ∀ r, t.altCheck h.port d.val x = .held d r → either (heldOff r) := fun r hc =>
      ⟨(hassign _ x).trans (by rw [State.takeAlternate_held hc]; rfl),
        (hrestore _ x).trans (by rw [State.takeAlternate_held hc]; rfl)⟩
    have hhome : isHome ↔ (t.typeOf d).isHome x = true := DriveType.isHome_iff.symm
    have hfree : free ↔ t.reservedByOther d h.port = false := by
      rw [State.reservedByOther_eq_false]
      cases ho : (t.share d).owner with
      | none => simp [free, ho]
      | some g => simp [free, ho]
    refine ⟨fun hc => hfault _ ?_, fun hc ha => hfault _ ?_, fun hc ha => ⟨fun hx => hfault _ ?_, fun hx hh => hheld _ ?_,
      fun hx hh hf => hheld _ ?_, fun hx hh hf ho => hheld _ ?_, fun hx hh hf ho => ?_⟩⟩
    · rw [State.altCheck_eq, if_pos hc]
    · rw [State.altCheck_eq, if_neg (by simp [hc]), if_pos ha]
    · rw [hhome, Bool.not_eq_true] at hx
      rw [State.altCheck_eq, if_neg (by simp [hc]), if_neg ha, if_pos hx]
    · rw [State.altCheck_eq, if_neg (by simp [hc]), if_neg ha, if_neg (by simp [hhome.mp hx]), if_pos hh]
    · rw [hfree, Bool.not_eq_false] at hf
      rw [State.altCheck_eq, if_neg (by simp [hc]), if_neg ha, if_neg (by simp [hhome.mp hx]), if_neg (by simp [hh]), if_pos hf]
    · rw [State.altCheck_eq, if_neg (by simp [hc]), if_neg ha, if_neg (by simp [hhome.mp hx]), if_neg (by simp [hh]),
        if_neg (by simp [hfree.mp hf]), if_pos ho]
    · have hpass : t.altCheck h.port d.val x = .passed d := by
        rw [State.altCheck_eq, if_neg (by simp [hc]), if_neg ha, if_neg (by simp [hhome.mp hx]), if_neg (by simp [hh]),
          if_neg (by simp [hfree.mp hf]), if_neg (by simp [ho])]
      have hroom : (t.entryFor d x).isSome = true ∨ t.spareMap.length < 96 → t.assignStep9 x d = none := fun hr => if_pos hr
      have hentry : ∀ e, t.entryFor d x = some e → e.current.isSome = true → t.restoreStep9 x d = none := fun e he hcur => by
        unfold State.restoreStep9
        rw [he]
        exact if_pos hcur
      refine ⟨fun he hm => ?_, fun hno => ?_, fun hw => ⟨fun hr => ?_, fun e he hcur => ?_⟩, fun hw => ?_⟩
      · have h9 : t.assignStep9 x d = some .mapFull := if_neg (by rw [he]; simpa using hm)
        exact (hassign _ x).trans (by rw [State.takeAlternate_passed hpass, h9]; rfl)
      · have h9 : t.restoreStep9 x d = some .commandReject := by
          unfold State.restoreStep9
          rw [if_neg]
          cases he : t.entryFor d x with
          | none => simp
          | some e => simp [hno e he]
        exact (hrestore _ x).trans (by rw [State.takeAlternate_passed hpass, h9]; rfl)
      · exact (hassign _ x).trans (by rw [State.takeAlternate_passed hpass, hroom hr, hw]; rfl)
      · exact (hrestore _ x).trans (by rw [State.takeAlternate_passed hpass, hentry e he hcur, hw]; rfl)
      · intro accepted alt
        refine ⟨fun hr => ?_, fun e he hcur => ?_⟩
        · exact (hassign _ x).trans (by rw [State.takeAlternate_passed hpass, hroom hr, hw]; rfl)
        · exact (hrestore _ x).trans (by rw [State.takeAlternate_passed hpass, hentry e he hcur, hw]; rfl)

/-! ## The bytes of the unit's tables (R31, R123, R139, R187) -/

section Layouts
variable {s t : State} {c : Conn} {p : Port} {bs : List Byte}

/-- An answer of up to 512 bytes is one DATA frame of 256 bytes or two. -/
theorem answerFrames_two (a : Nat) (h1 : bs ≠ []) (h2 : bs.length ≤ 512) : answerFrames a 2 0 bs =
    if bs.length ≤ 256 then [.data a 0 bs] else [.data a 0 (bs.take 256), .data a 256 (bs.drop 256)] := by
  split
  next h => exact answerFrames_one a h1 h
  next h =>
    have hd : bs.drop 256 ≠ [] := by
      rw [← List.length_pos_iff_ne_nil, List.length_drop]
      omega
    have ht : (bs.drop 256).length ≤ 256 := by
      rw [List.length_drop]
      omega
    simp [answerFrames, h1, hd, List.take_of_length_le ht]

theorem State.answerData_two (h1 : bs ≠ []) (h2 : bs.length ≤ 512) : s.answerData p c bs = s.modPort p fun x =>
    { x with
      held := []
      link := dropData x.link ++ (if bs.length ≤ 256 then [.data (x.addressOf c) 0 bs]
        else [.data (x.addressOf c) 0 (bs.take 256), .data (x.addressOf c) 256 (bs.drop 256)]),
      answer := some { status := { done := true }, found := none, resets := false } } := by
  unfold State.answerData
  simp only [answerFrames_two _ h1 h2]
  rfl

theorem typeBytes_length (x : Option DriveType) : (typeBytes x).length = 17 := by
  simp [typeBytes, twoBytes]

theorem DriveRecord.bytes_length (r : DriveRecord) : r.bytes.length = 5 := by
  simp [DriveRecord.bytes, twoBytes]

theorem State.driveTablesBytes_length : t.driveTablesBytes.length = 108 := by
  simp [State.driveTablesBytes, length_flatMap_const _ 17 typeBytes_length, length_flatMap_const _ 5 DriveRecord.bytes_length]

theorem SpareEntry.bytes_length (e : SpareEntry) : e.bytes.length = 12 := by
  simp [SpareEntry.bytes, trackBytes_length]

theorem State.spareMapBytes_length (n : Nat) : (t.spareMapBytes n).length ≤ 193 := by
  simp only [State.spareMapBytes, List.length_cons, length_flatMap_const _ 12 SpareEntry.bytes_length, List.length_take]
  omega

theorem Suspect.bytes_length (e : Suspect) : e.bytes.length = 10 := by
  simp [Suspect.bytes, trackBytes_length]

theorem State.suspectBytes_length : t.suspectBytes.length = 10 * t.suspects.length + 1 := by
  simp [State.suspectBytes, length_flatMap_const _ 10 Suspect.bytes_length]

theorem pathBytes_length (x : Option PathHold) : (pathBytes x).length = 3 := by
  cases x <;> rfl

theorem lastAltBytes_length (x : Option AltResult) : (lastAltBytes x).length = 14 := by
  cases x with
  | none => rfl
  | some a => simp [lastAltBytes, trackBytes_length, twoBytes]

theorem State.unitStateBytes_length : t.unitStateBytes.length = 49 := by
  have hport : ∀ r : PortRec, r.stateBytes.length = 3 := fun r => rfl
  have htwo : ∀ r : DriveRecord, (twoBytes r.cursor).length = 2 := fun r => rfl
  simp [State.unitStateBytes, length_flatMap_const _ 3 hport, length_flatMap_const _ 3 pathBytes_length, length_flatMap_const _ 2 htwo,
    lastAltBytes_length]

end Layouts

/-- Settles O41: each layout is the one the order copies, and fits two frames. -/
theorem stateReadingOrdersAnswer : Obligations.StateReadingOrdersAnswer := by
  unfold Obligations.StateReadingOrdersAnswer
  intro s u t h hu ht two flag track tables entry suspect flying result unit
  have htrack : ∀ x, track x = trackBytes x := fun x => by cases x <;> rfl
  have htables : t.driveTablesBytes = tables := by
    have htype : ∀ o, typeBytes o = (match o with
        | some x => [1] ++ two x.dataCyls ++
            [byteOf x.altCyls, byteOf x.heads, byteOf x.sectors, byteOf x.lead, byteOf x.setup] ++ two x.stepTime ++
            [byteOf x.settleTime] ++ two x.capacity ++
            [byteOf x.retryBudget, byteOf x.missLimit, byteOf x.threshold, byteOf x.holdLimit]
        | none => List.replicate 17 0) := fun o => by
      cases o with
      | none => decide
      | some x => rfl
    unfold State.driveTablesBytes
    rw [funext htype]
    rfl
  have hentry : ∀ e, entry e = e.bytes := fun e => by
    have hcode : byteOf 1 = 1 ∧ byteOf 2 = 2 ∧ byteOf 3 = 3 := by decide
    simp only [entry, htrack, SpareEntry.bytes]
    cases e.origin <;> simp only [Origin.code, hcode]
  have hsuspect : ∀ e, suspect e = e.bytes := fun e => by
    simp only [suspect, htrack, Suspect.bytes]
    rfl
  have hunit : t.unitStateBytes = unit := by
    have hpath : ∀ x, pathBytes x = (match x with
        | none => [0xFF, 0, 0]
        | some y => [byteOf y.drive.val, (if y.port = none then 1 else 2), (match y.port with
            | some p => byteOf (p.val + 1)
            | none => 0)]) := fun x => by
      rcases x with _ | ⟨e, _ | p⟩ <;> rfl
    have hflying : t.inFlightByte =
        byteOf (flying 0 + flying 1 + flying 2 + flying 3 + flying 4 + flying 5 + flying 6 + flying 7) := by
      simp only [State.inFlightByte, allDrives, List.foldl_cons, List.foldl_nil, Nat.zero_add]
      rfl
    have hresult : lastAltBytes t.lastAlt = result := by
      have hzero : byteOf 0 = 0 ∧ byteOf 1 = 1 ∧ byteOf 2 = 2 ∧ byteOf 0xFF = 0xFF := by decide
      cases hl : t.lastAlt with
      | none => simp [result, hl, lastAltBytes, htrack]
      | some a =>
        simp only [result, hl, lastAltBytes, htrack]
        cases a.order <;> cases a.outcome <;>
          simp [AltOrder.code, AltOutcome.code, AltOutcome.detail, Detail.code, AltResult.flags, hzero, two, twoBytes]
    unfold State.unitStateBytes
    rw [funext hpath, hflying, hresult]
    rfl
  refine ⟨by rw [← htables, State.driveTablesBytes_length], by rw [← hunit, State.unitStateBytes_length], ?_⟩
  intro answer
  have hanswer : ∀ bs : List Byte, 0 < bs.length → bs.length ≤ 512 → t.answerData h.port .unit bs = answer bs :=
    fun bs h1 h2 => State.answerData_two (List.ne_nil_of_length_pos h1) h2
  refine ⟨?_, fun n h1 h2 => ?_, fun n hn => ?_, fun hl => ?_, ?_⟩
  · unfold exec execReadDriveTables
    refine (State.perform_finds _ hu).trans ?_
    have hlen := State.driveTablesBytes_length (t := t)
    rw [State.unitOrderAs_takes ht, hanswer _ (by omega) (by omega), htables]
  · unfold exec execReadSpareMap
    refine (State.perform_finds _ hu).trans ?_
    have hlen := State.spareMapBytes_length (t := t) n
    have hpos : 0 < (t.spareMapBytes n).length := by simp [State.spareMapBytes]
    rw [State.unitOrder_takes ht, State.takeReadMap, if_neg (by omega), hanswer _ hpos (by omega), State.spareMapBytes,
      funext hentry]
  · unfold exec execReadSpareMap
    refine (State.perform_finds _ hu).trans ?_
    rw [State.unitOrder_takes ht, State.takeReadMap, if_pos hn]
    rfl
  · unfold exec execReadSuspectList
    refine (State.perform_finds _ hu).trans ?_
    have hlen := State.suspectBytes_length (t := t)
    rw [State.unitOrder_takes ht, hanswer _ (by omega) (by omega), State.suspectBytes, funext hsuspect]
  · unfold exec execReadUnitState
    refine (State.perform_finds _ hu).trans ?_
    have hlen := State.unitStateBytes_length (t := t)
    rw [State.unitOrder_takes ht, hanswer _ (by omega) (by omega), hunit]

end Sys2Proof.Machine
end

section
/-! SUPPORT. The orders that load and delete spare entries (chapter 6). -/

namespace Sys2Proof.Machine

open Sys2Proof

/-! ## The drives that hold an order off (R161) -/

section Owing
variable {s t u : State} {h : Hdr} {p : Port} {d : Drive} {ds : List Drive}

-- The proofs before this one end before those after it begin: they have to compile within the check's memory.
set_option Elab.async false in
theorem State.oweOrder_share_same : (t.oweOrder d p).share d =
    { t.share d with owed := (t.share d).owed.set p (some (((t.share d).owes p).getD .order)) } := by
  unfold State.oweOrder
  exact State.modShare_share_same _ _ _

theorem State.oweOrder_share_ne {e : Drive} (h : d ≠ e) : (t.oweOrder d p).share e = t.share e := by
  unfold State.oweOrder
  exact State.modShare_share_ne _ _ _ _ h

/-- The port joins the owed sets of the drives listed, and no other block changes. -/
theorem oweOrder_foldl (hn : ds.Nodup) (t : State) :
    (ds.foldl (fun s d => s.oweOrder d p) t) = { t with sharing := (ds.foldl (fun s d => s.oweOrder d p) t).sharing } ∧
    ∀ d, (d ∈ ds → (ds.foldl (fun s d => s.oweOrder d p) t).share d =
        { t.share d with owed := (t.share d).owed.set p (some (((t.share d).owes p).getD .order)) }) ∧
      (d ∉ ds → (ds.foldl (fun s d => s.oweOrder d p) t).share d = t.share d) := by
  induction ds generalizing t with
  | nil => exact ⟨rfl, fun d => ⟨fun hd => (by cases hd), fun _ => rfl⟩⟩
  | cons e ds ih =>
    obtain ⟨he, hn⟩ := List.nodup_cons.mp hn
    obtain ⟨hshape, hshare⟩ := ih hn (t.oweOrder e p)
    rw [List.foldl_cons]
    refine ⟨hshape, fun d => ⟨fun hd => ?_, fun hd => ?_⟩⟩
    · by_cases hde : d = e
      · subst hde
        rw [(hshare d).2 he, State.oweOrder_share_same]
      · rw [(hshare d).1 ((List.mem_cons.mp hd).resolve_left hde), State.oweOrder_share_ne (Ne.symm hde)]
    · obtain ⟨hde, hd⟩ := not_or.mp (mt List.mem_cons.mpr hd)
      rw [(hshare d).2 hd, State.oweOrder_share_ne (Ne.symm hde)]

end Owing

/-! ## The first entry that fails (R121) -/

section Firsts
variable {s t : State} {es pre rest : List SpareItem} {e : SpareItem} {n : Nat} {d : Drive}

/-- The entry at place n, from 0, is the first that is bad. -/
def FirstAt (es : List SpareItem) (bad : Nat → SpareItem → Prop) (n : Nat) : Prop :=
  (∃ e, es[n]? = some e ∧ bad n e) ∧ ∀ m y, m < n → es[m]? = some y → ¬ bad m y

/-- No entry is bad. -/
def NoneAt (es : List SpareItem) (bad : Nat → SpareItem → Prop) : Prop := ∀ n e, es[n]? = some e → ¬ bad n e

theorem FirstAt.mono {bad bad' : Nat → SpareItem → Prop} (h : FirstAt es bad n) (hb : ∀ n e, bad n e ↔ bad' n e) :
    FirstAt es bad' n := by
  obtain ⟨⟨e, he, hbad⟩, hm⟩ := h
  exact ⟨⟨e, he, (hb n e).mp hbad⟩, fun m y hlt hy hy' => hm m y hlt hy ((hb m y).mpr hy')⟩

theorem NoneAt.mono {bad bad' : Nat → SpareItem → Prop} (h : NoneAt es bad) (hb : ∀ n e, bad n e ↔ bad' n e) : NoneAt es bad' :=
  fun n e he hbad => h n e he ((hb n e).mpr hbad)

theorem firstBad_firstAt {ok : SpareItem → Bool} (h : FirstAt es (fun _ e => ok e = false) n) : firstBad ok es = some (n + 1) := by
  obtain ⟨⟨e, he, hbad⟩, hm⟩ := h
  obtain ⟨hlt, hget⟩ := List.getElem?_eq_some_iff.mp he
  have hfind : es.findIdx? (fun x => !ok x) = some n := by
    rw [List.findIdx?_eq_some_iff_getElem]
    refine ⟨hlt, by rw [hget, hbad]; rfl, fun j hj => ?_⟩
    have hj' := hm j es[j] hj (List.getElem?_eq_getElem _)
    simpa using hj'
  simp [firstBad, hfind]

theorem firstBad_noneAt {ok : SpareItem → Bool} (h : NoneAt es fun _ e => ok e = false) : firstBad ok es = none := by
  have hfind : es.findIdx? (fun x => !ok x) = none := by
    rw [List.findIdx?_eq_none_iff]
    intro e he
    obtain ⟨n, hn⟩ := List.mem_iff_getElem?.mp he
    have hok := h n e hn
    simpa using hok
  simp [firstBad, hfind]

theorem driveOf_some {m : Nat} : driveOf m = some d ↔ d.val = m := by
  unfold driveOf
  split
  next h => exact ⟨fun he => by cases he; rfl, fun he => by subst he; rfl⟩
  next h => exact ⟨fun he => (by cases he), fun he => absurd (he ▸ d.isLt) h⟩

theorem State.itemDrive_false : t.itemDrive e = false ↔ ∀ d : Drive, d.val = e.drive → (t.record d).configured = false := by
  unfold State.itemDrive
  cases hd : driveOf e.drive with
  | some d => exact ⟨fun hc d' hd' => by cases (driveOf_some.mpr hd').symm.trans hd; exact hc, fun hall => hall d (driveOf_some.mp hd)⟩
  | none => exact ⟨fun _ d' hd' => absurd (driveOf_some.mpr hd') (by simp [hd]), fun _ => rfl⟩

theorem State.itemTracks_false : t.itemTracks e = false ↔ ∀ d : Drive, d.val = e.drive →
    ¬ (e.home.cyl < (t.typeOf d).dataCyls ∧ e.home.head < (t.typeOf d).heads ∧
      (t.typeOf d).dataCyls ≤ e.alternate.cyl ∧ e.alternate.cyl < (t.typeOf d).dataCyls + (t.typeOf d).altCyls ∧
      e.alternate.head < (t.typeOf d).heads) := by
  have htracks : ∀ d, ((t.typeOf d).isHome e.home && (t.typeOf d).isAlternate e.alternate) = false ↔
      ¬ (e.home.cyl < (t.typeOf d).dataCyls ∧ e.home.head < (t.typeOf d).heads ∧
        (t.typeOf d).dataCyls ≤ e.alternate.cyl ∧ e.alternate.cyl < (t.typeOf d).dataCyls + (t.typeOf d).altCyls ∧
        e.alternate.head < (t.typeOf d).heads) := fun d => by
    rw [← Bool.not_eq_true, not_iff_not]
    simp [DriveType.isHome, DriveType.isAlternate, and_assoc]
  unfold State.itemTracks
  cases hd : driveOf e.drive with
  | some d =>
    exact ⟨fun hc d' hd' => by cases (driveOf_some.mpr hd').symm.trans hd; exact (htracks d).mp hc,
      fun hall => (htracks d).mpr (hall d (driveOf_some.mp hd))⟩
  | none => exact ⟨fun _ d' hd' => absurd (driveOf_some.mpr hd') (by simp [hd]), fun _ => rfl⟩

theorem SpareItem.clashes_iff {a b : SpareItem} : a.clashes b = true ↔ b.drive = a.drive ∧
    (b.home = a.home ∨ b.home = a.alternate ∨ b.alternate = a.home ∨ b.alternate = a.alternate) := by
  simp only [SpareItem.clashes, Bool.and_eq_true, Bool.or_eq_true, decide_eq_true_eq, eq_comm (a := a.drive),
    eq_comm (a := a.home), eq_comm (a := a.alternate)]
  tauto

/-- The entry of the map has the track as its home track or as an alternate. -/
theorem SpareEntry.mentions_iff {x : SpareEntry} {q : Track} :
    x.mentions q = true ↔ x.home = q ∨ x.current = some q ∨ x.pending = some q := by
  simp [SpareEntry.mentions, SpareEntry.holds]

theorem State.clashes_iff : t.clashes e = true ↔ ∃ x ∈ t.spareMap, x.drive.val = e.drive ∧
    ((x.home = e.home ∨ x.current = some e.home ∨ x.pending = some e.home) ∨
      (x.home = e.alternate ∨ x.current = some e.alternate ∨ x.pending = some e.alternate)) := by
  simp [State.clashes, SpareEntry.mentions_iff]

/-- The entry at place n clashes with the map, or with an earlier one of the order. -/
def State.clashAt (t : State) (es : List SpareItem) (n : Nat) (e : SpareItem) : Prop :=
  t.clashes e = true ∨ ∃ m y, m < n ∧ es[m]? = some y ∧ e.clashes y = true

/-- At its place an entry clashes with one of those before it or with the map. -/
theorem State.clashAt_here : t.clashAt (pre ++ e :: rest) pre.length e ↔ (t.clashes e || pre.reverse.any e.clashes) = true := by
  unfold State.clashAt
  rw [Bool.or_eq_true, List.any_eq_true]
  refine or_congr Iff.rfl ⟨?_, ?_⟩
  · rintro ⟨m, y, hm, hy, hc⟩
    rw [List.getElem?_append_left hm] at hy
    exact ⟨y, List.mem_reverse.mpr (List.mem_of_getElem? hy), hc⟩
  · rintro ⟨y, hy, hc⟩
    obtain ⟨m, hm, rfl⟩ := List.mem_iff_getElem.mp (List.mem_reverse.mp hy)
    exact ⟨m, pre[m], hm, by rw [List.getElem?_append_left hm, List.getElem?_eq_getElem hm], hc⟩

/-- The search for a clash, with the entries before a place already passed. -/
theorem State.firstClash_firstAt (hn : pre.length ≤ n) (he : ∃ e, (pre ++ rest)[n]? = some e ∧ t.clashAt (pre ++ rest) n e)
    (hm : ∀ m y, m < n → (pre ++ rest)[m]? = some y → ¬ t.clashAt (pre ++ rest) m y) :
    t.firstClash pre.reverse (pre.length + 1) rest = some (n + 1) := by
  induction rest generalizing pre with
  | nil =>
    obtain ⟨e, he, -⟩ := he
    rw [List.append_nil, List.getElem?_eq_none hn] at he
    cases he
  | cons x rest ih =>
    have hx : (pre ++ x :: rest)[pre.length]? = some x := by simp
    unfold State.firstClash
    by_cases hc : (t.clashes x || pre.reverse.any x.clashes) = true
    · have hlen : n = pre.length := by
        by_contra hne
        exact hm _ x (by omega) hx (State.clashAt_here.mpr hc)
      rw [if_pos hc, hlen]
    · have hne : n ≠ pre.length := fun hlen => by
        subst hlen
        obtain ⟨e, he, hbad⟩ := he
        cases hx.symm.trans he
        exact hc (State.clashAt_here.mp hbad)
      have hrest := ih (pre := pre ++ [x]) (by simp; omega) (by simpa using he) (by simpa using hm)
      rw [if_neg hc]
      simpa using hrest

theorem State.firstClash_noneAt (h : ∀ m y, (pre ++ rest)[m]? = some y → ¬ t.clashAt (pre ++ rest) m y) :
    t.firstClash pre.reverse (pre.length + 1) rest = none := by
  induction rest generalizing pre with
  | nil => rfl
  | cons x rest ih =>
    have hx : (pre ++ x :: rest)[pre.length]? = some x := by simp
    unfold State.firstClash
    rw [if_neg fun hc => h _ x hx (State.clashAt_here.mpr hc)]
    have hrest := ih (pre := pre ++ [x]) (by simpa using h)
    simpa using hrest

theorem State.busyNamed_mem : d ∈ t.busyNamed es ↔ (∃ e ∈ es, e.drive = d.val) ∧ (t.op d).isSome = true := by
  simp [State.busyNamed, mem_allDrives]

/-- The drive of a number is the one that has it. -/
theorem driveOf_find (m : Nat) : (allDrives.find? fun d => decide (d.val = m)) = driveOf m := by
  cases hd : driveOf m with
  | none =>
    rw [List.find?_eq_none]
    intro d _ h
    rw [driveOf_some.mpr (of_decide_eq_true h)] at hd
    cases hd
  | some d =>
    obtain rfl := driveOf_some.mp hd
    revert d
    decide

end Firsts

section Orders
variable {s u t : State} {h : Hdr} {p : Port} {d : Drive} {es : List SpareItem} {x : Track} {i : Nat}

theorem exec_loadSpareEntries (hu : s.Finds u) (ht : u.TakesControl h t) (es : List SpareItem) :
    exec (.loadSpareEntries h es) s = .next (t.takeSpareEntries h.port es).serveClaims := by
  unfold exec execLoadSpareEntries
  exact (State.perform_finds _ hu).trans (by rw [State.controlOrder_takes ht])

theorem exec_deleteSpareEntry (hu : s.Finds u) (ht : u.TakesControl h t) (n : Nat) (x : Track) :
    exec (.deleteSpareEntry h n x) s = .next (t.takeDelete h.port n x).serveClaims := by
  unfold exec execDeleteSpareEntry
  exact (State.perform_finds _ hu).trans (by rw [State.controlOrder_takes ht])

/-- LOAD SPARE ENTRIES with a count in range, check by check. -/
theorem State.takeSpareEntries_counted (h1 : 1 ≤ es.length) (h16 : es.length ≤ 16) : t.takeSpareEntries p es =
    match firstBad t.itemDrive es, firstBad t.itemTracks es, t.firstClash [] 1 es with
    | some i, _, _ => t.unitReject p i
    | none, some i, _ => t.unitReject p i
    | none, none, some i => t.unitReject p i
    | none, none, none =>
      if 96 < t.spareMap.length + es.length then t.unitReject p 0
      else if t.busyNamed es = [] then
        ({ t with spareMap := t.spareMap ++ es.filterMap fun e => (driveOf e.drive).map e.entry } : State).unitDone p
      else t.unitHeld p .busy (t.busyNamed es) := by
  unfold State.takeSpareEntries
  rw [if_neg (by omega)] <;> rfl

/-- DELETE SPARE ENTRY for a drive that exists, check by check. -/
theorem State.takeDelete_drive : t.takeDelete p d.val x =
    if (t.record d).configured = true ∧ (t.typeOf d).dataCyls ≤ x.cyl then t.unitReject p 0
    else if (t.op d).isSome then (t.oweOrder d p).unitStatus p (.heldFor .busy)
    else if (t.entryFor d x).isSome then (t.deleteEntry d x).unitDone p
    else t.unitReject p 0 := by
  unfold State.takeDelete
  rw [driveOf_val]
  rfl

theorem State.entryFor_isSome : (t.entryFor d x).isSome = true ↔ ∃ e ∈ t.spareMap, e.drive = d ∧ e.home = x := by
  simp [State.entryFor, SpareEntry.isFor_iff]

end Orders

/-- Settles O42: the checks of each order in their order, an order held off, and the map changed. -/
theorem spareMapOrders : Obligations.SpareMapOrders := by
  unfold Obligations.SpareMapOrders
  intro s u t h hu ht refused owing heldOff
  have hload := exec_loadSpareEntries hu ht
  have hdelete := exec_deleteSpareEntry hu ht
  refine ⟨fun es => ?_, fun n x hn => ?_, fun d x => ?_⟩
  · intro load first undriven misplaced named clash none' busy
    have hdrive : ∀ (n : Nat) e, undriven n e ↔ t.itemDrive e = false := fun _ e => State.itemDrive_false.symm
    have htracks : ∀ (n : Nat) e, misplaced n e ↔ t.itemTracks e = false := fun _ e => State.itemTracks_false.symm
    have hclash : ∀ n e, clash n e ↔ t.clashAt es n e := fun n e =>
      or_congr State.clashes_iff.symm (by simp only [SpareItem.clashes_iff])
    have hbusy : ∀ d, d ∈ t.busyNamed es ↔ busy d := fun d => State.busyNamed_mem
    refine ⟨fun hlen => ?_, fun h1 h16 => ?_⟩
    · exact (hload es).trans (by rw [State.takeSpareEntries, if_pos hlen]; rfl)
    have htake := State.takeSpareEntries_counted (t := t) (p := h.port) h1 h16
    refine ⟨fun n hn => ?_, fun hd => ⟨fun n hn => ?_, fun hm => ⟨fun n hn => ?_, fun hc => ⟨fun hl => ?_, fun hl =>
      ⟨fun hb => ?_, fun hb => ?_⟩⟩⟩⟩⟩
    · have hbad : firstBad t.itemDrive es = some (n + 1) := firstBad_firstAt (FirstAt.mono hn hdrive)
      exact (hload es).trans (by rw [htake, hbad]; rfl)
    all_goals have hd' : firstBad t.itemDrive es = none := firstBad_noneAt (NoneAt.mono hd hdrive)
    · have hbad : firstBad t.itemTracks es = some (n + 1) := firstBad_firstAt (FirstAt.mono hn htracks)
      exact (hload es).trans (by rw [htake, hd', hbad]; rfl)
    all_goals have hm' : firstBad t.itemTracks es = none := firstBad_noneAt (NoneAt.mono hm htracks)
    · obtain ⟨he, hlt⟩ := FirstAt.mono hn hclash
      have hbad : t.firstClash [] 1 es = some (n + 1) := State.firstClash_firstAt (pre := []) (Nat.zero_le n) he hlt
      exact (hload es).trans (by rw [htake, hd', hm', hbad]; rfl)
    all_goals
      have hc' : t.firstClash [] 1 es = none := State.firstClash_noneAt (pre := []) (NoneAt.mono hc hclash)
      rw [hd', hm', hc'] at htake
      dsimp only at htake
    · exact (hload es).trans (by rw [htake, if_pos hl]; rfl)
    · have hne : ¬ t.busyNamed es = [] := fun hnil => by
        obtain ⟨d, hd⟩ := hb
        rw [← hbusy, hnil] at hd
        cases hd
      obtain ⟨hshape, hshare⟩ := oweOrder_foldl (p := h.port) (ds := t.busyNamed es)
        (List.Nodup.filter _ (by decide)) t
      refine ⟨_, ⟨hshape, fun d => ⟨fun hd => (hshare d).1 ((hbusy d).mpr hd), fun hd => (hshare d).2 (mt (hbusy d).mp hd)⟩⟩, ?_⟩
      exact (hload es).trans (by rw [htake, if_neg (by omega), if_neg hne]; rfl)
    · intro loaded
      have hnil : t.busyNamed es = [] := List.eq_nil_iff_forall_not_mem.mpr fun d hd => hb d ((hbusy d).mp hd)
      have hloaded : loaded = es.filterMap fun e => (driveOf e.drive).map e.entry := by
        simp only [loaded, driveOf_find]
        rfl
      exact (hload es).trans (by rw [htake, if_neg (by omega), if_pos hnil, hloaded]; rfl)
  · exact (hdelete n x).trans (by rw [State.takeDelete, driveOf_none hn]; rfl)
  · intro delete placed
    have hplaced : placed ↔ ¬ ((t.record d).configured = true ∧ (t.typeOf d).dataCyls ≤ x.cyl) := by
      simp [placed]
    have hdel := (hdelete d.val x).trans (by rw [State.takeDelete_drive])
    refine ⟨fun hp => ?_, fun hp ho => ?_, fun hp ho => ⟨fun he => ?_, fun he => ?_⟩⟩
    · rw [hplaced, not_not] at hp
      exact hdel.trans (by rw [if_pos hp]; rfl)
    · refine ⟨t.oweOrder d h.port, ⟨rfl, fun e => ⟨fun hde => ?_, fun hde => State.oweOrder_share_ne (Ne.symm hde)⟩⟩, ?_⟩
      · subst hde
        exact State.oweOrder_share_same
      · exact hdel.trans (by rw [if_neg (hplaced.mp hp), if_pos ho]; rfl)
    · refine hdel.trans ?_
      rw [if_neg (hplaced.mp hp), ho, if_neg nofun, if_pos (State.entryFor_isSome.mpr he)]
      rfl
    · refine hdel.trans ?_
      have hno : ¬ (t.entryFor d x).isSome = true := fun hs => by
        obtain ⟨e, hmem, hd, hh⟩ := State.entryFor_isSome.mp hs
        exact he e hmem hd hh
      rw [if_neg (hplaced.mp hp), ho, if_neg nofun, if_neg hno]
      rfl

end Sys2Proof.Machine
end

section
/-! SUPPORT. Positionings by the actuator state they begin in, and the timebase with no command waiting (3.3, 3.4, 8.4). -/

namespace Sys2Proof.Machine

open Sys2Proof

/-! ## A positioning (R39, R40) -/

section Positioning
variable {s v : State} {d e : Drive} {o : Operation} {t : Track} {c dist : Nat}

/-- A motion order of this kind, to a cylinder over a distance, as it goes out. -/
def State.sent (s : State) (d : Drive) (kind : Actuator) (cyl dist : Nat) : State := s.modPos d fun q =>
  { q with actuator := kind, cyl := none, motionTarget := some cyl, owned := true, status := none,
           deadline := some (s.now + ((s.typeOf d).settleTime + (dist * (s.typeOf d).stepTime + 999) / 1000 + 10)) }

-- The proofs before this one end before those after it begin: they have to compile within the check's memory.
set_option Elab.async false in
theorem State.orderMotion_fewer (hu : (s.pos d).unanswered < 2) (kind : Actuator) (cyl dist : Nat) :
    s.orderMotion d kind cyl dist = (s.sent d kind cyl dist, .moving) := State.orderMotion_sent hu kind cyl dist

theorem State.orderMotion_silent (hu : 2 ≤ (s.pos d).unanswered) (kind : Actuator) (cyl dist : Nat) :
    s.orderMotion d kind cyl dist = (s, .noResponse) := by
  unfold State.orderMotion
  rw [if_pos hu]

theorem State.moveTo_seeks (ha : (s.pos d).actuator = .onCylinder) (hc : (s.pos d).cyl = some c) (hne : c ≠ t.cyl)
    (hu : (s.pos d).unanswered < 2) : s.moveTo d t = (s.sent d .seeking t.cyl (distance t.cyl c), .moving) := by
  unfold State.moveTo
  rw [ha]
  dsimp only
  rw [hc]
  dsimp only
  rw [if_neg hne, State.orderMotion_fewer hu]

theorem State.moveTo_recalibrates (ha : (s.pos d).actuator = .uncalibrated) (hu : (s.pos d).unanswered < 2) :
    s.moveTo d t = (s.sent d .recalibrating 0 ((s.typeOf d).dataCyls + (s.typeOf d).altCyls), .moving) := by
  unfold State.moveTo
  rw [ha]
  exact State.orderMotion_fewer hu _ _ _

theorem State.moveTo_waits (ha : (s.pos d).actuator = .seeking ∨ (s.pos d).actuator = .recalibrating) :
    s.moveTo d t = (s, .waiting) := by
  unfold State.moveTo
  rcases ha with ha | ha <;> rw [ha]

theorem State.moveTo_silent (ha : (s.pos d).actuator = .uncalibrated ∨ (s.pos d).actuator = .onCylinder ∧ (s.pos d).cyl ≠ some t.cyl)
    (hu : 2 ≤ (s.pos d).unanswered) : s.moveTo d t = (s, .noResponse) := by
  unfold State.moveTo
  rcases ha with ha | ⟨ha, hc⟩
  · rw [ha]
    exact State.orderMotion_silent hu _ _ _
  · rw [ha]
    dsimp only
    split
    next c hcyl =>
      rw [if_neg fun h => hc (by rw [hcyl, h])]
      exact State.orderMotion_silent hu _ _ _
    next => exact State.orderMotion_silent hu _ _ _

theorem State.moveTo_here (ha : (s.pos d).actuator = .onCylinder) (hc : (s.pos d).cyl = some t.cyl) :
    s.moveTo d t = (s.selectHead d t.head, .arrived) := by
  unfold State.moveTo
  rw [ha]
  dsimp only
  rw [hc]
  exact if_pos rfl

theorem State.selectHead_same (hh : (s.pos d).head = some c) : s.selectHead d c = s := if_pos hh

theorem State.selectHead_other (hh : (s.pos d).head ≠ some c) :
    s.selectHead d c = s.modPos d fun q => { q with head := some c, status := none } := if_neg hh

/-- What follows a positioning by how far it got; `arrived` is what follows at once. -/
def reached (d : Drive) (arrived : State → State) (x : State × Reach) : State :=
  match x.2 with
  | .arrived => arrived x.1
  | .moving | .waiting => x.1
  | .noResponse => x.1.equipmentCheck d .noResponse

theorem State.position_eq (ho : s.op d = some o) (ht : o.target = some t) : s.position d = reached d (fun v => v.arrive d)
    ((s.setOp d (some { o with work := .positioning, orient := none })).moveTo d t) := by
  have htarget : (s.op d).bind Operation.target = some t := by rw [ho]; exact ht
  unfold State.position
  rw [htarget]
  dsimp only
  rw [State.modOp_some _ _ _ ho]
  generalize (s.setOp d _).moveTo d t = x
  obtain ⟨v, r⟩ := x
  cases r <;> rfl

theorem State.reposition_eq (ho : s.op d = some o) : s.reposition d t = reached d (fun v => v.handHomeRead d)
    ((s.setOp d (some { o with work := .positioning })).moveTo d t) := by
  unfold State.reposition
  dsimp only
  rw [State.modOp_some _ _ _ ho]
  generalize (s.setOp d _).moveTo d t = x
  obtain ⟨v, r⟩ := x
  cases r <;> rfl

/-- The operation's record once its home field is to be read (R56). -/
def Operation.handedHome (o : Operation) : Operation :=
  { o with work := .readHome, rereads := 0, rereadDue := false,
           orient := some { external := false, sector := 0, req := .dormant, windowOpen := false, later := false,
                            deferred := PortSet.none, tested := false } }

theorem State.handHomeRead_eq (ho : s.op d = some o) : s.handHomeRead d = s.setOp d (some o.handedHome) :=
  State.modOp_some _ _ _ ho

/-- Arrival with the track status UNKNOWN reads the home field, whatever the operation. -/
theorem State.arrive_unknown (ho : s.op d = some o) (hs : (s.pos d).status = none) : s.arrive d = s.handHomeRead d := by
  unfold State.arrive
  rw [ho]
  dsimp only
  rw [hs]
  split
  next => rfl
  next => split <;> first | rfl | simp_all

theorem State.arrive_known {x : Condition} (ho : s.op d = some o) (ha : o.alt = none) (hs : (s.pos d).status = some x) :
    s.arrive d = s.judgeHome d x := by
  unfold State.arrive
  rw [ho]
  dsimp only
  rw [ha, hs]

end Positioning

/-- Settles O19: a positioning after learning, and any other, case by case. -/
theorem positioningByActuatorState : Obligations.PositioningByActuatorState := by
  unfold Obligations.PositioningByActuatorState
  refine ⟨fun s d o t ho => ?_, fun s d o t ho ht => ?_⟩
  · intro s' ty moving reading
    have hop : s'.op d = some { o with work := .positioning } := State.setOp_op_same _ _ _
    have hmod : ∀ f, (s'.modPos d f).op d = some { o with work := .positioning } := fun _ => hop
    rw [State.reposition_eq ho]
    refine ⟨fun c ha hc hne hu => ?_, fun ha hu => ?_, fun ha => ?_, fun ha hu => ?_, fun ha hc => ⟨fun hh => ?_, fun hh => ?_⟩⟩
    · rw [State.moveTo_seeks (s := s') ha hc hne hu]
      rfl
    · rw [State.moveTo_recalibrates (s := s') ha hu]
      rfl
    · rw [State.moveTo_waits (s := s') ha]
      rfl
    · rw [State.moveTo_silent (s := s') ha hu]
      rfl
    · rw [State.moveTo_here (s := s') ha hc]
      dsimp only [reached]
      rw [State.selectHead_same (s := s') hh, State.handHomeRead_eq hop]
      exact State.setOp_setOp _ _ _ _
    · rw [State.moveTo_here (s := s') ha hc]
      dsimp only [reached]
      rw [State.selectHead_other (s := s') hh, State.handHomeRead_eq (hmod _)]
      exact congrArg (fun v : State => v.modPos d fun q => { q with head := some t.head, status := none })
        (State.setOp_setOp s d _ _)
  · intro s' ty
    have hop : s'.op d = some { o with work := .positioning, orient := none } := State.setOp_op_same _ _ _
    have hmod : ∀ f, (s'.modPos d f).op d = some { o with work := .positioning, orient := none } := fun _ => hop
    rw [State.position_eq ho ht]
    refine ⟨fun c ha hc hne hu => ?_, fun ha hu => ?_, fun ha => ?_, fun ha hu => ?_, fun ha hc hh => ?_, fun ha hc hh hs => ?_,
      fun c ha hc hh hs halt => ?_⟩
    · rw [State.moveTo_seeks (s := s') ha hc hne hu]
      rfl
    · rw [State.moveTo_recalibrates (s := s') ha hu]
      rfl
    · rw [State.moveTo_waits (s := s') ha]
      rfl
    · rw [State.moveTo_silent (s := s') ha hu]
      rfl
    · rw [State.moveTo_here (s := s') ha hc]
      dsimp only [reached]
      rw [State.selectHead_other (s := s') hh, State.arrive_unknown (hmod _) (by simp),
        State.handHomeRead_eq (hmod _)]
      rfl
    · rw [State.moveTo_here (s := s') ha hc]
      dsimp only [reached]
      rw [State.selectHead_same (s := s') hh, State.arrive_unknown hop hs, State.handHomeRead_eq hop]
      exact State.setOp_setOp _ _ _ _
    · rw [State.moveTo_here (s := s') ha hc]
      dsimp only [reached]
      rw [State.selectHead_same (s := s') hh, State.arrive_known hop halt hs]

/-! ## The timebase (log 3) -/

section Timebase
variable {s t u v w : State} {d e : Drive} {p : Port} {o : Operation}

/-- v is s but for d's positioner, its operation and its paths: no timer of another drive or of a port has changed. -/
structure State.OnlyMotion (s v : State) (d : Drive) : Prop where
  now : v.now = s.now
  ports : v.ports = s.ports
  pos : ∀ e, e ≠ d → v.pos e = s.pos e

theorem State.OnlyMotion.trans (h : s.OnlyMotion v d) (h' : v.OnlyMotion w d) : s.OnlyMotion w d :=
  ⟨h'.now.trans h.now, h'.ports.trans h.ports, fun e he => (h'.pos e he).trans (h.pos e he)⟩

theorem State.onlyMotion_refl : s.OnlyMotion s d := ⟨rfl, rfl, fun _ _ => rfl⟩

theorem State.modPos_onlyMotion (f : Positioner → Positioner) : s.OnlyMotion (s.modPos d f) d :=
  ⟨rfl, rfl, fun _ he => State.modPos_pos_ne _ _ _ _ he.symm⟩

theorem State.sent_onlyMotion {kind : Actuator} {c dist : Nat} : s.OnlyMotion (s.sent d kind c dist) d :=
  State.modPos_onlyMotion _

theorem State.modOp_onlyMotion (f : Operation → Operation) : s.OnlyMotion (s.modOp d f) d := ⟨rfl, rfl, fun _ _ => rfl⟩

theorem State.freeInternalPath_onlyMotion : s.OnlyMotion (s.freeInternalPath d) d := ⟨rfl, rfl, fun _ _ => rfl⟩

theorem State.pendingFault_onlyMotion (k : FaultKind) (det : Detail) (x : Option Condition) :
    s.OnlyMotion (s.pendingFault d k det x) d := by
  unfold State.pendingFault State.keepPending
  split
  · exact (State.modOp_onlyMotion _).trans State.freeInternalPath_onlyMotion
  · exact State.onlyMotion_refl

/-- The operation of the drive, where there is one, is no alternate operation. -/
def State.noAlt (s : State) (d : Drive) : Prop := ∀ o, s.op d = some o → o.alt = none

theorem State.equipmentCheck_onlyMotion (h : s.noAlt d) (det : Detail) : s.OnlyMotion (s.equipmentCheck d det) d := by
  unfold State.equipmentCheck
  split
  next o ho =>
    rw [h o ho]
    exact State.pendingFault_onlyMotion _ _ _
  next => exact State.onlyMotion_refl

theorem State.noAlt_modOp (h : s.noAlt d) {f : Operation → Operation} (hf : ∀ o, (f o).alt = o.alt) : (s.modOp d f).noAlt d := by
  intro o ho
  rw [State.modOp_op_same] at ho
  obtain ⟨x, hx, rfl⟩ := Option.map_eq_some_iff.mp ho
  rw [hf]
  exact h x hx

/-- A recalibrate order is sent or not, and nothing else changes; it is never an arrival. -/
theorem State.orderRecalibrate_onlyMotion :
    s.OnlyMotion (s.orderRecalibrate d).1 d ∧ (∀ e, (s.orderRecalibrate d).1.op e = s.op e) ∧
      (s.orderRecalibrate d).2 ≠ .arrived := by
  by_cases hu : (s.pos d).unanswered < 2
  · have hord : s.orderRecalibrate d = _ := State.orderMotion_fewer hu .recalibrating 0 _
    rw [hord]
    exact ⟨State.sent_onlyMotion, fun _ => rfl, nofun⟩
  · have hord : s.orderRecalibrate d = _ := State.orderMotion_silent (not_lt.mp hu) .recalibrating 0 _
    rw [hord]
    exact ⟨State.onlyMotion_refl, fun _ => rfl, nofun⟩

theorem reached_onlyMotion {k : State → State} {x : State × Reach} (h : s.OnlyMotion x.1 d) (ha : x.1.noAlt d)
    (hr : x.2 ≠ .arrived) : s.OnlyMotion (reached d k x) d := by
  obtain ⟨v, r⟩ := x
  cases r with
  | arrived => exact absurd rfl hr
  | moving => exact h
  | waiting => exact h
  | noResponse => exact h.trans (State.equipmentCheck_onlyMotion ha _)

theorem State.reached_recalibrate (h : s.noAlt d) (k : State → State) : s.OnlyMotion (reached d k (s.orderRecalibrate d)) d := by
  obtain ⟨hm, hop, hr⟩ := State.orderRecalibrate_onlyMotion (s := s) (d := d)
  exact reached_onlyMotion hm (fun o ho => h o ((hop d).symm.trans ho)) hr

theorem State.beginRecalibrate_eq (ha : (s.pos d).actuator = .uncalibrated) :
    s.beginRecalibrate d = reached d id (s.orderRecalibrate d) := by
  unfold State.beginRecalibrate
  rw [ha]
  dsimp only
  generalize s.orderRecalibrate d = x
  obtain ⟨v, r⟩ := x
  cases r <;> rfl

theorem State.recover_eq : s.recover d = reached d id
    ((s.modOp d fun o => { o with recovery := true, work := .positioning, orient := none }).orderRecalibrate d) := by
  unfold State.recover
  dsimp only
  generalize State.orderRecalibrate _ d = x
  obtain ⟨v, r⟩ := x
  cases r <;> rfl

/-- With the positioner UNCALIBRATED, what the operation does next begins with a recalibrate. -/
theorem State.afterMotion_onlyMotion (h : s.noAlt d) (ha : (s.pos d).actuator = .uncalibrated) :
    s.OnlyMotion (s.afterMotion d) d := by
  unfold State.afterMotion
  split
  next o ho =>
    split
    next =>
      cases ht : o.target with
      | none =>
        have hpos : s.position d = s := by
          unfold State.position
          rw [ho, Option.bind_some, ht]
        rw [hpos]
        exact State.onlyMotion_refl
      | some t =>
        rw [State.position_eq ho ht, ← State.modOp_some s d (fun o => { o with work := .positioning, orient := none }) ho]
        have hmove : (s.modOp d fun o => { o with work := .positioning, orient := none }).moveTo d t =
            (s.modOp d fun o => { o with work := .positioning, orient := none }).orderRecalibrate d := by
          unfold State.moveTo
          rw [State.modOp_pos, ha]
        rw [hmove]
        refine (State.modOp_onlyMotion _).trans (State.reached_recalibrate ?_ _)
        exact State.noAlt_modOp h fun _ => rfl
    next =>
      rw [State.beginRecalibrate_eq ha]
      exact State.reached_recalibrate h _
    all_goals exact State.onlyMotion_refl
  next => exact State.onlyMotion_refl

/-- A motion that fails touches the timers of no port and of no other drive, where the operation is no alternate one. -/
theorem State.motionFailure_onlyMotion (h : s.noAlt d) : s.OnlyMotion (s.motionFailure d) d := by
  have hfail : s.OnlyMotion (s.modPos d Positioner.motionFailed) d := State.modPos_onlyMotion _
  have hpos : ((s.modPos d Positioner.motionFailed).pos d).actuator = .uncalibrated := by simp [Positioner.motionFailed]
  have halt : (s.modPos d Positioner.motionFailed).noAlt d := h
  unfold State.motionFailure
  split
  next =>
    unfold State.seekFailure
    dsimp only
    split
    next o ho =>
      split
      next => exact hfail.trans (State.afterMotion_onlyMotion halt hpos)
      next =>
        split
        next => exact hfail.trans (State.equipmentCheck_onlyMotion halt _)
        next =>
          rw [State.recover_eq]
          refine hfail.trans ((State.modOp_onlyMotion _).trans (State.reached_recalibrate ?_ _))
          exact State.noAlt_modOp halt fun _ => rfl
    next => exact hfail
  next =>
    unfold State.recalibrateFailure
    dsimp only
    split
    next => exact hfail.trans (State.equipmentCheck_onlyMotion halt _)
    next => exact hfail.trans (State.afterMotion_onlyMotion halt hpos)
  all_goals exact State.onlyMotion_refl

/-! ## One millisecond -/

theorem State.deadlineExpire_early (h : ∀ e, (s.pos d).deadline = some e → s.now < e) : s.deadlineExpire d = s := by
  unfold State.deadlineExpire isOver
  rw [if_neg]
  split
  next x hx =>
    have hlt := h x hx
    simpa using hlt
  next => simp

theorem State.deadlineExpire_due {x : Nat} (h : (s.pos d).deadline = some x) (hx : x ≤ s.now) : s.deadlineExpire d =
    (s.modPos d fun q => { q with deadline := none, unanswered := min 2 (q.unanswered + 1) }).motionFailure d := by
  unfold State.deadlineExpire isOver
  rw [h]
  exact if_pos (by simpa using hx)

theorem State.unitIdleExpire_early (h : ∀ e, (s.port p).idleTimer = some e → s.now < e) : s.unitIdleExpire p = s := by
  unfold State.unitIdleExpire isOver
  rw [if_neg]
  split
  next x hx =>
    have hlt := h x hx
    simpa using hlt
  next => simp

theorem State.unitIdleExpire_due {x : Nat} (h : (s.port p).idleTimer = some x) (hx : x ≤ s.now) :
    s.unitIdleExpire p = s.endConnection p := by
  unfold State.unitIdleExpire isOver
  rw [h]
  exact if_pos (by simpa using hx)

/-- A tick is what comes due in the next millisecond, then the claims. -/
theorem State.tick_eq (h : s.settle = u) : s.tick =
    ((({ u with now := u.now + 1 } : State).forDrives State.deadlineExpire).forPorts State.unitIdleExpire).serveClaims := by
  subst h
  rfl

theorem step_empty (hp : s.pending = []) (hu : s.Finds u) : step s =
    .next ((({ u with now := u.now + 1 } : State).forDrives State.deadlineExpire).forPorts State.unitIdleExpire).serveClaims := by
  unfold step
  rw [hp]
  dsimp only
  rw [if_pos hu.1, State.tick_eq hu.2]

end Timebase

/-- Settles O2: nothing due, one deadline due, one idle timer due. -/
theorem emptyQueuePassesOneMillisecond : Obligations.EmptyQueuePassesOneMillisecond := by
  unfold Obligations.EmptyQueuePassesOneMillisecond
  refine ⟨fun s hp hw => ?_, fun s u hp hu => ?_⟩
  · unfold step
    rw [hp]
    dsimp only
    rw [hw]
    rfl
  · intro later
    have hstep := step_empty hp hu
    refine ⟨fun hd hi => ?_, fun d x hx hle ha hd hi => ?_, fun p x hx hle hd hi => ?_⟩
    · rw [hstep, forDrives_fixed (s := later) fun d => State.deadlineExpire_early (hd d),
        forPorts_fixed (s := later) fun p => State.unitIdleExpire_early (hi p)]
    · have hat := State.deadlineExpire_due (s := later) hx hle
      have hmotion : later.OnlyMotion (later.deadlineExpire d) d := by
        rw [hat]
        exact (State.modPos_onlyMotion _).trans (State.motionFailure_onlyMotion ha)
      have hport : ∀ p, (later.deadlineExpire d).port p = u.port p := fun p => congrArg (fun ps => ps[p]) hmotion.ports
      have hnow : (later.deadlineExpire d).now = u.now + 1 := hmotion.now
      rw [hstep, forDrives_single (s := later) d (fun e he => State.deadlineExpire_early fun y hy => hd e y he hy)
        (fun e he => State.deadlineExpire_early fun y hy => ?_)]
      · rw [forPorts_fixed fun p => State.unitIdleExpire_early fun y hy => ?_, hat]
        rw [hport] at hy
        rw [hnow]
        exact hi p y hy
      · rw [hmotion.pos e he] at hy
        rw [hnow]
        exact hd e y he hy
    · have hat := State.unitIdleExpire_due (s := later) hx hle
      rw [hstep, forDrives_fixed (s := later) fun d => State.deadlineExpire_early (hd d),
        forPorts_single (s := later) p (fun q hq => State.unitIdleExpire_early fun y hy => hi q y hq hy)
          (fun q hq => State.unitIdleExpire_early fun y hy => ?_), hat]
      rw [hat, State.endConnection_port_ne _ hq] at hy
      rw [hat, State.endConnection_now]
      exact hi q y hq hy

end Sys2Proof.Machine
end

section
/-! SUPPORT. CLOSE, the unit idle timer and HALT (5.10, 8.4). -/

namespace Sys2Proof.Machine

open Sys2Proof

/-! ## Time that passes with nothing due (log 3) -/

section Passing
variable {s u : State} {p : Port} {d : Drive} {n x : Nat}

-- The proofs before this one end before those after it begin: they have to compile within the check's memory.
set_option Elab.async false in
/-- The claims do not depend on the timebase. -/
theorem State.Quiet.at_time (h : u.Quiet) (n : Nat) : ({ u with now := n } : State).Quiet := h

theorem State.settle_none (h : u.due = none) : u.settle = u := by
  unfold State.settle
  rw [h]

/-- A millisecond in which no claim stands and nothing falls due. -/
theorem State.tick_idle (hq : u.Quiet) (hdue : u.due = none) (hd : ∀ d x, (u.pos d).deadline = some x → u.now + 1 < x)
    (hi : ∀ q x, (u.port q).idleTimer = some x → u.now + 1 < x) : u.tick = { u with now := u.now + 1 } := by
  have hnone : ({ u with now := u.now + 1 } : State).forDrives State.deadlineExpire = { u with now := u.now + 1 } :=
    forDrives_fixed fun d => State.deadlineExpire_early (hd d)
  rw [State.tick_eq (State.settle_none hdue), hnone, forPorts_fixed fun q => State.unitIdleExpire_early (hi q)]
  exact (hq.at_time _).serveClaims

theorem State.passTime_idle (hq : u.Quiet) (hdue : u.due = none) (hd : ∀ d x, (u.pos d).deadline = some x → u.now + n < x)
    (hi : ∀ q x, (u.port q).idleTimer = some x → u.now + n < x) : u.passTime n = { u with now := u.now + n } := by
  induction n generalizing u with
  | zero => rfl
  | succ n ih =>
    have hstep := State.tick_idle hq hdue (fun d x hx => by have := hd d x hx; omega) (fun q x hx => by have := hi q x hx; omega)
    have hnext : u.passTime (n + 1) = (u.tick).passTime n := Function.iterate_succ_apply State.tick n u
    have hq' : ({ u with now := u.now + 1 } : State).Quiet := hq.at_time _
    have hdue' : ({ u with now := u.now + 1 } : State).due = none := hdue
    have hrest := ih hq' hdue' (fun d x hx => by have := hd d x hx; show u.now + 1 + n < x; omega)
      (fun q x hx => by have := hi q x hx; show u.now + 1 + n < x; omega)
    rw [hnext, hstep, hrest]
    show ({ u with now := u.now + 1 + n } : State) = { u with now := u.now + (n + 1) }
    rw [Nat.add_assoc, Nat.add_comm 1 n]

/-- The timebase reaches a time at which nothing has fallen due before. -/
theorem State.reachTime_idle (hx : u.now < x) (hq : u.Quiet) (hdue : u.due = none)
    (hd : ∀ d y, (u.pos d).deadline = some y → x ≤ y) (hi : ∀ q y, (u.port q).idleTimer = some y → x ≤ y) :
    u.reachTime (some x) = ({ u with now := x - 1 } : State).tick := by
  have hpass : u.passTime (x - u.now) = (u.passTime (x - 1 - u.now)).tick := by
    obtain ⟨m, hm⟩ : ∃ m, x - u.now = m + 1 := ⟨x - u.now - 1, by omega⟩
    have hm' : x - 1 - u.now = m := by omega
    rw [hm, hm']
    exact Function.iterate_succ_apply' State.tick m u
  show u.passTime (x - u.now) = _
  rw [hpass, State.passTime_idle hq hdue (fun d y hy => by have := hd d y hy; omega) (fun q y hy => by have := hi q y hy; omega)]
  congr 2
  omega

end Passing

/-! ## CLOSE (R80, R148) -/

section Close
variable {s u v : State} {p q : Port} {d : Drive} {o : Operation} {a : Nat}

theorem exec_close (hu : s.Finds u) (p : Port) (a : Nat) : exec (.close p a) s = .next (u.closePort p a).serveClaims := by
  unfold exec execClose
  exact State.perform_finds _ hu

theorem State.addressed_named (hs : (u.port p).state ≠ .disabled) : u.addressed p a = (u.port p).named a := if_neg hs

/-- CLOSE with an address of the port's window, at a port that is connected. -/
theorem State.closePort_connected (hn : (u.port p).named a ≠ none) (hs : (u.port p).state = .connected) : u.closePort p a =
    match (u.port p).conn with
    | some .unit => if (u.port p).answer.isSome then u.modPort p fun r => { r with closing := true } else u.endConnection p
    | some (.drive d) => if (u.opOn d p).isSome then u.stopCommand d p .closed else u.endConnection p
    | none => u := by
  unfold State.closePort
  rw [State.addressed_named (by simp [hs]), if_neg hn, hs]
  cases (u.port p).conn with
  | none => rfl
  | some c => cases c <;> rfl

theorem State.closePort_elsewhere (h : (u.port p).named a = none ∨ (u.port p).state ≠ .connected) : u.closePort p a = u := by
  unfold State.closePort
  split
  next => rfl
  next hn =>
    split
    next hs _ =>
      rcases h with h | h
      · rw [State.addressed_named (by simp [hs])] at hn
        exact absurd h hn
      · exact absurd hs h
    next hs _ =>
      rcases h with h | h
      · rw [State.addressed_named (by simp [hs])] at hn
        exact absurd h hn
      · exact absurd hs h
    next => rfl

theorem afterConnection_dropData (l : List OutFrame) : afterConnection (dropData l) = afterConnection l := by
  induction l with
  | nil => rfl
  | cons f l ih =>
    have hdrop : dropData (f :: l) = if f.isData then dropData l else f :: dropData l := by
      unfold dropData
      rw [List.filter_cons]
      cases f <;> rfl
    rw [hdrop]
    cases f <;> simp [OutFrame.isData, afterConnection, ih]

/-- The end of a connection leaves nothing of the buffer, emptied before or not. -/
theorem State.endConnection_clearsBuffer : (u.modPort p o.clearsBuffer).endConnection p = u.endConnection p := by
  have hport : ∀ r : PortRec, (o.clearsBuffer r).disconnected .idle = r.disconnected .idle := fun r => by
    have hemptied : r.emptied.disconnected .idle = r.disconnected .idle := by
      simp [PortRec.disconnected, PortRec.emptied, afterConnection_dropData]
    unfold Operation.clearsBuffer
    split
    all_goals first | exact hemptied | rfl
  have hmod : (u.modPort p o.clearsBuffer).modPort p (fun r => r.disconnected .idle) = u.modPort p fun r => r.disconnected .idle := by
    rw [State.modPort_modPort]
    simp only [hport]
  unfold State.endConnection State.endConnectionAs
  rw [hmod]

/-- A command that is stopped at once by a CLOSE ends with its connection and its operation. -/
theorem State.stopCommand_closed (ho : u.op d = some o) (hw : o.writing = false) :
    u.stopCommand d p .closed = (u.endConnection p).endOperation d := by
  have hop : (u.modPort p o.clearsBuffer).op d = some o := ho
  rw [State.stopCommand_atOnce ho hw]
  unfold State.finishStopped
  rw [hop]
  dsimp only
  rw [State.endConnection_clearsBuffer]

/-- Outside a field being written a command is stopped at once. -/
theorem Operation.writing_false (h : o.cmd = none ∨ o.cmd = some .driveState ∨ (∃ f, o.cmd = some (.locate f)) ∨
    (∃ c g ph, o.cmd = some (.search c g ph)) ∨ (∃ r, o.cmd = some (.read r)) ∨ (∃ w, o.cmd = some (.write w) ∧ w.begun = false) ∨
    ∃ f, o.cmd = some (.format f) ∧ f.begun = false) : o.writing = false := by
  rcases h with h | h | ⟨f, h⟩ | ⟨c, g, ph, h⟩ | ⟨r, h⟩ | ⟨w, h, hb⟩ | ⟨f, h, hb⟩
  · simp [Operation.writing, h]
  · simp [Operation.writing, h]
  · simp [Operation.writing, h]
  · simp [Operation.writing, h]
  · simp [Operation.writing, h]
  · simp [Operation.writing, h, hb]
  · simp [Operation.writing, h, hb]

theorem exec_unitIdleTimerExpiry (hu : s.Finds u) (p : Port) : exec (.unitIdleTimerExpiry p) s =
    .next ((u.reachTime (u.port p).idleTimer).unitIdleExpire p).serveClaims := by
  unfold exec execUnitIdleTimerExpiry
  exact State.perform_finds _ hu

end Close

/-- Settles O49: a connection with the unit, with a drive, none, and the timer that ends one. -/
theorem connectionsAreClosed : Obligations.ConnectionsAreClosed := by
  unfold Obligations.ConnectionsAreClosed
  intro s u p a hu
  rw [exec_close hu, exec_unitIdleTimerExpiry hu]
  refine ⟨fun hn hs => ⟨fun hc ha => ?_, fun hc ha => ?_, fun d o hc ho hoc => ⟨fun hcmd => ?_, fun w hw hb hst => ?_,
    fun f hf hb hst => ?_⟩, fun d hc ho => ?_⟩, fun h => ?_, fun e he => ⟨fun hle => ?_, fun hlt hq hdue hd hi => ?_⟩, fun he => ?_⟩
  · rw [State.closePort_connected hn hs, hc]
    dsimp only
    rw [ha]
    rfl
  · rw [State.closePort_connected hn hs, hc]
    dsimp only
    rw [if_pos ha]
  · rw [State.closePort_connected hn hs, hc]
    dsimp only
    rw [State.opOn_some ho hoc, Option.isSome_some, if_pos rfl, State.stopCommand_closed ho (Operation.writing_false hcmd)]
  · rw [State.closePort_connected hn hs, hc]
    dsimp only
    rw [State.opOn_some ho hoc, Option.isSome_some, if_pos rfl, State.stopCommand_write ho hw hb hst]
    rfl
  · rw [State.closePort_connected hn hs, hc]
    dsimp only
    rw [State.opOn_some ho hoc, Option.isSome_some, if_pos rfl, State.stopCommand_format ho hf hb hst]
  · rw [State.closePort_connected hn hs, hc]
    dsimp only
    rw [State.opOn_none ho]
    rfl
  · rw [State.closePort_elsewhere h]
  · have hreach : u.reachTime (some e) = u := by
      show u.passTime (e - u.now) = u
      rw [Nat.sub_eq_zero_of_le hle]
      rfl
    rw [he, hreach, State.unitIdleExpire_due he hle]
  · intro v hv
    have hreach : u.reachTime (some e) = v := by
      rw [State.reachTime_idle hlt hq hdue (fun d y hy => (hd d y hy).le) fun q y hy => ?_]
      · have hnow : ({ ({ u with now := e - 1 } : State) with now := ({ u with now := e - 1 } : State).now + 1 } : State) =
            { u with now := e } := by
          simp only
          congr 1
          omega
        have hat : ({ u with now := e } : State).unitIdleExpire p = v := State.unitIdleExpire_due he (le_refl _)
        rw [State.tick_eq (State.settle_none (u := { u with now := e - 1 }) hdue), hnow,
          forDrives_fixed (s := { u with now := e }) fun d => State.deadlineExpire_early (hd d),
          forPorts_single (s := { u with now := e }) p
            (fun q hq => State.unitIdleExpire_early (s := { u with now := e }) fun y hy => hi q y hq hy) (fun q hq => State.unitIdleExpire_early fun y hy => ?_), hat]
        · exact hv.serveClaims
        · rw [hat, State.endConnection_port_ne _ hq] at hy
          rw [hat, State.endConnection_now]
          exact hi q y hq hy
      · by_cases hqp : q = p
        · subst hqp
          rw [he] at hy
          cases hy
          exact le_refl _
        · exact (hi q y hqp hy).le
    have hgone : (v.port p).idleTimer = none := by
      rw [State.endConnection_port_same]
      rfl
    rw [he, hreach, State.unitIdleExpire_early (by rw [hgone]; nofun), hv.serveClaims]
  · have hearly : u.unitIdleExpire p = u := State.unitIdleExpire_early (by rw [he]; nofun)
    rw [he]
    exact congrArg (fun w : State => Host.Outcome.next w.serveClaims) hearly

end Sys2Proof.Machine
end

section
/-! SUPPORT. HALT (5.10). -/

namespace Sys2Proof.Machine

open Sys2Proof

section Halt
variable {s u v : State} {p q : Port} {d e : Drive} {o : Operation} {a n : Nat}

-- The proofs before this one end before those after it begin: they have to compile within the check's memory.
set_option Elab.async false in
theorem exec_halt (hu : s.Finds u) (p : Port) (a : Nat) : exec (.halt p a) s = .next (u.haltPort p a).serveClaims := by
  unfold exec execHalt
  exact State.perform_finds _ hu

theorem Operation.reaches_iff {g : Nat} : o.reaches p g = true ↔ o.issuer = p ∨ (g ≠ 0 ∧ g = o.group) := by
  simp [Operation.reaches]

/-! ### Which of its parts a HALT comes to -/

theorem State.haltPort_connected (ha : u.addressed p a = some (.drive d)) (hs : (u.port p).state = .connected)
    (hc : (u.port p).conn = some (.drive d)) : u.haltPort p a = u.haltConnected d p := by
  simp [State.haltPort, ha, hs, hc]

theorem State.haltPort_operation (ha : u.addressed p a = some (.drive d)) (hs : (u.port p).state = .connected)
    (hc : (u.port p).conn = some (.drive d)) (ho : u.op d = some o) (hoc : o.conn = some p) :
    u.haltPort p a = u.stopCommand d p .halted := by
  rw [State.haltPort_connected ha hs hc, State.haltConnected, State.opOn_some ho hoc]
  rfl

/-- HALT for a drive that the port is not connected with, or is being set aside from (R99, log 18). -/
theorem State.haltPort_elsewhere (ha : u.addressed p a = some (.drive d)) (hs : (u.port p).state ≠ .resetting)
    (h : (u.port p).state ≠ .connected ∨ (u.port p).conn ≠ some (.drive d) ∨
      (u.port p).draining = true ∧ ∀ o, u.op d = some o → o.conn ≠ some p) : u.haltPort p a = u.haltElsewhere d p := by
  by_cases hcon : (u.port p).state = .connected ∧ (u.port p).conn = some (.drive d)
  · obtain ⟨hst, hc⟩ := hcon
    rcases h with h | h | ⟨hdr, hop⟩
    · exact absurd hst h
    · exact absurd hc h
    · rw [State.haltPort_connected ha hst hc, State.haltConnected, State.opOn_none hop, hdr]
      rfl
  · unfold State.haltPort
    rw [if_neg hs, ha]
    exact if_neg hcon

theorem State.haltPort_unit (ha : u.addressed p a = some .unit) (hs : (u.port p).state ≠ .resetting) :
    u.haltPort p a = u.haltUnit p := by
  unfold State.haltPort
  rw [if_neg hs, ha]

/-! ### The command stopped in a connection -/

/-- What HALT produces where the command is stopped at once (R98). -/
def State.haltedWith (v : State) (d : Drive) (p : Port) (n : Nat) : State :=
  ((v.modPort p fun r => { r with answer := none, held := [], requests := [] }).sendStatus p (.drive d)
    { done := true, halted := true, disconnect := true, residual := n } true).endOperation d

theorem State.finishStopped_haltedWith (ho : v.op d = some o) : v.finishStopped d p .halted n = v.haltedWith d p n := by
  unfold State.finishStopped
  rw [ho]
  rfl

/-- The frames of the buffer go before the rest of it: one step or two. -/
theorem State.haltedWith_emptied :
    (u.modPort p PortRec.emptied).haltedWith d p n = (u.modPort p fun x => { x with link := dropData x.link }).haltedWith d p n := by
  unfold State.haltedWith
  rw [State.modPort_modPort, State.modPort_modPort]
  rfl

/-- A command without bytes in the buffer. -/
theorem State.stopCommand_halted_plain (ho : u.op d = some o) (hcmd : o.cmd = none ∨ (∃ f, o.cmd = some (.locate f)) ∨
      (∃ c g ph, o.cmd = some (.search c g ph)) ∨ (∃ f, o.cmd = some (.format f) ∧ f.begun = false)) :
    u.stopCommand d p .halted = u.haltedWith d p 0 := by
  have hw : o.writing = false := Operation.writing_false (by rcases hcmd with h | h | h | h <;> simp [h])
  have hres : o.stopResidual = 0 := Operation.stopResidual_none
    (by rcases hcmd with h | ⟨_, h⟩ | ⟨_, _, _, h⟩ | ⟨_, h, _⟩ <;> simp [h])
  have hkeeps : u.modPort p o.clearsBuffer = u := State.clearsBuffer_keeps
    (by rcases hcmd with h | h | h | ⟨f, h, _⟩ <;> simp [h])
  rw [State.stopCommand_atOnce ho hw, hkeeps, State.finishStopped_haltedWith ho, hres]

/-- A command with frames in the buffer. -/
theorem State.stopCommand_halted_buffered (ho : u.op d = some o) (hcmd : o.cmd = some .driveState ∨ (∃ r, o.cmd = some (.read r)) ∨
      ∃ w, o.cmd = some (.write w) ∧ w.begun = false) :
    u.stopCommand d p .halted = (u.modPort p fun x => { x with link := dropData x.link }).haltedWith d p o.stopResidual := by
  have hw : o.writing = false := Operation.writing_false (by rcases hcmd with h | h | h <;> simp [h])
  have hempties : u.modPort p o.clearsBuffer = u.modPort p PortRec.emptied := State.clearsBuffer_empties
    (by rcases hcmd with h | h | ⟨w, h, _⟩ <;> simp [h])
  have hop : (u.modPort p PortRec.emptied).op d = some o := ho
  rw [State.stopCommand_atOnce ho hw, hempties, State.finishStopped_haltedWith hop, State.haltedWith_emptied]

/-- A connection without an operation (log 28). -/
theorem State.haltConnected_bare (ho : ∀ o, u.op d = some o → o.conn ≠ some p) (hd : (u.port p).draining = false) :
    u.haltConnected d p = if (u.port p).ending then u
      else (u.modPort p fun r => { r.emptied with awaiting := false }).reply p d (Status.haltedWith 0) := by
  unfold State.haltConnected
  rw [State.opOn_none ho, hd]
  rfl

/-! ### An operation that is aborted (R99, R133) -/

theorem State.haltElsewhere_ignores (h : ∀ o, u.op d = some o →
    ¬ (o.conn = none ∧ o.alt = none ∧ (o.issuer = p ∨ ((u.port p).group ≠ 0 ∧ (u.port p).group = o.group)))) :
    u.haltElsewhere d p = u := by
  unfold State.haltElsewhere
  split
  next o ho => exact if_neg (by rw [Operation.reaches_iff]; exact h o ho)
  next => rfl

theorem State.haltElsewhere_aborts (ho : u.op d = some o) (hc : o.conn = none) (ha : o.alt = none)
    (hr : o.issuer = p ∨ ((u.port p).group ≠ 0 ∧ (u.port p).group = o.group)) : u.haltElsewhere d p = u.abort d := by
  unfold State.haltElsewhere
  rw [ho]
  exact if_pos ⟨hc, ha, Operation.reaches_iff.mpr hr⟩

theorem State.abort_op (ho : u.op d = some o) (e : Drive) : (u.abort d).op e = if d = e then none else u.op e := by
  unfold State.abort
  rw [State.answerWaiting_op, State.owedTest_op, State.abortQuietly_op ho]

theorem State.abort_share_ne (ho : u.op d = some o) (he : e ≠ d) : (u.abort d).share e = u.share e := by
  unfold State.abort
  rw [State.answerWaiting_share, State.owedTest_share_ne _ he, State.abortQuietly_share ho]

theorem State.abort_hold (ho : u.op d = some o) : ((u.abort d).share d).hold = (u.share d).hold := by
  unfold State.abort
  rw [State.answerWaiting_share, State.owedTest_hold, State.abortQuietly_share ho]

theorem State.abort_owner (ho : u.op d = some o) : ((u.abort d).share d).owner = (u.share d).owner := by
  unfold State.abort
  rw [State.answerWaiting_share, State.owedTest_owner, State.abortQuietly_share ho]

theorem State.abort_plain (ho : u.op d = some o) (ha : o.alt = none) :
    u.abort d = (((u.releaseOp d).setOp d none).owedTest d).answerWaiting d := by
  unfold State.abort State.abortQuietly
  rw [ho]
  simp only [ha]
  rfl

/-- The last alternate result, the map and the motion after the abort of a drive command's operation. -/
theorem State.abort_plain_keeps (ho : u.op d = some o) (ha : o.alt = none) : (u.abort d).lastAlt = u.lastAlt ∧
    (u.abort d).spareMap = u.spareMap ∧ ((u.abort d).pos d).actuator = (u.pos d).actuator ∧
    ((u.abort d).pos d).owned = false := by
  rw [State.abort_plain ho ha]
  simp [State.releaseOp, State.modPos_pos_same]

/-- A withdrawal reads the offers as it finds them all. -/
theorem State.withdrawOffersOf_found (u : State) (d : Drive) : u.withdrawOffersOf d = allPorts.foldl (fun w q =>
    if (u.port q).offer.map Prod.fst = some (.reconnect d) ∨ (u.port q).offer.map Prod.fst = some (.status d)
    then (w.dropOffer q).freePathOfPort q else w) u := by
  rw [State.withdrawOffersOf_eq]
  refine foldl_agree (P := fun q w => w.port q = u.port q) (by decide) (fun w x y hxy hx hy => ?_) (fun w x hx => ?_) u
    fun _ _ => rfl
  · unfold State.withdrawAt
    split
    next =>
      simp only [State.dropOffer, State.freePathOfPort_port]
      exact (State.modPort_port_ne _ _ _ _ hxy).trans hy
    next => exact hy
  · unfold State.withdrawAt
    rw [hx]
    simp only [PortRec.offersFor_iff]

theorem State.withdrawOffersOf_awaiting : ((u.withdrawOffersOf d).port q).awaiting = (u.port q).awaiting := by
  rw [State.withdrawOffersOf_eq]
  refine foldl_keeps (fun s : State => (s.port q).awaiting) _ (fun s x => ?_) _ u
  unfold State.withdrawAt
  split
  next =>
    rw [State.freePathOfPort_port, State.dropOffer]
    by_cases hx : x = q
    · rw [hx, State.modPort_port_same]
      rfl
    · rw [State.modPort_port_ne _ _ _ _ hx]
  next => rfl

theorem State.abort_nobody (ho : u.op d = some o) (hw : ∀ q, (u.port q).awaiting = false) :
    u.abort d = (u.abortQuietly d).owedTest d := by
  refine State.answerWaiting_nobody fun q => ?_
  obtain ⟨b, hb⟩ := State.owedTest_port (u.abortQuietly d) d q
  rw [hb]
  show ((u.abortQuietly d).port q).awaiting = false
  rw [State.abortQuietly_port ho, State.withdrawOffersOf_awaiting, hw q]

theorem State.abortQuietly_plain (ho : u.op d = some o) (ha : o.alt = none) : u.abortQuietly d = (u.releaseOp d).setOp d none := by
  unfold State.abortQuietly
  rw [ho]
  simp only [ha]
  rfl

/-- HALT with the unit address at one drive (R133). -/
def State.haltAt (p : Port) (s : State) (d : Drive) : State :=
  match s.op d with
  | some o => if o.alt.isSome = true ∧ o.issuer = p ∧ o.abortable = true then s.abort d else s
  | none => s

theorem State.haltUnit_eq : u.haltUnit p = u.forDrives (State.haltAt p) := rfl

/-- The operation of a drive is one that a HALT with the unit address aborts. -/
def State.haltsAt (u : State) (p : Port) (d : Drive) : Prop :=
  ∃ o x, u.op d = some o ∧ o.alt = some x ∧ o.issuer = p ∧ x.writePassed = false

theorem State.haltAt_not (h : ¬ v.haltsAt p d) : v.haltAt p d = v := by
  unfold State.haltAt
  split
  next o ho =>
    refine if_neg fun ⟨hs, hi, hb⟩ => ?_
    obtain ⟨x, hx⟩ := Option.isSome_iff_exists.mp hs
    exact h ⟨o, x, ho, hx, hi, Operation.abortable_iff.mp hb x hx⟩
  next => rfl

/-- The alternate operations that a HALT with the unit address aborts. -/
theorem State.haltUnit_none (h : ∀ d, ¬ u.haltsAt p d) : u.haltUnit p = u := forDrives_fixed fun d => State.haltAt_not (h d)

theorem State.haltUnit_one {x : AltOp} (ho : u.op d = some o) (hx : o.alt = some x) (hi : o.issuer = p) (hw : x.writePassed = false)
    (h : ∀ e, e ≠ d → ¬ u.haltsAt p e) : u.haltUnit p = u.abort d := by
  have hhere : u.haltAt p d = u.abort d := by
    have hb : o.abortable = true := Operation.abortable_iff.mpr fun y hy => by
      rw [hx] at hy
      cases hy
      exact hw
    have ha : o.alt.isSome = true := by rw [hx]; rfl
    unfold State.haltAt
    rw [ho]
    exact if_pos ⟨ha, hi, hb⟩
  have hlater : ∀ e, e ≠ d → (u.abort d).haltAt p e = u.abort d := fun e he => by
    refine State.haltAt_not fun ⟨o', x', ho', hrest⟩ => h e he ⟨o', x', ?_, hrest⟩
    rwa [State.abort_op ho, if_neg he.symm] at ho'
  rw [State.haltUnit_eq, forDrives_single d (fun e he => State.haltAt_not (h e he)) fun e he => by rw [hhere]; exact hlater e he]
  exact hhere

/-- The result of an alternate operation that is aborted, with no offer of it standing. -/
theorem State.abortQuietly_alternate {x : AltOp} (ho : u.op d = some o) (hx : o.alt = some x)
    (hoff : ∀ q, (u.port q).offersFor d = false) : u.abortQuietly d =
      ({ (u.freeInternalPath d).modPos d (fun q => { q with owned := false }) with
        lastAlt := some (u.altResult d o x .aborted) } : State).setOp d none := by
  have hrel : u.releaseOp d = (u.freeInternalPath d).modPos d fun q => { q with owned := false } := by
    rw [State.releaseOp, State.withdrawOffersOf_none hoff]
  unfold State.abortQuietly
  rw [ho]
  dsimp only
  rw [hx, hrel]
  rfl

end Halt

/-- Settles O50: the command in a connection, a connection without an operation, another operation, and the unit address. -/
theorem haltStops : Obligations.HaltStops := by
  unfold Obligations.HaltStops
  refine ⟨fun s u p a d hu ha => ?_, fun s u p a hu ha hs => ?_⟩
  · dsimp only
    rw [exec_halt hu]
    refine ⟨fun o hs hc ho hoc => ?_, fun hs hc ho hd => ?_, fun hs h => ⟨fun hn => ?_, fun o ho => ⟨fun hi => ?_, fun hoc hal hr => ?_⟩⟩⟩
    · rw [State.haltPort_operation ha hs hc ho hoc]
      refine ⟨fun hcmd => ?_, fun r hr => ?_, fun hcmd => ?_, fun w hw hb => ?_, fun w hw hb => ⟨fun hst => ?_, fun hst => ?_⟩,
        fun f hf hb => ⟨fun hst => ?_, fun hst => ?_⟩⟩
      · rw [State.stopCommand_halted_plain ho hcmd]
        rfl
      · have hres : o.stopResidual = o.byteCount - max o.accounted r.sentTo := by
          simp only [Operation.stopResidual, hr]
          rfl
        rw [State.stopCommand_halted_buffered ho (.inr (.inl ⟨r, hr⟩)), hres]
        rfl
      · have hres : o.stopResidual = 0 := Operation.stopResidual_none (by simp [hcmd])
        rw [State.stopCommand_halted_buffered ho (.inl hcmd), hres]
        rfl
      · have hres : o.stopResidual = o.byteCount - w.bytes.length := by
          simp only [Operation.stopResidual, hw]
          rfl
        rw [State.stopCommand_halted_buffered ho (.inr (.inr ⟨w, hw, hb⟩)), hres]
        rfl
      · rw [State.stopCommand_write ho hw hb hst]
        rfl
      · rw [State.stopCommand_again ho (.inl ⟨w, hw, hb, hst⟩)]
      · rw [State.stopCommand_format ho hf hb hst]
      · rw [State.stopCommand_again ho (.inr ⟨f, hf, hb, hst⟩)]
    · rw [State.haltPort_connected ha hs hc, State.haltConnected_bare ho hd]
      refine ⟨fun he => ?_, fun he => if_pos he ▸ rfl⟩
      have hmod : ((u.modPort p fun r => { r with link := dropData r.link, held := [], requests := [], answer := none }).modPort p
          fun r => { r with awaiting := false }) = u.modPort p fun r => { r.emptied with awaiting := false } :=
        State.modPort_modPort _ _ _ _
      have hne : ((u.modPort p fun r => { r.emptied with awaiting := false }).port p).ending = false := by
        rw [State.modPort_port_same]
        exact dropData_notEnding he
      have hlast : (!((u.modPort p fun r => { r.emptied with awaiting := false }).port p).ending) = true := by rw [hne]; rfl
      rw [he, hmod, State.reply, hlast]
      rfl
    · rw [State.haltPort_elsewhere ha hs h, State.haltElsewhere_ignores (by simp [hn])]
    · rw [State.haltPort_elsewhere ha hs h, State.haltElsewhere_ignores fun o' ho' => by
        rw [ho] at ho'
        cases ho'
        tauto]
    · have hhalt : u.haltPort p a = u.abort d := by
        rw [State.haltPort_elsewhere ha hs h, State.haltElsewhere_aborts ho hoc hal hr]
      obtain ⟨hlast, hmap, hact, howned⟩ := State.abort_plain_keeps ho hal
      rw [hhalt]
      refine ⟨⟨_, rfl, (State.abort_op ho d).trans (if_pos rfl), fun e he => ⟨(State.abort_op ho e).trans (if_neg he.symm),
        State.abort_share_ne ho he⟩, State.abort_hold ho, State.abort_owner ho, hlast, hmap, hact, howned⟩, fun hw => ?_⟩
      rw [State.abort_nobody ho hw, State.abortQuietly_plain ho hal, State.releaseOp, State.withdrawOffersOf_found]
  · dsimp only
    rw [exec_halt hu, State.haltPort_unit ha hs]
    refine ⟨fun h => by rw [State.haltUnit_none fun d ⟨o, x, hx⟩ => h d o x hx], fun d o x ⟨ho, hx, hi, hwp⟩ hothers hw hoff => ?_⟩
    have hnone : ∀ q, (u.port q).offersFor d = false := fun q => by
      rw [← Bool.not_eq_true, PortRec.offersFor_iff]
      exact fun h => h.elim (hoff q).1 (hoff q).2
    rw [State.haltUnit_one ho hx hi hwp fun e he ⟨o', x', hx'⟩ => hothers e o' x' he hx', State.abort_nobody ho hw,
      State.abortQuietly_alternate ho hx hnone]
    rfl

end Sys2Proof.Machine
end

section
/-! SUPPORT. Outbound frames that leave (8.3, 8.7). -/

namespace Sys2Proof.Machine

open Sys2Proof

section Frames
variable {s u : State} {p : Port} {d : Drive} {o : Operation} {a n off : Nat} {bs : List Byte} {x : Answer}
  {rest : List OutFrame} {f : OutFrame} {c : Option Cmd}

-- The proofs before this one end before those after it begin: they have to compile within the check's memory.
set_option Elab.async false in
theorem exec_outboundFrameLeft (hu : s.Finds u) (p : Port) : exec (.outboundFrameLeft p) s = .next (u.frameLeft p).serveClaims := by
  unfold exec execOutboundFrameLeft
  exact State.perform_finds _ hu

theorem State.frameLeft_nothing (hl : (u.port p).link = []) : u.frameLeft p = u := by
  unfold State.frameLeft
  rw [hl]

theorem State.frameLeft_status {st : Status} {ends : Bool} (hl : (u.port p).link = .status a st ends :: rest) :
    u.frameLeft p = if ends then (u.modPort p fun r => { r with link := rest }).endConnection p
      else u.modPort p fun r => { r with link := rest } := by
  unfold State.frameLeft
  rw [hl]

theorem State.frameLeft_request (hl : (u.port p).link = .request a off n :: rest) :
    u.frameLeft p = u.modPort p fun r => { r with link := rest } := by
  unfold State.frameLeft
  rw [hl]

theorem State.frameLeft_offer {x : Offer} {b : Bool} (hl : (u.port p).link = .offer a x :: rest)
    (ho : (u.port p).offer = some (x, b)) : u.frameLeft p =
      (u.modPort p fun r => { r with link := rest }).modPort p fun r => { r with offer := some (x, true) } := by
  have hleft : u.frameLeft p = (u.modPort p fun r => { r with link := rest }).modPort p fun r =>
      { r with offer := r.offer.map fun y => (y.1, true) } := by
    unfold State.frameLeft
    rw [hl]
  have hoffer : ((u.modPort p fun r => { r with link := rest }).port p).offer = some (x, b) := by
    rw [State.modPort_port_same]
    exact ho
  rw [hleft]
  exact State.modPort_congr (by rw [hoffer]; rfl)

/-! ### The bytes that count as sent (R90) -/

theorem Operation.noteSent_read {r : ReadCmd} (h : o.cmd = some (.read r)) (n : Nat) :
    o.noteSent n = { o with cmd := some (.read { r with sentTo := max r.sentTo n }) } := by
  unfold Operation.noteSent
  rw [h]

theorem Operation.noteSent_shape (o : Operation) (n : Nat) : ∃ c, o.noteSent n = { o with cmd := c } := by
  unfold Operation.noteSent
  split <;> exact ⟨_, rfl⟩

theorem State.countsSent_at (ho : u.op d = some o) : u.countsSent d p = true ↔
    o.conn = some p ∨ (u.port p).draining = true ∧ o.leaving.has p = true := by
  rw [State.countsSent_iff, ho]
  simp

theorem State.countSent_own (hc : (u.port p).conn = some (.drive d)) (ho : u.op d = some o)
    (h : o.conn = some p ∨ (u.port p).draining = true ∧ o.leaving.has p = true) (n : Nat) :
    u.countSent p n = u.setOp d (some (o.noteSent n)) := by
  unfold State.countSent
  rw [PortRec.drive_some.mpr hc]
  dsimp only
  rw [if_pos ((State.countsSent_at ho).mpr h), State.modOp_some _ _ _ ho]

/-- Bytes that leave for no READ of the port's own count for none. -/
theorem State.countSent_nobody (h : ∀ d o, (u.port p).conn = some (.drive d) → u.op d = some o →
      o.conn ≠ some p ∧ ((u.port p).draining = true → o.leaving.has p = true → ∀ r, o.cmd ≠ some (.read r))) (n : Nat) :
    u.countSent p n = u := by
  unfold State.countSent
  split
  next d hd =>
    have hconn := PortRec.drive_some.mp hd
    split
    next hcounts =>
      cases ho : u.op d with
      | none => exact State.modOp_none _ _ _ ho
      | some o =>
        obtain ⟨hno, hread⟩ := h d o hconn ho
        obtain ⟨hdr, hlv⟩ := ((State.countsSent_at ho).mp hcounts).resolve_left hno
        rw [State.modOp_some _ _ _ ho, Operation.noteSent_other (hread hdr hlv)]
        exact State.setOp_self _ _ ho
    next => rfl
  next => rfl

/-! ### What the last frame brings about (R145) -/

theorem State.dataLeft_counts (h : (u.port p).slots ≠ 0 ∨ (u.port p).answer = none ∧ (u.port p).draining = false) (n : Nat) :
    u.dataLeft p n = u.countSent p n := by
  rw [State.dataLeft_eq]
  by_cases hs : (u.port p).slots = 0
  · obtain ⟨ha, hd⟩ := h.resolve_left (not_not.mpr hs)
    rw [if_neg (not_not.mpr hs), hd, ha]
    rfl
  · exact if_pos hs

theorem State.dataLeft_drains (hs : (u.port p).slots = 0) (hd : (u.port p).draining = true) (n : Nat) :
    u.dataLeft p n = (u.countSent p n).endConnection p := by
  rw [State.dataLeft_eq, if_neg (not_not.mpr hs), hd]
  rfl

theorem State.dataLeft_says (hs : (u.port p).slots = 0) (hd : (u.port p).draining = false) (ha : (u.port p).answer = some x)
    (n : Nat) : u.dataLeft p n = (u.countSent p n).produce p x := by
  rw [State.dataLeft_eq, if_neg (not_not.mpr hs), hd, ha]
  rfl

theorem State.produce_fault {k : FaultKind} (hc : (u.port p).conn = some (.drive d)) (ho : u.op d = some o) (hoc : o.conn = some p)
    (hr : x.status.reason = .fault k) : u.produce p x = (u.modPort p fun r => { r with answer := none }).faultInConnection d p o k
      x.status.detail x.status.residual x.found := by
  unfold State.produce
  rw [hc]
  dsimp only
  rw [State.modPort_op, ho]
  dsimp only
  rw [if_pos hoc, hr]

/-- In a drive connection without an operation of its own (R146). -/
theorem State.produce_bare (hc : (u.port p).conn = some (.drive d)) (ho : ∀ o, u.op d = some o → o.conn ≠ some p) :
    u.produce p x = (u.modPort p fun r => { r with answer := none }).reply p d x.status := by
  unfold State.produce
  rw [hc]
  dsimp only
  rw [State.modPort_op]
  split
  next o hop => exact if_neg (ho o hop)
  next => rfl

theorem State.produce_unit (hc : (u.port p).conn = some .unit) :
    u.produce p x = (u.modPort p fun r => { r with answer := none }).unitStatus p x.status := by
  unfold State.produce
  rw [hc]

theorem State.discardOp_setOp : (u.setOp d (some o)).discardOp d = u.discardOp d := State.setOp_setOp _ _ _ _

/-- The end of an operation by a FAULT does not depend on the command it had in progress. -/
theorem State.faultInConnection_cmd (k : FaultKind) (det : Detail) (res : Nat) (found : Option Condition) :
    (u.setOp d (some { o with cmd := c })).faultInConnection d p { o with cmd := c } k det res found =
      u.faultInConnection d p o k det res found := by
  rw [State.faultInConnection_eq, State.faultInConnection_eq, ← State.modPort_setOp]
  dsimp only
  unfold State.endOperation State.endOperationWithHold
  rw [State.discardOp_setOp]
  rfl

/-- The DONE of a command does not depend on what it had counted before. -/
theorem State.produce_done_cmd (hc : (u.port p).conn = some (.drive d)) (hoc : o.conn = some p) (hr : x.status.reason = .none) :
    (u.setOp d (some { o with cmd := c })).produce p x =
      ((u.modPort p fun r => { r with answer := none }).sendStatus p (.drive d) x.status false).setOp d
        (some { o with cmd := none, idle := 0, searchIndex := if x.resets then 0 else o.searchIndex }) :=
  (State.produce_done (s := u.setOp d (some { o with cmd := c })) (o := { o with cmd := c }) hc (State.setOp_op_same _ _ _) hoc hr).trans (State.setOp_setOp
    ((u.modPort p fun r => { r with answer := none }).sendStatus p (.drive d) x.status false) d _ _)

/-- The reply's STATUS in a drive connection, as a change of the port's record. -/
theorem State.reply_eq (st : Status) : u.reply p d st = u.modPort p fun r => { r with
    link := r.link ++ [.status (r.addressOf (.drive d)) st.disc ((u.port p).link.all fun y => !y.isEnding)] } := by
  rw [State.reply, PortRec.not_ending]
  rfl

end Frames

/-- Settles O53: by the frame that leaves, and for DATA by whose it is and by what waits for the last. -/
theorem outboundFramesLeave : Obligations.OutboundFramesLeave := by
  unfold Obligations.OutboundFramesLeave
  intro s u p hu
  rw [exec_outboundFrameLeft hu]
  refine ⟨fun hl => by rw [State.frameLeft_nothing hl], fun f rest hl => ?_⟩
  intro gone said
  have hgone : gone.port p = { u.port p with link := rest } := State.modPort_port_same _ _ _
  refine ⟨fun a st hf => ?_, fun a st hf => ?_, fun a o n hf => ?_, fun a o b hf ho => ?_, fun a off bs hf => ?_⟩
  · rw [State.frameLeft_status (hf ▸ hl), if_neg Bool.false_ne_true]
  · rw [State.frameLeft_status (hf ▸ hl), if_pos rfl]
  · rw [State.frameLeft_request (hf ▸ hl)]
  · rw [State.frameLeft_offer (hf ▸ hl) ho]
  · have hleft : u.frameLeft p = gone.dataLeft p (off + bs.length) := State.frameLeft_data (hf ▸ hl)
    have hconn : (gone.port p).conn = (u.port p).conn := by rw [hgone]
    have hdrain : (gone.port p).draining = (u.port p).draining := by rw [hgone]
    have hansw : (gone.port p).answer = (u.port p).answer := by rw [hgone]
    have hop : ∀ e, gone.op e = u.op e := fun _ => rfl
    rw [hleft]
    refine ⟨fun d o hc ho hoc => ⟨fun hs => ?_, fun hs hd x hx => ⟨fun hr => ?_, fun k hr => ?_⟩⟩,
      fun d o r hc ho hoc hd hlv hr => ⟨fun hs => ?_, fun hs => ?_⟩, fun h => ?_⟩
    · have hcount := State.countSent_own (hconn.trans hc) ((hop d).trans ho) (.inl hoc) (off + bs.length)
      rw [State.dataLeft_counts (by rw [hansw, hdrain]; exact hs), hcount]
      refine ⟨fun r hr => by rw [Operation.noteSent_read hr], fun hr => ?_⟩
      rw [Operation.noteSent_other hr, State.setOp_self _ _ ((hop d).trans ho)]
    · obtain ⟨c, hcmd⟩ := Operation.noteSent_shape o (off + bs.length)
      rw [State.dataLeft_says hs (hdrain.trans hd) (hansw.trans hx),
        State.countSent_own (hconn.trans hc) ((hop d).trans ho) (.inl hoc), hcmd, State.produce_done_cmd (hconn.trans hc) hoc hr]
      rfl
    · obtain ⟨c, hcmd⟩ := Operation.noteSent_shape o (off + bs.length)
      rw [State.dataLeft_says hs (hdrain.trans hd) (hansw.trans hx),
        State.countSent_own (hconn.trans hc) ((hop d).trans ho) (.inl hoc), hcmd,
        State.produce_fault (u := gone.setOp d (some { o with cmd := c })) (o := { o with cmd := c }) (hconn.trans hc) (State.setOp_op_same _ _ _) hoc hr, ← State.modPort_setOp,
        State.faultInConnection_cmd]
    · have hcount := State.countSent_own (hconn.trans hc) ((hop d).trans ho) (.inr ⟨hdrain.trans hd, hlv⟩) (off + bs.length)
      rw [State.dataLeft_counts (.inl hs), hcount, Operation.noteSent_read hr]
    · have hcount := State.countSent_own (hconn.trans hc) ((hop d).trans ho) (.inr ⟨hdrain.trans hd, hlv⟩) (off + bs.length)
      rw [State.dataLeft_drains hs (hdrain.trans hd), hcount, Operation.noteSent_read hr]
    · have hcount : gone.countSent p (off + bs.length) = gone := State.countSent_nobody
        (fun d o hc ho => by rw [hdrain]; exact h d o (hconn.symm.trans hc) ho) _
      refine ⟨fun hs => ?_, fun hs hd => ?_, fun hs hd => ⟨fun hn => ?_, fun x hx => ⟨fun d hc => ?_, fun hc => ?_⟩⟩⟩
      · rw [State.dataLeft_counts (.inl hs), hcount]
      · rw [State.dataLeft_drains hs (hdrain.trans hd), hcount]
      · rw [State.dataLeft_counts (.inr ⟨hansw.trans hn, hdrain.trans hd⟩), hcount]
      · have hlink : (said.port p).link = rest := by rw [State.modPort_port_same, hgone]
        rw [State.dataLeft_says hs (hdrain.trans hd) (hansw.trans hx), hcount,
          State.produce_bare (hconn.trans hc) fun o ho => (h d o hc ho).1]
        show Host.Outcome.next (said.reply p d x.status).serveClaims = _
        rw [State.reply_eq, hlink]
        rfl
      · rw [State.dataLeft_says hs (hdrain.trans hd) (hansw.trans hx), hcount, State.produce_unit (hconn.trans hc)]

end Sys2Proof.Machine
end

section
/-! SUPPORT. TAKE and DEFER (8.6). -/

namespace Sys2Proof.Machine

open Sys2Proof

section Offers
variable {s u : State} {p : Port} {d : Drive} {o : Operation} {a n : Nat} {x : Offer} {w : WriteCmd} {b : Bool}

-- The proofs before this one end before those after it begin: they have to compile within the check's memory.
set_option Elab.async false in
theorem exec_take (hu : s.Finds u) (p : Port) (a : Nat) : exec (.take p a) s = .next (u.takeOffer p a).serveClaims := by
  unfold exec execTake
  exact State.perform_finds _ hu

theorem exec_defer (hu : s.Finds u) (p : Port) (a : Nat) : exec (.defer p a) s =
    .next (if (u.answered p a).isSome then u.deferOffer p else u).serveClaims := by
  unfold exec execDefer
  exact State.perform_finds _ hu

/-- A TAKE or DEFER that answers no offer is discarded (R150). -/
theorem exec_unanswered (hu : s.Finds u) (h : u.answered p a = none) {i : Instr} (hi : i = .take p a ∨ i = .defer p a) :
    exec i s = .next u.serveClaims := by
  rcases hi with hi | hi
  · rw [hi, exec_take hu, State.takeOffer, h]
  · rw [hi, exec_defer hu, h]
    rfl

theorem State.answered_not (h : (u.port p).state ≠ .offering ∨ (u.port p).sent = false) : u.answered p a = none := by
  unfold State.answered
  split
  next hs ho =>
    rcases h with h | h
    · exact absurd hs h
    · simp [PortRec.sent, ho] at h
  next => rfl

/-- The address of a TAKE or DEFER is not the offer's. -/
theorem State.answered_other (ho : (u.port p).offer = some (x, b)) (h : (u.port p).named a ≠ some (u.offerConn x)) :
    u.answered p a = none := by
  unfold State.answered
  split
  next y hs hy =>
    rw [ho] at hy
    cases hy
    exact if_neg (by rwa [State.addressed_named (by simp [hs])])
  next => rfl

theorem State.answered_addressed (hs : (u.port p).state = .offering) (ho : (u.port p).offer = some (x, true))
    (h : (u.port p).named a = some (u.offerConn x)) : u.answered p a = some x := by
  have ha : u.addressed p a = some (u.offerConn x) := by rwa [State.addressed_named (by simp [hs])]
  unfold State.answered
  rw [hs, ho]
  exact if_pos ha

theorem State.offerConn_status (ho : u.op d = some o) :
    u.offerConn (.status d) = if o.alt.isSome then Conn.unit else .drive d := by
  simp [State.offerConn, State.statusConn, ho]

/-! ### A reconnection taken (R70) -/

theorem State.proceed_done (ho : u.op d = some o) (hc : o.cmd = none) (hr : o.record = 0) : u.proceed d p =
    (u.sendStatus p (.drive d) { done := true } false).setOp d (some { o with
      marksSince := 0, cmd := none, idle := 0, searchIndex := 0 }) := by
  have hproceed : u.proceed d p = (u.setOp d (some o.arm)).commandDone d p { done := true } true := by
    unfold State.proceed
    rw [State.modOp_some _ _ _ ho]
    dsimp only
    rw [State.setOp_op_same]
    dsimp only
    rw [show o.arm.cmd = none from hc]
    exact if_pos hr
  have hdone := State.modOp_some ((u.setOp d (some o.arm)).sendStatus p (.drive d) { done := true } false) d (fun o =>
    { o with cmd := none, idle := 0, searchIndex := 0 }) (State.setOp_op_same u d (some o.arm))
  exact hproceed.trans (hdone.trans (State.setOp_setOp (u.sendStatus p (.drive d) { done := true } false) d _ _))

theorem State.proceed_locate (ho : u.op d = some o) (hc : o.cmd = none) (hr : o.record ≠ 0) : u.proceed d p =
    u.setOp d (some { o with
      marksSince := 0, cmd := some (.locate { marks := 0, noted := false, waitIndex := false }) }) := by
  unfold State.proceed
  rw [State.modOp_some _ _ _ ho]
  dsimp only
  rw [State.setOp_op_same]
  dsimp only
  rw [show o.arm.cmd = none from hc]
  dsimp only
  rw [if_neg (show o.arm.record ≠ 0 from hr), State.setCmd, State.modOp_some _ _ _ (State.setOp_op_same _ _ _), State.setOp_setOp]
  rfl

theorem State.proceed_resumes {c : Cmd} (ho : u.op d = some o) (hc : o.cmd = some c) (hw : ∀ w, c ≠ .write w) :
    u.proceed d p = u.setOp d (some o.arm) := by
  unfold State.proceed
  rw [State.modOp_some _ _ _ ho]
  dsimp only
  rw [State.setOp_op_same]
  dsimp only
  rw [show o.arm.cmd = some c from hc]
  cases c with
  | write w => exact absurd rfl (hw w)
  | locate _ => rfl
  | search _ _ _ => rfl
  | read _ => rfl
  | format _ => rfl
  | driveState => rfl

theorem State.proceed_write (ho : u.op d = some o) (hc : o.cmd = some (.write w)) :
    u.proceed d p = (u.setOp d (some o.arm)).requestBytes d p 2 := by
  unfold State.proceed
  rw [State.modOp_some _ _ _ ho]
  dsimp only
  rw [State.setOp_op_same]
  dsimp only
  rw [show o.arm.cmd = some (.write w) from hc]

/-- The operation that a TAKE connects with the port (R70). -/
def Operation.joined (o : Operation) (p : Port) : Operation :=
  { o with orient := none, miss := 0, conn := some p, work := .connected, reconnected := true, idle := 0 }

/-- The port that a TAKE connects with the drive. -/
def State.joins (u : State) (d : Drive) (p : Port) : State :=
  u.modPort p fun r => { r.withoutOffer with state := .connected, conn := some (.drive d) }

theorem State.takeReconnect_eq (ho : u.op d = some o) :
    u.takeReconnect d p = ((u.joins d p).setOp d (some (o.joined p))).proceed d p := by
  have hop : (u.joins d p).op d = some o := ho
  have hjoin := State.modOp_some (u.joins d p) d (fun o => o.joined p) hop
  exact congrArg (fun v : State => v.proceed d p) hjoin

theorem State.takeOffer_reconnect (h : u.answered p a = some (.reconnect d)) : u.takeOffer p a = u.takeReconnect d p := by
  rw [State.takeOffer, h]

/-! ### A pending status taken (R103) -/

theorem State.takeOffer_status {y : Pending} (h : u.answered p a = some (.status d)) (ho : u.op d = some o) (hp : o.pending = some y) :
    u.takeOffer p a = match y.record with
      | some r => ((u.dropOffer p).sendStatus p (if o.alt.isSome then Conn.unit else .drive d) y.status false).endOperationWithHold d p r
      | none => ((u.dropOffer p).sendStatus p (if o.alt.isSome then Conn.unit else .drive d) y.status false).endOperation d := by
  have hstat : u.statusConn d = if o.alt.isSome then Conn.unit else .drive d := State.offerConn_status ho
  rw [State.takeOffer, h]
  dsimp only
  unfold State.takeStatus
  rw [ho, Option.bind_some, hp]
  dsimp only
  rw [hstat] <;> cases y.record <;> rfl

/-! ### A notice taken (R181) -/

theorem State.takeOffer_notice {x : Notice} (h : u.answered p a = some (.notice x)) :
    u.takeOffer p a = (u.removeHeadNotice p).dropOffer p := by
  rw [State.takeOffer, h]

theorem State.removeHeadNotice_goes {x : Notice} {rest : List Notice} (hq : (u.queue p).notices = x :: rest)
    (h : rest ≠ [] ∨ (u.port p).overflow = false) :
    u.removeHeadNotice p = u.setQueue p { u.queue p with notices := rest } := by
  unfold State.removeHeadNotice
  dsimp only
  rw [hq, List.tail_cons]
  refine if_neg fun ⟨hr, ho⟩ => ?_
  rcases h with h | h
  · exact h hr
  · exact absurd (h.symm.trans ho) Bool.false_ne_true

/-- RESCAN takes the place of a notice lost. -/
theorem State.removeHeadNotice_rescan {x : Notice} (hq : (u.queue p).notices = [x]) (h : (u.port p).overflow = true) :
    u.removeHeadNotice p = (u.setQueue p { u.queue p with notices := [.rescan] }).modPort p fun r => { r with overflow := false } := by
  unfold State.removeHeadNotice
  dsimp only
  rw [hq]
  exact if_pos ⟨rfl, h⟩

end Offers

/-- Settles O52: nothing answered, another address, and TAKE and DEFER by the kind of the offer. -/
theorem offersAreTakenOrDeferred : Obligations.OffersAreTakenOrDeferred := by
  unfold Obligations.OffersAreTakenOrDeferred
  intro s u p a hu
  refine ⟨fun h i hi => exec_unanswered hu (State.answered_not h) hi, fun i hi => ⟨fun d b ho hn => ?_, fun d o b ho hop hn => ?_,
    fun d b ho hn => ?_, fun b ho hn => ?_⟩, fun hs => ⟨fun d o hoff hn ho => ?_, fun d o x c hoff hc hn ho hp => ?_,
    fun n rest hoff hn hq => ?_⟩⟩
  · exact exec_unanswered hu (State.answered_other ho hn) hi
  · exact exec_unanswered hu (State.answered_other ho (by rwa [State.offerConn_status hop])) hi
  · rcases ho with ho | ho | ho | ⟨t, ho⟩
    all_goals exact exec_unanswered hu (State.answered_other ho hn) hi
  · exact exec_unanswered hu (State.answered_other ho hn) hi
  · have hans : u.answered p a = some (.reconnect d) := State.answered_addressed hs hoff hn
    have hop : ((u.joins d p).setOp d (some (o.joined p))).op d = some (o.joined p) := State.setOp_op_same _ _ _
    have hback : u.deferOffer p = ((u.dropOffer p).freePathOfPort p).setOp d (some (o.deferredBy p)) := by
      have hop : ((u.dropOffer p).freePathOfPort p).op d = some o := ho
      rw [State.deferOffer_reconnect hoff, State.modOp_some _ _ _ hop]
    intro joined back
    rw [exec_take hu, exec_defer hu, State.takeOffer_reconnect hans, State.takeReconnect_eq ho, hans, Option.isSome_some, if_pos rfl,
      hback]
    refine ⟨fun hcmd hrec => ?_, fun hcmd hrec => ?_, fun c hcmd hw => ?_, fun w n hcmd hask hreq hheld => ?_, fun x hx => ⟨fun hw => ?_,
      fun hw => ?_⟩⟩
    · have hdone := State.proceed_done (p := p) hop hcmd hrec
      rw [← hcmd] at hdone
      rw [hdone]
      exact congrArg (fun v : State => Host.Outcome.next v.serveClaims)
        (State.setOp_setOp (joined.sendStatus p (.drive d) { done := true } false) d _ _)
    · rw [State.proceed_locate hop hcmd hrec, State.setOp_setOp]
      rfl
    · rw [State.proceed_resumes hop hcmd hw, State.setOp_setOp]
      rfl
    · rw [State.proceed_write hop hcmd, State.setOp_setOp]
      have hop' : ((u.joins d p).setOp d (some (o.joined p).arm)).op d = some (o.joined p).arm := State.setOp_op_same _ _ _
      have hport : (((u.joins d p).setOp d (some (o.joined p).arm)).port p) =
          { (u.port p).withoutOffer with state := .connected, conn := some (.drive d) } :=
        State.modPort_port_same u p fun r => { r.withoutOffer with state := .connected, conn := some (.drive d) }
      have hreq' : (((u.joins d p).setOp d (some (o.joined p).arm)).port p).requests = [] := by rw [hport]; exact hreq
      have hheld' : (((u.joins d p).setOp d (some (o.joined p).arm)).port p).held = [] := by rw [hport]; exact hheld
      have haddr : (((u.joins d p).setOp d (some (o.joined p).arm)).port p).addressOf (.drive d) = (u.port p).addressOf (.drive d) := by
        rw [hport]
        rfl
      refine ⟨fun hn => ?_, fun hn => ?_⟩
      · rw [State.requestBytes_short hop' hcmd hask hreq' hheld' hn, haddr, State.setOp_setOp]
        rfl
      · rw [State.requestBytes_long hop' hcmd hask hreq' hheld' hn, haddr, State.setOp_setOp]
        rfl
    · rw [Operation.deferredBy_open hx hw]
      rfl
    · rw [Operation.deferredBy_closed hx hw]
      rfl
  · have hans : u.answered p a = some (.status d) := State.answered_addressed hs hoff (by rw [State.offerConn_status ho, hn, hc])
    have hop : (u.dropOffer p).op d = some o := ho
    intro sent
    have hsent : sent = (u.dropOffer p).sendStatus p (if o.alt.isSome then Conn.unit else .drive d) x.status false := by
      rw [← hc]
    rw [exec_take hu, exec_defer hu, State.takeOffer_status hans ho hp, hans, Option.isSome_some, if_pos rfl,
      State.deferOffer_status hoff, State.modOp_some _ _ _ hop, hsent]
    exact ⟨fun hr => by rw [hr], fun r hr => by rw [hr], rfl⟩
  · have hans : u.answered p a = some (.notice n) := State.answered_addressed hs hoff hn
    rw [exec_take hu, exec_defer hu, State.takeOffer_notice hans, hans, Option.isSome_some, if_pos rfl, State.deferOffer_notice hoff]
    refine ⟨fun h => ?_, fun hr ho => ?_, ?_⟩
    · rw [State.removeHeadNotice_goes hq h]
    · rw [State.removeHeadNotice_rescan (hr ▸ hq) ho]
    · rfl

end Sys2Proof.Machine
end

section
/-! SUPPORT. The inner events of a drive (3.5, 4.3, 5.1, 5.4, 9.5). -/

namespace Sys2Proof.Machine

open Sys2Proof

/-! ## A command that ends with a FAULT at once -/

section Fault
variable {u : State} {p : Port} {d : Drive} {o : Operation} {c : Option Cmd} {k : FaultKind} {det : Detail} {n : Nat}
  {found : Option Condition}

-- The proofs before this one end before those after it begin: they have to compile within the check's memory.
set_option Elab.async false in
/-- A command's FAULT where no DATA frame of it is in the buffer (R79, R145). -/
theorem State.commandFault_now (hs : (u.port p).slots = 0) (hc : (u.port p).conn = some (.drive d)) (ho : u.op d = some o)
    (hoc : o.conn = some p) : u.commandFault p k det n found =
      (u.modPort p fun r => { r with answer := none }).faultInConnection d p o k det n found := by
  unfold State.commandFault State.complete
  rw [if_pos hs]
  exact State.produce_fault hc ho hoc rfl

/-- The FAULT takes the operation with it, whatever command it had. -/
theorem State.commandFault_cmd (hs : (u.port p).slots = 0) (hc : (u.port p).conn = some (.drive d)) (hoc : o.conn = some p) :
    (u.setOp d (some { o with cmd := c })).commandFault p k det n found =
      (u.modPort p fun r => { r with answer := none }).faultInConnection d p o k det n found := by
  rw [State.commandFault_now (u := u.setOp d (some { o with cmd := c })) (o := { o with cmd := c }) hs hc
    (State.setOp_op_same _ _ _) hoc, ← State.modPort_setOp, State.faultInConnection_cmd]

theorem State.readOver_eq (ho : u.op d = some o) : u.readOver d = u.setOp d (some { o with cmd := o.cmd.map Cmd.over }) :=
  State.modOp_some _ _ _ ho

end Fault

/-! ## Requests raised and lapsed (R59, R60) -/

section Requests
variable {u : State} {d : Drive} {o : Operation} {x : Orientation} {t : DriveType} {k : Nat}

theorem Orientation.raisedAt_iff :
    x.raisedAt t k = true ↔ x.later = false ∧ t.setup ≤ k ∧ k ≤ t.lead ∨ x.later = true ∧ k = t.lead := by
  unfold Orientation.raisedAt
  cases x.later with
  | false => simp
  | true => simp

theorem State.positioned_iff : u.positioned d o = true ↔ (u.pos d).actuator = .onCylinder ∧
    ∃ t, o.target = some t ∧ (u.pos d).cyl = some t.cyl ∧ (u.pos d).head = some t.head := by
  unfold State.positioned Positioner.selected
  rcases o.target with _ | ⟨tc, th⟩
  · simp
  · cases (u.pos d).cyl with
    | none => simp
    | some c =>
      cases (u.pos d).head with
      | none => simp
      | some h => simp

theorem State.requestRaise_eq (ho : u.op d = some o) (hx : o.orient = some x) (hk : u.slack d x.sector = some k) :
    u.requestRaise d = if x.req = .dormant ∧ x.tested = true ∧ u.positioned d o = true ∧ x.raisedAt (u.typeOf d) k = true
      then u.setOp d (some { o with orient := some x.raised }) else u := by
  unfold State.requestRaise
  rw [ho]
  dsimp only
  rw [hx]
  dsimp only
  rw [hk]

theorem State.requestLapse_eq (ho : u.op d = some o) (hx : o.orient = some x) (hk : u.slack d x.sector = some k) :
    u.requestLapse d = if x.windowOpen = true ∧ k < (u.typeOf d).setup then u.setOp d (some (o.closeWindow x)) else u := by
  unfold State.requestLapse
  rw [ho]
  dsimp only
  rw [hx]
  dsimp only
  rw [hk]

theorem State.requests_notOriented (ho : u.op d = some o) (hx : o.orient = none) : u.requestRaise d = u ∧ u.requestLapse d = u := by
  unfold State.requestRaise State.requestLapse
  rw [ho]
  dsimp only
  rw [hx]
  exact ⟨rfl, rfl⟩

end Requests

/-! ## What ends a connection, a search, a hold (R80, R82, R87, R168) -/

section Bounds
variable {s u : State} {p : Port} {d : Drive} {o : Operation} {f : Finding} {n : Nat}

theorem State.idleExpire_eq (ho : u.op d = some o) (hoc : o.conn = some p) :
    u.idleExpire d = if o.cmd = none ∧ 4 ≤ o.idle then (u.endConnection p).endOperation d else u := by
  unfold State.idleExpire
  rw [ho]
  dsimp only
  rw [hoc]

/-- A search from a reconnection, with the residual a FAULT of its command carries (R79, R82). -/
def Operation.seeksWith (o : Operation) (f : Finding) (n : Nat) : Prop := o.finding = some f ∧ o.faultResidual = n

theorem Operation.seeksWith_of (h : o.cmd = some (.locate f) ∧ n = 0 ∨ (∃ c a x, o.cmd = some (.search c a (.find x f)) ∧ n = 0) ∨
    (∃ r x, o.cmd = some (.read r) ∧ (r.phase = .find x f ∨ r.phase = .seek f) ∧ n = o.byteCount - o.accounted) ∨
    (∃ w, o.cmd = some (.write w) ∧ w.seek = some f ∧ n = o.byteCount - o.accounted)) : o.seeksWith f n := by
  unfold Operation.seeksWith Operation.finding Operation.faultResidual
  rcases h with ⟨h, hn⟩ | ⟨c, a, x, h, hn⟩ | ⟨r, x, h, hp, hn⟩ | ⟨w, h, hs, hn⟩
  · simp [h, hn]
  · simp [h, hn]
  · rcases hp with hp | hp <;> simp [h, hp, hn]
  · simp [h, hs, hn]

theorem State.searchBound_eq (ho : u.op d = some o) (hoc : o.conn = some p) (hf : o.seeksWith f n) :
    u.searchBound d = if 2 ≤ f.marks
      then (u.readOver d).commandFault p (if f.noted then .idCheck else .notFound) .none n none else u := by
  obtain ⟨hfind, hres⟩ := hf
  unfold State.searchBound
  rw [ho]
  dsimp only
  rw [hoc, hfind]
  dsimp only
  rw [hres]

theorem State.searchLimit_eq (ho : u.op d = some o) (hoc : o.conn = some p) :
    u.searchLimit d = if o.searchSpent then u.commandFault p .notFound .none 0 none else u := by
  unfold State.searchLimit
  rw [ho]
  dsimp only
  rw [hoc]

theorem Operation.searchSpent_search {c : SearchCond} {a : List Byte} {ph : SearchPhase} (h : o.cmd = some (.search c a ph)) :
    o.searchSpent = true ↔ ph = .over := by
  unfold Operation.searchSpent
  rw [h]
  cases ph <;> simp

theorem State.holdExpire_eq {x : Hold} (hx : (u.share d).hold = some x) :
    u.holdExpire d = if x.timer = 0 then (u.setShare d { u.share d with hold := none }).owedTest d else u := by
  unfold State.holdExpire
  rw [hx]
  rfl

end Bounds

/-- Settles O60: each inner event where its bound is reached, and before it. -/
theorem innerEventsAtTheirBounds : Obligations.InnerEventsAtTheirBounds := by
  unfold Obligations.InnerEventsAtTheirBounds
  intro s u d hu
  have hraise : exec (.requestRaised d) s = .next (u.requestRaise d).serveClaims := by
    unfold exec execRequestRaised
    exact State.performInner_finds d _ hu
  have hlapse : exec (.requestLapse d) s = .next (u.requestLapse d).serveClaims := by
    unfold exec execRequestLapse
    exact State.performInner_finds d _ hu
  have hidle : exec (.idleExpiry d) s = .next (u.idleExpire d).serveClaims := by
    unfold exec execIdleExpiry
    exact State.performInner_finds d _ hu
  have hbound : exec (.locateSearchBound d) s = .next (u.searchBound d).serveClaims := by
    unfold exec execLocateSearchBound
    exact State.performInner_finds d _ hu
  have hlimit : exec (.searchIndexCountLimit d) s = .next (u.searchLimit d).serveClaims := by
    unfold exec execSearchIndexCountLimit
    exact State.performInner_finds d _ hu
  have hhold : exec (.holdTimerExpiry d) s = .next (u.holdExpire d).serveClaims := by
    unfold exec execHoldTimerExpiry
    exact State.performInner_finds d _ hu
  refine ⟨fun o x k ho hx hk => ⟨fun hd ht hp => ⟨fun h => ?_, fun h => ?_⟩, fun h => ?_, fun hw hlt => ⟨fun hr => ?_, fun hr => ?_⟩,
    fun h => ?_⟩, fun o => State.positioned_iff, fun o ho hx i hi => ?_, fun o p ho hoc => ⟨fun hc hi => ?_, fun h => ?_,
      fun hs hc => ⟨fun f n hf => ?_, fun c a ph hcmd => ?_⟩⟩, fun x hx => ⟨fun ht => ?_, fun ht => ?_⟩⟩
  · rw [hraise, State.requestRaise_eq ho hx hk, if_pos ⟨hd, ht, hp, Orientation.raisedAt_iff.mpr h⟩]
    rfl
  · rw [hraise, State.requestRaise_eq ho hx hk, if_neg fun hall => ?_]
    rcases Orientation.raisedAt_iff.mp hall.2.2.2 with ⟨hl, h1, h2⟩ | ⟨hl, h1⟩
    · rcases h with ⟨_, h⟩ | h | ⟨h, _⟩
      · omega
      · omega
      · simp [hl] at h
    · rcases h with ⟨h, _⟩ | h | ⟨_, h⟩
      · simp [hl] at h
      · omega
      · exact h h1
  · rw [hraise, State.requestRaise_eq ho hx hk, if_neg fun hall => ?_]
    obtain ⟨h1, h2, h3, _⟩ := hall
    rcases h with h | h | h
    · exact h h1
    · simp [h] at h2
    · simp [h] at h3
  · rw [hlapse, State.requestLapse_eq ho hx hk, if_pos ⟨hw, hlt⟩, Operation.closeWindow, hr]
    rfl
  · rw [hlapse, State.requestLapse_eq ho hx hk, if_pos ⟨hw, hlt⟩, Operation.closeWindow, hr]
  · rw [hlapse, State.requestLapse_eq ho hx hk, if_neg fun hall => ?_]
    obtain ⟨h1, h2⟩ := hall
    rcases h with h | h
    · simp [h] at h1
    · exact absurd h2 (not_lt.mpr h)
  · obtain ⟨h1, h2⟩ := State.requests_notOriented ho hx
    rcases hi with rfl | rfl
    · rw [hraise, h1]
    · rw [hlapse, h2]
  · rw [hidle, State.idleExpire_eq ho hoc, if_pos ⟨hc, hi⟩]
  · rw [hidle, State.idleExpire_eq ho hoc, if_neg fun ⟨h1, h2⟩ => h.elim (not_lt.mpr h2) (· h1)]
  · rw [hbound, State.searchBound_eq ho hoc (Operation.seeksWith_of hf)]
    refine ⟨fun hm => ?_, fun hm => by rw [if_neg (not_le.mpr hm)]⟩
    rw [if_pos hm, State.readOver_eq ho, State.commandFault_cmd hs hc hoc]
  · rw [hlimit, State.searchLimit_eq ho hoc]
    have hspent := Operation.searchSpent_search hcmd
    exact ⟨fun h => by rw [if_pos (hspent.mpr h), State.commandFault_now hs hc ho hoc], fun h => by rw [if_neg (h ∘ hspent.mp)]⟩
  · rw [hhold, State.holdExpire_eq hx, if_pos ht]
  · rw [hhold, State.holdExpire_eq hx, if_neg ht.ne']

end Sys2Proof.Machine
end

section
/-! SUPPORT. The ends of motions (3.2 to 3.6). -/

namespace Sys2Proof.Machine

open Sys2Proof

section Motions
variable {s u v w : State} {d : Drive} {o : Operation} {e : Nat} {i : Instr}

-- The proofs before this one end before those after it begin: they have to compile within the check's memory.
set_option Elab.async false in
theorem exec_onCylinder (hu : s.Finds u) (hr : (u.pos d).actuator ≠ .notReady) : exec (.onCylinder d) s =
    .next (u.motionAnswer d fun v => v.motionSuccess d).serveClaims := by
  unfold exec execOnCylinder
  exact (State.perform_finds _ hu).trans (by rw [State.fromReady, if_neg hr])

theorem exec_seekIncomplete (hu : s.Finds u) (hr : (u.pos d).actuator ≠ .notReady) : exec (.seekIncomplete d) s =
    .next (u.motionAnswer d fun v => v.motionFailure d).serveClaims := by
  unfold exec execSeekIncomplete
  exact (State.perform_finds _ hu).trans (by rw [State.fromReady, if_neg hr])

theorem exec_seekDeadlineExpiry (hu : s.Finds u) (d : Drive) : exec (.seekDeadlineExpiry d) s =
    .next ((u.reachTime (u.pos d).deadline).deadlineExpire d).serveClaims := by
  unfold exec execSeekDeadlineExpiry
  exact State.perform_finds _ hu

/-- An answer goes first to an order that has expired (R41). -/
theorem State.motionAnswer_expired (h : 0 < (u.pos d).unanswered) (f : State → State) :
    u.motionAnswer d f = u.modPos d fun q => { q with unanswered := q.unanswered - 1 } := if_pos h

theorem State.motionAnswer_outstanding (h : (u.pos d).unanswered = 0)
    (ha : (u.pos d).actuator = .seeking ∨ (u.pos d).actuator = .recalibrating) (f : State → State) : u.motionAnswer d f = f u := by
  have hm : (u.pos d).inMotion = true := by
    rcases ha with ha | ha <;> simp [Positioner.inMotion, ha]
  unfold State.motionAnswer
  rw [if_neg (by omega), if_pos hm]

/-! ### A motion that ends on its target (R41, R49) -/

theorem State.motionSuccess_idle (ho : u.op d = none) : u.motionSuccess d = u.modPos d Positioner.motionDone := by
  have hop : (u.modPos d Positioner.motionDone).op d = none := ho
  unfold State.motionSuccess
  dsimp only
  rw [hop]

theorem State.motionSuccess_positioning (ho : u.op d = some o) (hw : o.work = .positioning) :
    u.motionSuccess d = (u.modPos d Positioner.motionDone).position d := by
  have hop : (u.modPos d Positioner.motionDone).op d = some o := ho
  have hno : ¬ ((u.pos d).owned = true ∧ o.work = .recalibrating) := by simp [hw]
  unfold State.motionSuccess
  dsimp only
  rw [hop]
  dsimp only
  rw [if_neg hno, State.afterMotion, hop]
  dsimp only
  rw [hw]

theorem State.motionSuccess_recalibrating (ho : u.op d = some o) (hw : o.work = .recalibrating) (hown : (u.pos d).owned = true) :
    u.motionSuccess d = (u.modPos d Positioner.motionDone).keepPending d { done := true, disconnect := true } none := by
  have hop : (u.modPos d Positioner.motionDone).op d = some o := ho
  unfold State.motionSuccess
  dsimp only
  rw [hop]
  exact if_pos ⟨hown, hw⟩

theorem State.freeInternalPath_free (h : u.paths = Vector.replicate 2 none) : u.freeInternalPath d = u := by
  rw [State.freeInternalPath_eq, h]
  congr
  simp [h]

/-- A pending status kept where no path is held. -/
theorem State.keepPending_free (ho : u.op d = some o) (h : u.paths = Vector.replicate 2 none) (st : Status) (r : Option FaultRecord) :
    u.keepPending d st r = u.setOp d (some { o with
      work := .ended, orient := none, statusDeferred := PortSet.none, pending := some { status := st, record := r } }) := by
  unfold State.keepPending
  rw [State.modOp_some _ _ _ ho]
  exact State.freeInternalPath_free h

theorem Positioner.motionDone_kept {q : Positioner} (h : q.calVoid = false) : q.motionDone = { q with
    actuator := .onCylinder, cyl := q.motionTarget, deadline := none, motionTarget := none, owned := false, calVoid := false } := by
  unfold Positioner.motionDone
  rw [h]
  rfl

theorem Positioner.motionDone_void {q : Positioner} (h : q.calVoid = true) : q.motionDone = q.motionFailed := by
  unfold Positioner.motionDone
  rw [h]
  rfl

theorem State.modPos_congr {f g : Positioner → Positioner} (h : f (u.pos d) = g (u.pos d)) : u.modPos d f = u.modPos d g := by
  unfold State.modPos
  rw [h]

theorem State.modPos_done (hc : (u.pos d).calVoid = false) : u.modPos d Positioner.motionDone = u.modPos d fun q => { q with
    actuator := .onCylinder, cyl := q.motionTarget, deadline := none, motionTarget := none, owned := false, calVoid := false } :=
  State.modPos_congr (Positioner.motionDone_kept hc)

theorem State.modPos_void (hc : (u.pos d).calVoid = true) :
    u.modPos d Positioner.motionDone = u.modPos d Positioner.motionFailed :=
  State.modPos_congr (Positioner.motionDone_void hc)

/-! ### A motion that fails (R42, R43) -/

theorem State.motionFailure_seeking (ha : (u.pos d).actuator = .seeking) : u.motionFailure d = u.seekFailure d := by
  unfold State.motionFailure
  rw [ha]

theorem State.motionFailure_recalibrating (ha : (u.pos d).actuator = .recalibrating) : u.motionFailure d = u.recalibrateFailure d := by
  unfold State.motionFailure
  rw [ha]

theorem State.seekFailure_idle (ho : u.op d = none) : u.seekFailure d = u.modPos d Positioner.motionFailed := by
  have hop : (u.modPos d Positioner.motionFailed).op d = none := ho
  unfold State.seekFailure
  dsimp only
  rw [hop]

theorem State.equipmentCheck_plain (ho : u.op d = some o) (ha : o.alt = none) (det : Detail) :
    u.equipmentCheck d det = u.pendingFault d .equipmentCheck det none := by
  unfold State.equipmentCheck
  rw [ho]
  dsimp only
  rw [ha]
  rfl

theorem State.seekFailure_spent (ho : u.op d = some o) (hown : (u.pos d).owned = true) (ha : o.alt = none) (hr : o.recovery = true) :
    u.seekFailure d = (u.modPos d Positioner.motionFailed).pendingFault d .equipmentCheck .seek none := by
  have hop : (u.modPos d Positioner.motionFailed).op d = some o := ho
  unfold State.seekFailure
  dsimp only
  rw [hop, hown]
  dsimp only
  rw [if_neg (by simp), if_pos hr, State.equipmentCheck_plain hop ha]

/-- A recalibrate order as it goes out, and as it does after a failed motion (R42). -/
def sentHome (t : DriveType) (now : Nat) (q : Positioner) : Positioner :=
  { q with
    actuator := .recalibrating, cyl := none, motionTarget := some 0, owned := true, status := none,
    deadline := some (now + (t.settleTime + ((t.dataCyls + t.altCyls) * t.stepTime + 999) / 1000 + 10)) }

def recalibrating (t : DriveType) (now : Nat) (q : Positioner) : Positioner := sentHome t now q.motionFailed

/-- The one recovery, where an order can still be sent. -/
theorem State.seekFailure_recovers (ho : u.op d = some o) (hown : (u.pos d).owned = true) (hr : o.recovery = false)
    (hn : (u.pos d).unanswered < 2) : u.seekFailure d = (u.setOp d (some { o with
      recovery := true, work := .positioning, orient := none })).modPos d (recalibrating (u.typeOf d) u.now) := by
  have hop : (u.modPos d Positioner.motionFailed).op d = some o := ho
  have hfewer : ((((u.modPos d Positioner.motionFailed).setOp d (some { o with
      recovery := true, work := .positioning, orient := none }))).pos d).unanswered < 2 := by
    rw [State.setOp_pos, State.modPos_pos_same]
    exact hn
  have hsteps : u.seekFailure d = (u.modPos d Positioner.motionFailed).recover d := by
    unfold State.seekFailure
    dsimp only
    rw [hop, hown]
    dsimp only
    rw [if_neg (by simp), if_neg (by simp [hr])]
  rw [hsteps, State.recover_eq, State.modOp_some _ _ _ hop, State.orderRecalibrate,
    State.orderMotion_fewer hfewer]
  exact State.modPos_modPos (u.setOp d (some { o with recovery := true, work := .positioning, orient := none })) d
    Positioner.motionFailed (sentHome (u.typeOf d) u.now)

theorem State.recalibrateFailure_owned (ho : u.op d = some o) (hown : (u.pos d).owned = true) (ha : o.alt = none) :
    u.recalibrateFailure d = (u.modPos d Positioner.motionFailed).pendingFault d .equipmentCheck .recalibrate none := by
  have hop : (u.modPos d Positioner.motionFailed).op d = some o := ho
  unfold State.recalibrateFailure
  dsimp only
  rw [hown]
  exact (if_pos rfl).trans (State.equipmentCheck_plain hop ha _)

/-! ### The deadline's expiry (R38, log 3) -/

/-- An order whose deadline has come is counted among those without an answer. -/
def Positioner.expired (q : Positioner) : Positioner := { q with deadline := none, unanswered := min 2 (q.unanswered + 1) }

theorem State.deadlineExpire_seeking (hx : (u.pos d).deadline = some e) (hle : e ≤ u.now) (ha : (u.pos d).actuator = .seeking) :
    u.deadlineExpire d = (u.modPos d Positioner.expired).seekFailure d := by
  have ha' : ((u.modPos d Positioner.expired).pos d).actuator = .seeking := by
    rw [State.modPos_pos_same]
    exact ha
  exact (State.deadlineExpire_due hx hle).trans (State.motionFailure_seeking ha')

theorem State.deadlineExpire_idle (hx : (u.pos d).deadline = some e) (hle : e ≤ u.now) (ha : (u.pos d).actuator = .seeking)
    (ho : u.op d = none) : u.deadlineExpire d = u.modPos d fun q => q.expired.motionFailed := by
  have hop : (u.modPos d Positioner.expired).op d = none := ho
  rw [State.deadlineExpire_seeking hx hle ha, State.seekFailure_idle hop, State.modPos_modPos]

theorem State.deadlineExpire_recovers (hx : (u.pos d).deadline = some e) (hle : e ≤ u.now) (ha : (u.pos d).actuator = .seeking)
    (ho : u.op d = some o) (hown : (u.pos d).owned = true) (hr : o.recovery = false) (hn : (u.pos d).unanswered = 0) :
    u.deadlineExpire d = (u.setOp d (some { o with recovery := true, work := .positioning, orient := none })).modPos d
      fun q => recalibrating (u.typeOf d) u.now q.expired := by
  have hop : (u.modPos d Positioner.expired).op d = some o := ho
  have hpos : (u.modPos d Positioner.expired).pos d = (u.pos d).expired := State.modPos_pos_same _ _ _
  have hfew : ((u.modPos d Positioner.expired).pos d).unanswered < 2 := by
    rw [hpos]
    show min 2 ((u.pos d).unanswered + 1) < 2
    rw [hn]
    decide
  rw [State.deadlineExpire_seeking hx hle ha, State.seekFailure_recovers hop (by rw [hpos]; exact hown) hr hfew]
  exact State.modPos_modPos (u.setOp d (some { o with recovery := true, work := .positioning, orient := none })) d _ _

/-- A deadline that is reached on an otherwise quiet way has done its work once the timebase stands there. -/
theorem State.deadline_reached (hx : (u.pos d).deadline = some e) (hlt : u.now < e) (hq : u.Quiet) (hdue : u.due = none)
    (hd : ∀ d' x, d' ≠ d → (u.pos d').deadline = some x → e < x) (hi : ∀ p x, (u.port p).idleTimer = some x → e < x)
    (hw : ({ u with now := e } : State).deadlineExpire d = w) (hm : ({ u with now := e } : State).OnlyMotion w d) (hwq : w.Quiet)
    (hn : ∀ x, (w.pos d).deadline = some x → e < x) : ((u.reachTime (some e)).deadlineExpire d).serveClaims = w := by
  have hreach : u.reachTime (some e) = w := by
    rw [State.reachTime_idle hlt hq hdue (fun d' y hy => ?_) fun q y hy => (hi q y hy).le]
    · have hnow : ({ ({ u with now := e - 1 } : State) with now := ({ u with now := e - 1 } : State).now + 1 } : State) =
          { u with now := e } := by
        simp only
        congr 1
        omega
      have hport : ∀ p, w.port p = u.port p := fun p => congrArg (fun ps => ps[p]) hm.ports
      rw [State.tick_eq (State.settle_none (u := { u with now := e - 1 }) hdue), hnow,
        forDrives_single (s := { u with now := e }) d
          (fun d' hd' => State.deadlineExpire_early (s := { u with now := e }) fun y hy => hd d' y hd' hy)
          (fun d' hd' => by
            rw [hw]
            exact State.deadlineExpire_early fun y hy => by
              rw [hm.pos d' hd'] at hy
              rw [hm.now]
              exact hd d' y hd' hy), hw,
        forPorts_fixed fun p => State.unitIdleExpire_early fun y hy => by
          rw [hport] at hy
          rw [hm.now]
          exact hi p y hy]
      exact hwq.serveClaims
    · by_cases he : d' = d
      · subst he
        rw [hx] at hy
        cases hy
        exact le_refl _
      · exact (hd d' y he hy).le
  have hearly : w.deadlineExpire d = w := State.deadlineExpire_early fun x hx => by
    rw [hm.now]
    exact hn x hx
  rw [hreach, hearly, hwq.serveClaims]

end Motions

/-- Settles O55: an answer by what is outstanding, a motion's success and its failure, and the deadline. -/
theorem motionsEnd : Obligations.MotionsEnd := by
  unfold Obligations.MotionsEnd
  intro s u d hu ty still lost recal
  have hready : (u.pos d).actuator = .seeking ∨ (u.pos d).actuator = .recalibrating → (u.pos d).actuator ≠ .notReady :=
    fun h => by rcases h with h | h <;> simp [h]
  have hrecal : recalibrating ty = recal := rfl
  refine ⟨fun hr hn i hi => ?_, fun ha hn => ⟨fun ho hc => ?_, fun ho hc => ?_, fun o ho hw ht hc => ?_, fun o ho hw hown hc hp => ?_⟩,
    fun ha hn => ⟨fun ho => ?_, fun o ho hown hal => ⟨fun hrec => ?_, fun hrec => ?_⟩⟩, fun o ha hn ho hown hal => ?_, fun hx => ?_,
    fun e hx ha => ?_⟩
  · rcases hi with rfl | rfl
    · rw [exec_onCylinder hu hr, State.motionAnswer_expired hn]
    · rw [exec_seekIncomplete hu hr, State.motionAnswer_expired hn]
  · rw [exec_onCylinder hu (hready ha), State.motionAnswer_outstanding hn ha, State.motionSuccess_idle ho,
      State.modPos_done hc]
  · rw [exec_onCylinder hu (hready ha), State.motionAnswer_outstanding hn ha, State.motionSuccess_idle ho,
      State.modPos_void hc]
    rfl
  · rw [exec_onCylinder hu (hready ha), State.motionAnswer_outstanding hn ha, State.motionSuccess_positioning ho hw,
      State.modPos_done hc]
  · rw [exec_onCylinder hu (hready ha), State.motionAnswer_outstanding hn ha, State.motionSuccess_recalibrating ho hw hown,
      State.modPos_done hc]
    exact congrArg (fun v : State => Host.Outcome.next v.serveClaims)
      (State.keepPending_free (u := u.modPos d fun q => { still q with actuator := .onCylinder, cyl := q.motionTarget }) ho hp _ _)
  · rw [exec_seekIncomplete hu (hready (.inl ha)), State.motionAnswer_outstanding hn (.inl ha), State.motionFailure_seeking ha,
      State.seekFailure_idle ho]
    rfl
  · rw [exec_seekIncomplete hu (hready (.inl ha)), State.motionAnswer_outstanding hn (.inl ha), State.motionFailure_seeking ha,
      State.seekFailure_recovers ho hown hrec (by omega)]
    rfl
  · rw [exec_seekIncomplete hu (hready (.inl ha)), State.motionAnswer_outstanding hn (.inl ha), State.motionFailure_seeking ha,
      State.seekFailure_spent ho hown hal hrec]
    rfl
  · rw [exec_seekIncomplete hu (hready (.inr ha)), State.motionAnswer_outstanding hn (.inr ha), State.motionFailure_recalibrating ha,
      State.recalibrateFailure_owned ho hown hal]
    rfl
  · have hearly : u.deadlineExpire d = u := State.deadlineExpire_early (by rw [hx]; nofun)
    rw [exec_seekDeadlineExpiry hu, hx]
    exact congrArg (fun w : State => Host.Outcome.next w.serveClaims) hearly
  · intro counted recovering
    rw [exec_seekDeadlineExpiry hu, hx]
    refine ⟨fun hle => ?_, fun hlt hq hdue hd hi => ?_⟩
    · have hreach : u.reachTime (some e) = u := by
        show u.passTime (e - u.now) = u
        rw [Nat.sub_eq_zero_of_le hle]
        rfl
      rw [hreach]
      refine ⟨fun ho => ?_, fun o ho hown hal hrec hn => ?_⟩
      · rw [State.deadlineExpire_idle hx hle ha ho]
        rfl
      · rw [State.deadlineExpire_recovers hx hle ha ho hown hrec hn]
        rfl
    · intro v
      have hvx : (v.pos d).deadline = some e := hx
      have hvle : e ≤ v.now := le_refl e
      have hva : (v.pos d).actuator = .seeking := ha
      refine ⟨fun ho hwq => ?_, fun o ho hown hal hrec hn hwq => ?_⟩
      · have hvo : v.op d = none := ho
        have hafter := State.deadline_reached hx hlt hq hdue hd hi (State.deadlineExpire_idle hvx hvle hva hvo)
          (State.modPos_onlyMotion _) hwq (by rw [State.modPos_pos_same]; nofun)
        exact congrArg Host.Outcome.next hafter
      · have hvo : v.op d = some o := ho
        have hw := State.deadlineExpire_recovers hvx hvle hva hvo hown hrec hn
        have hm : v.OnlyMotion (recovering o v) d :=
          ⟨rfl, rfl, fun _ he => State.modPos_pos_ne _ _ _ _ he.symm⟩
        have hafter := State.deadline_reached hx hlt hq hdue hd hi hw hm hwq
          (by rw [State.modPos_pos_same]; intro x hx; cases hx; show e < e + _; omega)
        exact congrArg Host.Outcome.next hafter

end Sys2Proof.Machine
end

section
/-! SUPPORT. The marks of a drive, and the end of a track in a READ (1.5, 4.1, 5.4, 5.5, 6.4). -/

namespace Sys2Proof.Machine

open Sys2Proof

section Marks
variable {s u v : State} {d : Drive} {p : Port} {o y : Operation} {a b : Nat} {c : Cmd} {r : ReadCmd} {t : Track}

/-! ### Changes of the operation, one after the other -/

-- The proofs before this one end before those after it begin: they have to compile within the check's memory.
set_option Elab.async false in
theorem State.modOp_setOp (f : Operation → Operation) : (u.setOp d (some y)).modOp d f = u.setOp d (some (f y)) := by
  rw [State.modOp_some _ _ _ (State.setOp_op_same _ _ _), State.setOp_setOp]

theorem State.setCmd_modPos (f : Positioner → Positioner) : (u.modPos d f).setCmd d c = (u.setCmd d c).modPos d f := rfl

theorem State.setCmd_setOp : (u.setOp d (some y)).setCmd d c = u.setOp d (some { y with cmd := some c }) :=
  State.modOp_setOp _

/-! ### What was armed in time (R2) -/

theorem State.reaches_iff : u.reaches d o b = true ↔ o.lost = false ∧ u.inTime d o b = true := by
  simp [State.reaches]

theorem State.inTime_unknown (h : (u.pos d).angle = none) : u.inTime d o b = true := by
  unfold State.inTime State.inTimeAt
  rw [h]

theorem State.inTime_iff (h : (u.pos d).angle = some a) : u.inTime d o b = true ↔
    (a + (u.typeOf d).sectors - b * (u.typeOf d).sectors / (u.typeOf d).capacity) % (u.typeOf d).sectors < o.marksSince := by
  unfold State.inTime State.inTimeAt
  rw [h]
  exact decide_eq_true_iff

/-! ### The counter, and what the mark makes due (R55, log 4) -/

theorem exec_sectorMark (hu : s.Finds u) (hr : (u.pos d).actuator ≠ .notReady) :
    exec (.sectorMark d) s = .next ((u.sectorPasses d).marked d).serveClaims := by
  unfold exec execSectorMark
  exact (State.perform_finds _ hu).trans (by rw [State.fromReady, if_neg hr])

theorem exec_indexMark (hu : s.Finds u) (hr : (u.pos d).actuator ≠ .notReady) :
    exec (.indexMark d) s = .next ((((u.indexPasses d).holdTick d).marked d).indexAtConnection d).serveClaims := by
  unfold exec execIndexMark
  exact (State.perform_finds _ hu).trans (by rw [State.fromReady, if_neg hr])

/-- From a drive NOT READY a mark is discarded (R10). -/
theorem exec_mark_notReady (hu : s.Finds u) (hr : (u.pos d).actuator = .notReady) {i : Instr} (hi : i = .sectorMark d ∨ i = .indexMark d) :
    exec i s = .next u.serveClaims := by
  rcases hi with rfl | rfl
  · unfold exec execSectorMark
    exact (State.perform_finds _ hu).trans (by rw [State.fromReady, if_pos hr])
  · unfold exec execIndexMark
    exact (State.perform_finds _ hu).trans (by rw [State.fromReady, if_pos hr])

theorem State.sectorPasses_unknown (h : (u.pos d).angle = none) : u.sectorPasses d = u := by
  have hself : (fun q : Positioner => { q with angle := q.angle.map (nextAngle (u.loadedType d)) }) (u.pos d) = u.pos d := by
    simp [h]
    rw [← h]
  exact State.setPos_self _ _ hself.symm

theorem State.sectorPasses_known {ty : DriveType} (h : (u.pos d).angle = some a) (ht : u.loadedType d = some ty) :
    u.sectorPasses d = u.modPos d fun q => { q with angle := some ((a + 1) % ty.sectors) } :=
  State.modPos_congr (by simp [h, ht, nextAngle])

theorem State.marked_none (h : u.op d = none) : u.marked d = { u with due := some d } := by
  unfold State.marked
  rw [State.modOp_none _ _ _ h]

/-- The operation's record as a mark passes. -/
theorem State.marked_some (h : u.op d = some o) : u.marked d = { u.setOp d (some o.markPasses) with due := some d } := by
  unfold State.marked
  rw [State.modOp_some _ _ _ h]

theorem State.holdTick_none (h : (u.share d).hold = none) : u.holdTick d = u := by
  have hself : (fun x : Sharing => { x with hold := x.hold.map fun h => { h with timer := h.timer - 1 } }) (u.share d) = u.share d := by
    simp [h]
    rw [← h]
  exact State.setShare_self _ _ hself.symm

theorem State.holdTick_some {x : Hold} (h : (u.share d).hold = some x) : u.holdTick d =
    u.setShare d { u.share d with hold := some { x with timer := x.timer - 1 } } := by
  have hat : (fun y : Sharing => { y with hold := y.hold.map fun h => { h with timer := h.timer - 1 } }) (u.share d) =
      { u.share d with hold := some { x with timer := x.timer - 1 } } := by
    simp [h]
  exact congrArg (u.setShare d) hat

/-! ### INDEX MARK at the operation's connection (R11, R80, R87) -/

/-- The state after an INDEX MARK, with this operation's record. -/
def State.atIndex (u : State) (d : Drive) (y : Operation) : State :=
  { (u.modPos d fun q => { q with angle := some 0 }).setOp d (some y) with due := some d }

theorem State.atIndex_setOp (z : Operation) : (u.atIndex d y).setOp d (some z) = u.atIndex d z := by
  have h := State.setOp_setOp (u.modPos d fun q => { q with angle := some 0 }) d (some y) (some z)
  exact congrArg (fun v : State => ({ v with due := some d } : State)) h

theorem State.atIndex_op : (u.atIndex d y).op d = some y := State.setOp_op_same _ _ _

theorem State.atIndex_modOp (f : Operation → Operation) : (u.atIndex d y).modOp d f = u.atIndex d (f y) := by
  rw [State.modOp_some _ _ _ State.atIndex_op, State.atIndex_setOp]

theorem State.atIndex_setCmd : (u.atIndex d y).setCmd d c = u.atIndex d { y with cmd := some c } := State.atIndex_modOp _

theorem State.atIndex_port : (u.atIndex d y).port p = u.port p := rfl

theorem State.atIndex_place : ((u.atIndex d y).pos d).cyl = (u.pos d).cyl ∧ ((u.atIndex d y).pos d).head = (u.pos d).head := by
  have hpos : (u.atIndex d y).pos d = { u.pos d with angle := some 0 } := State.modPos_pos_same u d fun q => { q with angle := some 0 }
  rw [hpos]
  exact ⟨rfl, rfl⟩

theorem State.indexMarked (ho : u.op d = some o) (hh : (u.share d).hold = none) :
    ((u.indexPasses d).holdTick d).marked d = u.atIndex d o.markPasses := by
  have hshare : ((u.indexPasses d).share d).hold = none := hh
  have hop : (u.indexPasses d).op d = some o := ho
  rw [State.holdTick_none hshare, State.marked_some hop]
  rfl

theorem State.indexAtConnection_noOp (ho : u.op d = none) : u.indexAtConnection d = u := by
  unfold State.indexAtConnection
  rw [ho]

theorem State.indexAtConnection_none (ho : u.op d = some o) (hc : o.conn = none) : u.indexAtConnection d = u := by
  unfold State.indexAtConnection
  rw [ho]
  dsimp only
  rw [hc]

theorem State.indexAtConnection_some (hc : o.conn = some p) : (u.atIndex d o.markPasses).indexAtConnection d =
    (u.atIndex d o.markPasses.countIndex).indexAtCommand d p o.markPasses := by
  have hop : (u.atIndex d o.markPasses).op d = some o.markPasses := State.atIndex_op
  have hconn : o.markPasses.conn = some p := hc
  unfold State.indexAtConnection
  rw [hop]
  dsimp only
  rw [hconn]
  dsimp only
  rw [State.atIndex_modOp]

theorem Operation.countIndex_waiting (h : o.cmd = none) : o.countIndex = { o with
    lost := false, idle := min 4 (o.idle + 1), searchIndex := if o.rereadDue then o.searchIndex else min 2 (o.searchIndex + 1) } := by
  unfold Operation.countIndex
  rw [h]
  rfl

theorem Operation.countIndex_busy (h : o.cmd = some c) : o.countIndex = { o with
    lost := false, searchIndex := if o.rereadDue then o.searchIndex else min 2 (o.searchIndex + 1) } := by
  unfold Operation.countIndex
  rw [h]
  rfl

/-! ### The DONE of a command whose connection stands (R79, R145) -/

theorem State.complete_done {x : Answer} (hs : (u.port p).slots = 0) (hc : (u.port p).conn = some (.drive d)) (ho : u.op d = some o)
    (hoc : o.conn = some p) (hr : x.status.reason = .none) : u.complete p x =
      (u.setOp d (some { o with cmd := none, idle := 0, searchIndex := if x.resets then 0 else o.searchIndex })).modPort p fun r =>
        { r with answer := none, link := r.link ++ [.status (r.addressOf (.drive d)) x.status false] } := by
  have hnow : u.complete p x = u.produce p x := if_pos hs
  have hsent : (u.modPort p fun r => { r with answer := none }).sendStatus p (.drive d) x.status false = u.modPort p fun r =>
      { r with answer := none, link := r.link ++ [.status (r.addressOf (.drive d)) x.status false] } := by
    unfold State.sendStatus State.push
    rw [State.modPort_modPort, State.modPort_port_same]
    rfl
  rw [hnow, State.produce_done hc ho hoc hr, hsent, State.modPort_setOp]

/-! ### The end of a track (R91, R116 to R118) -/

/-- The operation as its READ crosses to another track. -/
def Operation.crosses (o : Operation) (t : Track) (x : Translation) : Operation :=
  { o.newField.arm with logical := some t, target := some x.target, expected := some x.expected, entry := x.entry }

theorem State.endOfTrack_over (hh : (u.typeOf d).heads ≤ o.home.head + 1) : u.endOfTrack d p o r =
    (u.setCmd d (.read { r with phase := .done })).complete p
      { status := { Status.doneWith (o.byteCount - o.accounted) with endCyl := true }, found := none, resets := true } := by
  unfold State.endOfTrack
  exact if_neg (not_lt.mpr hh)

theorem State.endOfTrack_inline (hh : o.home.head + 1 < (u.typeOf d).heads) (ht : t = { cyl := o.home.cyl, head := o.home.head + 1 })
    (hc : (u.pos d).cyl = some (u.translate d t).target.cyl) : u.endOfTrack d p o r =
      ((u.modOp d fun o => o.crosses t (u.translate d t)).selectHead d (u.translate d t).target.head).setCmd d
        (.read { r with phase := .home }) := by
  subst ht
  unfold State.endOfTrack
  exact (if_pos hh).trans (if_pos hc)

theorem State.endOfTrack_away (hh : o.home.head + 1 < (u.typeOf d).heads) (ht : t = { cyl := o.home.cyl, head := o.home.head + 1 })
    (hc : (u.pos d).cyl ≠ some (u.translate d t).target.cyl) : u.endOfTrack d p o r =
      ((u.modOp d fun o => o.crosses t (u.translate d t)).setCmd d (.read { r with phase := .nextId .afterIndex })).relocate d p := by
  subst ht
  unfold State.endOfTrack
  exact (if_pos hh).trans (if_neg hc)

/-- The operation whose connection on the port is set aside (R46, R118). -/
def Operation.aside (o : Operation) (p : Port) : Operation :=
  { o with conn := none, idle := 0, keyCheck := false, leaving := o.leaving.add p }

theorem State.setAside_empty (hs : (u.port p).slots = 0) :
    u.setAside d p = ((u.modOp d fun o => o.aside p).freePathOfPort p).endConnection p := if_pos hs

theorem State.setAside_drains (hs : (u.port p).slots ≠ 0) : u.setAside d p =
    ((u.modOp d fun o => o.aside p).freePathOfPort p).modPort p fun r => { r with draining := true } := if_neg hs

/-! ### INDEX MARK at the command in progress (R82, R87, R94) -/

theorem State.indexAtCommand_none (h : o.cmd = none) : u.indexAtCommand d p o = u := by
  unfold State.indexAtCommand
  rw [h]

theorem State.indexAtCommand_locate {f : Finding} (h : o.cmd = some (.locate f)) :
    u.indexAtCommand d p o = u.setCmd d (.locate f.index) := by
  unfold State.indexAtCommand
  rw [h]

theorem State.indexAtCommand_search {k : SearchCond} {arg : List Byte} {w : Awaited} (h : o.cmd = some (.search k arg (.id w))) :
    u.indexAtCommand d p o = u.setCmd d (.search k arg (o.searchAtIndex w)) := by
  unfold State.indexAtCommand
  rw [h]

theorem State.indexAtCommand_format {f : FormatCmd} (h : o.cmd = some (.format f)) :
    u.indexAtCommand d p o = u.setCmd d (.format { f with begun := true }) := by
  unfold State.indexAtCommand
  rw [h]

theorem State.indexAtCommand_write {w : WriteCmd} (h : o.cmd = some (.write w)) :
    u.indexAtCommand d p o = u.setCmd d (.write { w with seek := w.seek.map Finding.index }) := by
  unfold State.indexAtCommand
  rw [h]

theorem State.indexAtCommand_find {n : Option RecordAt} {f : Finding} (h : o.cmd = some (.read r)) (hp : r.phase = .find n f) :
    u.indexAtCommand d p o = u.setCmd d (.read { r with phase := .find n f.index }) := by
  unfold State.indexAtCommand
  rw [h]
  dsimp only
  rw [hp]

theorem State.indexAtCommand_seek {f : Finding} (h : o.cmd = some (.read r)) (hp : r.phase = .seek f) :
    u.indexAtCommand d p o = u.setCmd d (.read { r with phase := .seek f.index }) := by
  unfold State.indexAtCommand
  rw [h]
  dsimp only
  rw [hp]

/-- A READ that waits for a data field, for a home field or for its frames is not counted against. -/
theorem State.indexAtCommand_waits (h : o.cmd = some (.read r)) (hp : r.phase = .data ∨ r.phase = .home ∨ r.phase = .done) :
    u.indexAtCommand d p o = u := by
  unfold State.indexAtCommand
  rw [h]
  dsimp only
  rcases hp with hp | hp | hp <;> rw [hp]

theorem State.indexAtCommand_endOfTrack (h : o.cmd = some (.read r)) (hp : r.phase = .nextId .next) :
    u.indexAtCommand d p o = u.endOfTrack d p o r := by
  unfold State.indexAtCommand
  rw [h]
  dsimp only
  rw [hp]

/-- INDEX MARK with an operation whose connection has a command in progress. -/
theorem exec_indexMark_busy (hu : s.Finds u) (hr : (u.pos d).actuator ≠ .notReady) (ho : u.op d = some o)
    (hh : (u.share d).hold = none) (hc : o.conn = some p) (hcmd : o.cmd = some c) : exec (.indexMark d) s =
      .next (((u.atIndex d { o.markPasses with
        lost := false, searchIndex := if o.rereadDue then o.searchIndex else min 2 (o.searchIndex + 1) }).indexAtCommand d p
          o.markPasses)).serveClaims := by
  have hbusy : o.markPasses.cmd = some c := hcmd
  rw [exec_indexMark hu hr, State.indexMarked ho hh, State.indexAtConnection_some hc, Operation.countIndex_busy hbusy]
  rfl

theorem State.relocate_atIndex_empty (hs : (u.port p).slots = 0) : (u.atIndex d y).relocate d p =
    (((u.atIndex d (y.aside p)).freePathOfPort p).endConnection p).position d := by
  have haside := State.setAside_empty (u := u.atIndex d y) (d := d) hs
  rw [State.relocate, haside, State.atIndex_modOp]

theorem State.relocate_atIndex_drains (hs : (u.port p).slots ≠ 0) : (u.atIndex d y).relocate d p =
    (((u.atIndex d (y.aside p)).freePathOfPort p).modPort p fun r => { r with draining := true }).position d := by
  have haside := State.setAside_drains (u := u.atIndex d y) (d := d) hs
  rw [State.relocate, haside, State.atIndex_modOp]

end Marks

/-- Settles O54: the counter and the hold of a drive without an operation, and with one by its connection and its command. -/
theorem marksOfADrive : Obligations.MarksOfADrive := by
  unfold Obligations.MarksOfADrive
  refine ⟨fun s d o b => State.reaches_iff, fun s d o b => ⟨State.inTime_unknown, fun a ha => State.inTime_iff ha⟩,
    fun s u d hu => ⟨fun hr i hi => exec_mark_notReady hu hr hi, fun hr ho => ?_, fun o hr ho => ?_⟩⟩
  · have hop : (u.indexPasses d).op d = none := ho
    refine ⟨fun ha => ?_, fun a ty ha ht => ?_, fun x hx => ?_, fun hx => ?_⟩
    · rw [exec_sectorMark hu hr, State.sectorPasses_unknown ha, State.marked_none ho]
    · have hop : (u.modPos d fun q => { q with angle := some ((a + 1) % ty.sectors) }).op d = none := ho
      rw [exec_sectorMark hu hr, State.sectorPasses_known ha ht, State.marked_none hop]
    · have hshare : ((u.indexPasses d).share d).hold = some x := hx
      have hop : ((u.indexPasses d).setShare d { u.share d with hold := some { x with timer := x.timer - 1 } }).op d = none := ho
      rw [exec_indexMark hu hr, State.holdTick_some hshare]
      have hmark := State.marked_none (d := d) hop
      exact congrArg (fun v : State => Host.Outcome.next v.serveClaims)
        ((congrArg (fun v : State => v.indexAtConnection d) hmark).trans (State.indexAtConnection_noOp hop))
    · have hshare : ((u.indexPasses d).share d).hold = none := hx
      rw [exec_indexMark hu hr, State.holdTick_none hshare, State.marked_none hop]
      exact congrArg (fun v : State => Host.Outcome.next v.serveClaims) (State.indexAtConnection_noOp hop)
  · intro past counted atIndex
    have hat : ∀ x, atIndex x = u.atIndex d x := fun _ => rfl
    refine ⟨fun a ty ha ht => ?_, fun hh => ⟨fun hc => ?_, fun p hc => ⟨fun hcmd => ?_, fun f hcmd => ?_, fun k arg w hcmd => ⟨fun hrr hsi => ?_,
      fun hrs => ?_⟩, fun f hcmd => ?_, fun w hcmd => ?_, fun r hcmd => ⟨fun hp => ?_, fun f => ⟨fun n hp => ?_, fun hp => ?_⟩⟩,
      fun r hcmd hp => ?_⟩⟩⟩
    · have hop : (u.modPos d fun q => { q with angle := some ((a + 1) % ty.sectors) }).op d = some o := ho
      rw [exec_sectorMark hu hr, State.sectorPasses_known ha ht, State.marked_some hop]
      rfl
    · rw [exec_indexMark hu hr, State.indexMarked ho hh, State.indexAtConnection_none (o := o.markPasses) State.atIndex_op hc]
      rfl
    · have hwait : o.markPasses.cmd = none := hcmd
      rw [exec_indexMark hu hr, State.indexMarked ho hh, State.indexAtConnection_some hc, State.indexAtCommand_none hwait,
        Operation.countIndex_waiting hwait]
      rfl
    · rw [exec_indexMark_busy hu hr ho hh hc hcmd, State.indexAtCommand_locate (o := o.markPasses) hcmd, State.atIndex_setCmd]
      rfl
    · have hover : o.markPasses.searchAtIndex w = .over := if_pos ⟨hrr, hsi⟩
      rw [exec_indexMark_busy hu hr ho hh hc hcmd, State.indexAtCommand_search (o := o.markPasses) hcmd, State.atIndex_setCmd, hover]
      rfl
    · have hgoes : o.markPasses.searchAtIndex w = .id (if w = .afterIndex then .next else w) := by
        have hindex : w.index = if w = .afterIndex then .next else w := by cases w <;> rfl
        have hno : ¬ (o.rereadDue = false ∧ 1 ≤ o.searchIndex) := fun ⟨h1, h2⟩ => by
          rcases hrs with h | h
          · simp [h] at h1
          · omega
        rw [← hindex]
        exact if_neg hno
      rw [exec_indexMark_busy hu hr ho hh hc hcmd, State.indexAtCommand_search (o := o.markPasses) hcmd, State.atIndex_setCmd, hgoes]
      rfl
    · rw [exec_indexMark_busy hu hr ho hh hc hcmd, State.indexAtCommand_format (o := o.markPasses) hcmd, State.atIndex_setCmd]
      rfl
    · rw [exec_indexMark_busy hu hr ho hh hc hcmd, State.indexAtCommand_write (o := o.markPasses) hcmd, State.atIndex_setCmd]
      rfl
    · rw [exec_indexMark_busy hu hr ho hh hc hcmd, State.indexAtCommand_waits (o := o.markPasses) hcmd hp]
      rfl
    · rw [exec_indexMark_busy hu hr ho hh hc hcmd, State.indexAtCommand_find (o := o.markPasses) hcmd hp, State.atIndex_setCmd]
      rfl
    · rw [exec_indexMark_busy hu hr ho hh hc hcmd, State.indexAtCommand_seek (o := o.markPasses) hcmd hp, State.atIndex_setCmd]
      rfl
    · intro head crossing
      have hex := exec_indexMark_busy hu hr ho hh hc hcmd
      have hend := State.indexAtCommand_endOfTrack (u := u.atIndex d counted) (d := d) (p := p) (o := past) (r := r) hcmd hp
      have hexec : exec (.indexMark d) s = .next ((u.atIndex d counted).endOfTrack d p past r).serveClaims := 
        hex.trans (congrArg (fun v : State => Host.Outcome.next v.serveClaims) hend)
      refine ⟨fun hover hs hpc => ?_, fun hlt => ?_⟩
      · have hlast := State.endOfTrack_over (u := u.atIndex d counted) (d := d) (p := p) (o := past) (r := r) hover
        have hdone := State.complete_done (u := u.atIndex d { counted with cmd := some (.read { r with phase := .done }) })
          (x := { status := { Status.doneWith (o.byteCount - o.accounted) with endCyl := true }, found := none, resets := true })
          hs hpc State.atIndex_op hc rfl
        rw [State.atIndex_setOp] at hdone
        rw [hexec, hlast, State.atIndex_setCmd]
        exact congrArg (fun v : State => Host.Outcome.next v.serveClaims) hdone
      · intro t x
        obtain ⟨hplace, hhead⟩ := State.atIndex_place (u := u) (d := d) (y := counted)
        refine ⟨fun hcyl hne => ?_, fun hcyl hs => ?_, fun hcyl hs => ?_⟩
        · have hcross := State.endOfTrack_inline (u := u.atIndex d counted) (d := d) (p := p) (o := past) (r := r) hlt rfl
            (hplace.trans hcyl)
          have hselect := State.selectHead_other (s := u.atIndex d (Operation.crosses counted t x)) (d := d) (c := x.target.head)
            (fun h => hne (hhead.symm.trans h))
          have hhome := State.atIndex_setCmd (u := u) (d := d) (y := Operation.crosses counted t x) (c := .read { r with phase := .home })
          have hop : { Operation.crosses counted t x with cmd := some (.read { r with phase := .home }) } =
              crossing t x (some p) .home := by
            rw [← hc]
            rfl
          rw [hexec, hcross, State.atIndex_modOp]
          refine congrArg (fun v : State => Host.Outcome.next v.serveClaims) ((congrArg (fun v : State => v.setCmd d
            (.read { r with phase := .home })) hselect).trans ?_)
          rw [State.setCmd_modPos, hhome, hop]
          rfl
        · have hcross := State.endOfTrack_away (u := u.atIndex d counted) (d := d) (p := p) (o := past) (r := r) hlt rfl
            (fun h => hcyl (hplace.symm.trans h))
          rw [hexec, hcross, State.atIndex_modOp, State.atIndex_setCmd, State.relocate_atIndex_empty hs]
          rfl
        · have hcross := State.endOfTrack_away (u := u.atIndex d counted) (d := d) (p := p) (o := past) (r := r) hlt rfl
            (fun h => hcyl (hplace.symm.trans h))
          rw [hexec, hcross, State.atIndex_modOp, State.atIndex_setCmd, State.relocate_atIndex_drains hs]
          rfl

end Sys2Proof.Machine
end

section
/-! SUPPORT. Alternate operations step by step (7.1 to 7.6). -/

namespace Sys2Proof.Machine

open Sys2Proof

section Alternates
variable {s u v : State} {d : Drive} {p : Port} {o : Operation} {a b : AltOp} {n k : Nat} {c q : Track} {f : Option Condition}
  {x : HomeField}

/-! ### The record of an alternate operation -/

def Operation.withAlt (o : Operation) (b : AltOp) : Operation := { o with alt := some b }

-- The proofs before this one end before those after it begin: they have to compile within the check's memory.
set_option Elab.async false in
theorem Operation.withAlt_self (ha : o.alt = some a) : o.withAlt a = o := by
  unfold Operation.withAlt
  rw [← ha]

/-- The state with this record of d's alternate operation. -/
def State.altered (s : State) (d : Drive) (o : Operation) (b : AltOp) : State := s.setOp d (some (o.withAlt b))

theorem State.altered_op : (s.altered d o b).op d = some (o.withAlt b) := State.setOp_op_same _ _ _

theorem State.modAlt_some (ho : s.op d = some o) (ha : o.alt = some a) (f : AltOp → AltOp) : s.modAlt d f = s.altered d o (f a) := by
  unfold State.modAlt
  rw [State.modOp_some _ _ _ ho, ha]
  rfl

theorem State.modAlt_altered (f : AltOp → AltOp) : (s.altered d o b).modAlt d f = s.altered d o (f b) :=
  State.modOp_setOp _

theorem State.modOp_altered (f : Operation → Operation) : (s.altered d o b).modOp d f = s.setOp d (some (f (o.withAlt b))) :=
  State.modOp_setOp _

theorem State.altOf (ho : s.op d = some o) (ha : o.alt = some a) : (s.op d).bind Operation.alt = some a := by
  rw [ho]
  exact ha

/-- The operation's record once a home field is to be written (R124). -/
def Operation.handedWrite (o : Operation) (x : HomeField) : Operation :=
  { o with work := .writeHome x, orient := some { external := false, sector := 0, req := .dormant, windowOpen := false, later := false,
                                                  deferred := PortSet.none, tested := false } }

theorem State.handHomeWrite_eq (ho : s.op d = some o) : s.handHomeWrite d x = s.setOp d (some (o.handedWrite x)) :=
  State.modOp_some _ _ _ ho

/-! ### PICK (R126) -/

theorem State.skipCandidate_altered : (s.altered d o b).skipCandidate d =
    (s.setRecord d { s.record d with cursor := (s.record d).cursor + 1 }).altered d o { b with tried := b.tried + 1 } :=
  State.modAlt_altered (s := s.setRecord d { s.record d with cursor := (s.record d).cursor + 1 }) _

theorem State.skipCandidate_eq (ho : s.op d = some o) (ha : o.alt = some a) : s.skipCandidate d =
    (s.setRecord d { s.record d with cursor := (s.record d).cursor + 1 }).altered d o { a with tried := a.tried + 1 } :=
  State.modAlt_some (s := s.setRecord d { s.record d with cursor := (s.record d).cursor + 1 }) ho ha _

theorem State.pick_spent (ho : s.op d = some o) (ha : o.alt = some a) (ht : 8 ≤ a.tried) :
    s.pick d (n + 1) = s.endAlternate d (.fault .noAlternate .skipLimit) := by
  rw [State.pick, State.altOf ho ha]
  exact if_pos ht

theorem State.pick_exhausted (ho : s.op d = some o) (ha : o.alt = some a) (ht : a.tried < 8)
    (hc : (s.typeOf d).alternates ≤ (s.record d).cursor) :
    s.pick d (n + 1) = (s.altered d o { a with step := .pick }).endAlternate d (.fault .noAlternate .exhausted) := by
  rw [State.pick, State.altOf ho ha]
  dsimp only
  rw [if_neg (not_le.mpr ht), if_pos hc, State.modAlt_some ho ha]

theorem State.pick_candidate (ho : s.op d = some o) (ha : o.alt = some a) :
    ((s.modAlt d fun a => { a with step := .pick }).modAlt d fun a =>
      { a with candidate := some ((s.typeOf d).alternateAt (s.record d).cursor) }) =
      s.altered d o { a with step := .pick, candidate := some ((s.typeOf d).alternateAt (s.record d).cursor) } := by
  rw [State.modAlt_some ho ha, State.modAlt_altered]

theorem State.isCurrentAlternate_iff : s.isCurrentAlternate d q = true ↔ ∃ e ∈ s.spareMap, e.drive = d ∧ e.current = some q := by
  simp [State.isCurrentAlternate]

theorem State.pick_skips (ho : s.op d = some o) (ha : o.alt = some a) (ht : a.tried < 8)
    (hc : (s.record d).cursor < (s.typeOf d).alternates)
    (h : s.isCurrentAlternate d ((s.typeOf d).alternateAt (s.record d).cursor) = true) : s.pick d (n + 1) =
      ((s.setRecord d { s.record d with cursor := (s.record d).cursor + 1 }).altered d o { a with
        step := .pick, candidate := some ((s.typeOf d).alternateAt (s.record d).cursor), tried := a.tried + 1 }).pick d n := by
  have hcur : (s.altered d o { a with step := .pick, candidate := some ((s.typeOf d).alternateAt (s.record d).cursor) }
    ).isCurrentAlternate d ((s.typeOf d).alternateAt (s.record d).cursor) = true := h
  rw [State.pick, State.altOf ho ha]
  dsimp only
  rw [if_neg (not_le.mpr ht), if_neg (not_le.mpr hc), State.pick_candidate ho ha, if_pos hcur, State.skipCandidate_altered]

/-- A candidate on another cylinder is positioned to; with that motion the cursor stays. -/
theorem State.pick_goes (ho : s.op d = some o) (ha : o.alt = some a) (ht : a.tried < 8)
    (hc : (s.record d).cursor < (s.typeOf d).alternates)
    (h : s.isCurrentAlternate d ((s.typeOf d).alternateAt (s.record d).cursor) = false) (hon : (s.pos d).actuator = .onCylinder)
    (hk : (s.pos d).cyl = some k) (hne : k ≠ ((s.typeOf d).alternateAt (s.record d).cursor).cyl) (hu : (s.pos d).unanswered < 2) :
    s.pick d (n + 1) = (s.setOp d (some { o with
      target := some ((s.typeOf d).alternateAt (s.record d).cursor), work := .positioning, alt := some { a with
        step := .probe, candidate := some ((s.typeOf d).alternateAt (s.record d).cursor) } })).sent d .seeking
          ((s.typeOf d).alternateAt (s.record d).cursor).cyl (distance ((s.typeOf d).alternateAt (s.record d).cursor).cyl k) := by
  have hcur : ¬ (s.altered d o { a with step := .pick, candidate := some ((s.typeOf d).alternateAt (s.record d).cursor) }
    ).isCurrentAlternate d ((s.typeOf d).alternateAt (s.record d).cursor) = true := fun hx => Bool.false_ne_true (h.symm.trans hx)
  rw [State.pick, State.altOf ho ha]
  dsimp only
  rw [if_neg (not_le.mpr ht), if_neg (not_le.mpr hc), State.pick_candidate ho ha, if_neg hcur, State.modAlt_altered,
    State.modOp_altered]
  generalize hw : s.setOp d _ = w
  have hmove := State.moveTo_seeks (s := w) (d := d) (c := k) (t := (s.typeOf d).alternateAt (s.record d).cursor)
    (by rw [← hw]; exact hon) (by rw [← hw]; exact hk) hne (by rw [← hw]; exact hu)
  rw [hmove]
  subst hw
  rfl

/-! ### A home field read, by step (R126 to R131) -/

theorem State.altHomeRead_probe (ho : s.op d = some o) (ha : o.alt = some a) (hs : a.step = .pick ∨ a.step = .probe) :
    s.altHomeRead d f = if f = some .freeAlternate then s.markAlt d
      else ((s.setRecord d { s.record d with cursor := (s.record d).cursor + 1 }).altered d o { a with tried := a.tried + 1 }).pick d 9 := by
  have hprobe : s.altHomeRead d f = s.probe d f := by
    unfold State.altHomeRead
    rw [State.altOf ho ha]
    dsimp only
    rcases hs with hs | hs <;> rw [hs]
  rw [hprobe, ← State.skipCandidate_eq ho ha]
  unfold State.probe
  split
  next => exact (if_pos rfl).symm
  all_goals exact (if_neg (by simp)).symm

theorem State.altHomeRead_markHome (ho : s.op d = some o) (ha : o.alt = some a) (hs : a.step = .markHome) (hc : a.candidate = some q) :
    s.altHomeRead d f = s.setOp d (some ((o.withAlt a).handedWrite { address := o.home, condition := .defective q })) := by
  unfold State.altHomeRead
  rw [State.altOf ho ha]
  dsimp only
  rw [hs]
  dsimp only
  unfold State.requestMarkHome
  rw [ho]
  dsimp only
  rw [ha, Option.bind_some, hc, Operation.withAlt_self ha]
  exact State.handHomeWrite_eq ho

theorem State.altHomeRead_approach (ho : s.op d = some o) (ha : o.alt = some a) (hs : a.step = .approach) :
    s.altHomeRead d f = s.setOp d (some ((o.withAlt { a with step := .rewriteHome, writePassed := true }).handedWrite
      { address := o.home, condition := .good })) := by
  unfold State.altHomeRead
  rw [State.altOf ho ha]
  dsimp only
  rw [hs]
  dsimp only
  unfold State.rewriteHome
  rw [ho]
  dsimp only
  rw [State.modAlt_some ho ha, State.handHomeWrite_eq State.altered_op]
  exact State.setOp_setOp _ _ _ _

theorem State.altHomeRead_retire (ho : s.op d = some o) (ha : o.alt = some a) (hs : a.step = .commit ∨ a.step = .retireAlt)
    (ht : o.target = some q) : s.altHomeRead d f = if f = some (.alternate o.home)
      then s.setOp d (some ((o.withAlt a).handedWrite { address := q, condition := .retired }))
      else (s.altered d o { a with retired := some false }).finishAlternate d := by
  have hjudge : s.altHomeRead d f = s.judgeRetire d f := by
    unfold State.altHomeRead
    rw [State.altOf ho ha]
    dsimp only
    rcases hs with hs | hs <;> rw [hs]
  rw [hjudge]
  unfold State.judgeRetire
  rw [ho]
  dsimp only
  rw [ht]
  dsimp only
  rw [State.handHomeWrite_eq ho, State.modAlt_some ho ha, Operation.withAlt_self ha]

/-! ### MARK-ALT (R127) -/

/-- The map after a change of the entry of one home track. -/
def State.mapped (v : State) (d : Drive) (t : Track) (f : SpareEntry → SpareEntry) : State :=
  { v with spareMap := v.spareMap.map fun e => if e.drive = d ∧ e.home = t then f e else e }

theorem State.modEntry_eq (t : Track) (f : SpareEntry → SpareEntry) : s.modEntry d t f = s.mapped d t f := by
  simp only [State.modEntry, State.mapped, SpareEntry.isFor_iff]

/-- The record of an alternate operation at MARK-ALT. -/
def AltOp.marking (a : AltOp) : AltOp := { a with step := .markAlt, hasEntry := true, fresh := !a.hasEntry, writePassed := true }

/-- MARK-ALT's write of the home field of its candidate. -/
def Operation.marksAlt (o : Operation) (a : AltOp) (c : Track) : Operation :=
  (o.withAlt a.marking).handedWrite { address := c, condition := .alternate o.home }

theorem State.markAlt_full (ho : s.op d = some o) (ha : o.alt = some a) (hc : a.candidate = some q) (he : a.hasEntry = false)
    (hl : 96 ≤ s.spareMap.length) :
    s.markAlt d = (s.altered d o { a with step := .markAlt }).endAlternate d (.fault .mapFull .none) := by
  have hcand : o.alt.bind AltOp.candidate = some q := by rw [ha]; exact hc
  unfold State.markAlt
  rw [ho]
  dsimp only
  rw [hcand, ha]
  dsimp only
  rw [if_pos ⟨he, hl⟩, State.modAlt_some ho ha]

/-- The cursor passes the candidate, and the write is asked for, whatever became of the map. -/
theorem State.markAlt_marks (ho : s.op d = some o) (ha : o.alt = some a) (hc : a.candidate = some q)
    (hm : a.hasEntry = true ∨ s.spareMap.length < 96)
    (hv : (s.setRecord d { s.record d with cursor := (s.record d).cursor + 1 }).takePending d o.home q a.hasEntry = v)
    (hvo : v.op d = some o) : s.markAlt d = v.setOp d (some (o.marksAlt a q)) := by
  have hno : ¬ (a.hasEntry = false ∧ 96 ≤ s.spareMap.length) := by
    rintro ⟨he, hl⟩
    rcases hm with h | h
    · simp [he] at h
    · omega
  unfold State.markAlt
  rw [ho]
  dsimp only
  rw [ha, Option.bind_some, hc]
  dsimp only
  rw [if_neg hno, hv, State.modAlt_some hvo ha, State.handHomeWrite_eq State.altered_op]
  exact State.setOp_setOp _ _ _ _

theorem State.takePending_enters {b : Bool} (hb : b = true) (hh : s.heldElsewhere d q c = false) (hp : s.places d q c = true) :
    s.takePending d q c b = s.mapped d q fun e => { e with pending := some c, active := true } := by
  subst hb
  unfold State.takePending
  rw [hh, hp, if_neg (by simp), if_pos rfl, State.modEntry_eq]

theorem State.takePending_joins {b : Bool} (hb : b = false) (hh : s.heldElsewhere d q c = false) (hp : s.places d q c = true)
    (he : (s.entryFor d q).isSome = false) : s.takePending d q c b = s.addEntry { drive := d, home := q, current := none, pending := some c, origin := .assigned, active := true } := by
  subst hb
  unfold State.takePending
  rw [hh, hp, he]
  rfl

/-- In states that no run reaches the map stays (log 56). -/
theorem State.takePending_stays {b : Bool} (h : s.heldElsewhere d q c = true ∨ s.places d q c = false ∨
    b = false ∧ (s.entryFor d q).isSome = true) : s.takePending d q c b = s := by
  unfold State.takePending
  by_cases hx : s.heldElsewhere d q c = true ∨ s.places d q c = false
  · exact if_pos hx
  · obtain ⟨hb, he⟩ := (or_assoc.mpr h).resolve_left hx
    rw [if_neg hx, hb, if_neg Bool.false_ne_true, if_pos he]

/-- The cursor has no part in where an entry's tracks lie (R107). -/
theorem State.places_cursor (n : Nat) : (s.setRecord d { s.record d with cursor := n }).places d q c = s.places d q c := by
  have hrec : (s.setRecord d { s.record d with cursor := n }).record d = { s.record d with cursor := n } := State.setRecord_record_same _ _ _
  have htype : (s.setRecord d { s.record d with cursor := n }).typeOf d = s.typeOf d := by
    have hno : ((s.setRecord d { s.record d with cursor := n }).record d).typeNo = (s.record d).typeNo := by rw [hrec]
    exact congrArg (fun i : TypeNo => (s.types[i]).getD DriveType.absent) hno
  unfold State.places
  rw [hrec, htype]

theorem State.places_tracks : s.places d q c = true ↔ (s.record d).configured = true ∧ q.cyl < (s.typeOf d).dataCyls ∧
    q.head < (s.typeOf d).heads ∧ (s.typeOf d).dataCyls ≤ c.cyl ∧ c.cyl < (s.typeOf d).dataCyls + (s.typeOf d).altCyls ∧
    c.head < (s.typeOf d).heads := by
  rw [State.places_iff, DriveType.isHome_iff, DriveType.isAlternate_iff, and_assoc]

/-! ### A home field written, by step (R127 to R131) -/

theorem State.altWritten_markAlt (ho : s.op d = some o) (ha : o.alt = some a) (hs : a.step = .markAlt) : s.altWritten d true = s.markHome d ∧
    s.altWritten d false = (s.undoPending d o.home a.fresh).endAlternate d (.fault .dataCheck .altUnmarked) := by
  unfold State.altWritten
  rw [ho]
  dsimp only
  rw [ha]
  dsimp only
  rw [hs]
  exact ⟨rfl, rfl⟩

theorem State.homeUnmarked_eq (ho : s.op d = some o) (ha : o.alt = some a) (k : FaultKind) (det : Detail) : s.homeUnmarked d k det =
    (s.altered d o { a with firstFault := a.firstFault <|> some (k, det), marked := some false }).commit d := by
  unfold State.homeUnmarked State.noteFirstFault
  rw [State.modAlt_some ho ha, State.modAlt_altered]
  rfl

theorem State.altWritten_markHome (ho : s.op d = some o) (ha : o.alt = some a) (hs : a.step = .markHome) :
    s.altWritten d true = (s.altered d o { a with marked := some true }).commit d ∧
    s.altWritten d false = (s.altered d o { a with
      firstFault := a.firstFault <|> some (.dataCheck, .homeUnmarked), marked := some false }).commit d := by
  rw [← State.homeUnmarked_eq ho ha, ← State.modAlt_some ho ha fun a => { a with marked := some true }]
  unfold State.altWritten
  rw [ho]
  dsimp only
  rw [ha]
  dsimp only
  rw [hs]
  exact ⟨rfl, rfl⟩

theorem State.altWritten_rewriteHome (ho : s.op d = some o) (ha : o.alt = some a) (hs : a.step = .rewriteHome) :
    s.altWritten d true = (s.altered d o { a with marked := some true }).retireAlt d ∧
    s.altWritten d false = (s.altered d o { a with marked := some false }).endAlternate d (.fault .dataCheck .homeUnmarked) := by
  rw [← State.modAlt_some ho ha fun a => { a with marked := some true }, ← State.modAlt_some ho ha fun a => { a with marked := some false }]
  unfold State.altWritten
  rw [ho]
  dsimp only
  rw [ha]
  dsimp only
  rw [hs]
  exact ⟨rfl, rfl⟩

theorem State.altWritten_retired (ho : s.op d = some o) (ha : o.alt = some a) (hs : a.step = .commit ∨ a.step = .retireAlt) (g : Bool) :
    s.altWritten d g = (s.altered d o { a with retired := some g }).finishAlternate d := by
  rw [← State.modAlt_some ho ha fun a => { a with retired := some g }]
  unfold State.altWritten
  rw [ho]
  dsimp only
  rw [ha]
  dsimp only
  rcases hs with hs | hs <;> rw [hs]

/-! ### MARK-HOME, COMMIT and RETIRE-ALT (R128, R129, R131) -/

/-- MARK-HOME is on the way to the home track. -/
def Operation.markingHome (o : Operation) (a : AltOp) : Operation :=
  { o with target := some o.home, work := .positioning, alt := some { a with step := .markHome } }

theorem State.markHome_seeks (ho : s.op d = some o) (ha : o.alt = some a) (hon : (s.pos d).actuator = .onCylinder)
    (hk : (s.pos d).cyl = some k) (hne : k ≠ o.home.cyl) (hu : (s.pos d).unanswered < 2) : s.markHome d =
      (s.setOp d (some (o.markingHome a))).sent d .seeking o.home.cyl (distance o.home.cyl k) := by
  have hmove := State.moveTo_seeks (s := s.setOp d (some (o.markingHome a))) (d := d) (c := k) (t := o.home) hon hk hne hu
  unfold State.markHome
  rw [ho]
  dsimp only
  rw [State.modAlt_some ho ha, State.modOp_altered]
  show (match (s.setOp d (some (o.markingHome a))).moveTo d o.home with
    | (s, .arrived) => _
    | (s, .moving) | (s, .waiting) => s
    | (s, .noResponse) => _) = _
  rw [hmove]

theorem State.markHome_here {st : Condition} (ho : s.op d = some o) (ha : o.alt = some a) (hon : (s.pos d).actuator = .onCylinder)
    (hk : (s.pos d).cyl = some o.home.cyl) (hh : (s.pos d).head = some o.home.head) (hs : (s.pos d).status = some st)
    (hc : a.candidate = some q) : s.markHome d = s.setOp d (some ((o.markingHome a).handedWrite
      { address := o.home, condition := .defective q })) := by
  have hop : (s.setOp d (some (o.markingHome a))).op d = some (o.markingHome a) := State.setOp_op_same _ _ _
  have hmove := State.moveTo_here (s := s.setOp d (some (o.markingHome a))) (d := d) (t := o.home) hon hk
  rw [State.selectHead_same (s := s.setOp d (some (o.markingHome a))) hh] at hmove
  have hstatus : ((s.setOp d (some (o.markingHome a))).pos d).status ≠ none := by
    rw [State.setOp_pos, hs]
    nofun
  have hwrite : (s.setOp d (some (o.markingHome a))).requestMarkHome d = s.setOp d (some ((o.markingHome a).handedWrite
      { address := o.home, condition := .defective q })) := by
    have hcand : (o.markingHome a).alt.bind AltOp.candidate = some q := hc
    unfold State.requestMarkHome
    rw [hop]
    dsimp only
    rw [hcand]
    dsimp only
    rw [State.handHomeWrite_eq hop, State.setOp_setOp]
    rfl
  unfold State.markHome
  rw [ho]
  dsimp only
  rw [State.modAlt_some ho ha, State.modOp_altered]
  show (match (s.setOp d (some (o.markingHome a))).moveTo d o.home with
    | (s, .arrived) => if (s.pos d).status = none then s.handHomeRead d else s.requestMarkHome d
    | (s, .moving) | (s, .waiting) => s
    | (s, .noResponse) => _) = _
  rw [hmove]
  dsimp only
  rw [if_neg hstatus, hwrite]

theorem State.goRetire_seeks (ho : s.op d = some o) (hon : (s.pos d).actuator = .onCylinder) (hk : (s.pos d).cyl = some k)
    (hne : k ≠ q.cyl) (hu : (s.pos d).unanswered < 2) : s.goRetire d q =
      (s.setOp d (some { o with target := some q, work := .positioning })).sent d .seeking q.cyl (distance q.cyl k) := by
  have hmove := State.moveTo_seeks (s := s.setOp d (some { o with target := some q, work := .positioning })) (d := d) (c := k) (t := q)
    hon hk hne hu
  unfold State.goRetire
  dsimp only
  rw [State.modOp_some _ _ _ ho, hmove]

theorem State.goRetire_here (ho : s.op d = some o) (hon : (s.pos d).actuator = .onCylinder) (hk : (s.pos d).cyl = some q.cyl)
    (hh : (s.pos d).head = some q.head) : s.goRetire d q = s.setOp d (some { o.handedHome with target := some q }) := by
  have hmove := State.moveTo_here (s := s.setOp d (some { o with target := some q, work := .positioning })) (d := d) (t := q) hon hk
  rw [State.selectHead_same (s := s.setOp d (some { o with target := some q, work := .positioning })) hh] at hmove
  unfold State.goRetire
  dsimp only
  rw [State.modOp_some _ _ _ ho, hmove]
  dsimp only
  rw [State.handHomeRead_eq (State.setOp_op_same _ _ _), State.setOp_setOp]
  rfl

/-- COMMIT makes the pending alternate current (R129). -/
def State.committed (s : State) (d : Drive) (o : Operation) (b : AltOp) : State := (s.altered d o b).mapped d o.home fun e =>
  { e with current := e.pending, pending := none, origin := .assigned, active := true }

theorem State.committed_altered (ho : s.op d = some o) (ha : o.alt = some a) (f : AltOp → AltOp) :
    (s.modEntry d o.home fun e => { e with current := e.pending, pending := none, origin := .assigned, active := true }).modAlt d f =
      s.committed d o (f a) := by
  rw [State.modEntry_eq]
  exact State.modAlt_some (s := s.mapped d o.home _) ho ha f

theorem State.committed_modAlt (f : AltOp → AltOp) : (s.committed d o b).modAlt d f = s.committed d o (f b) := by
  have h := State.modAlt_altered (s := s.mapped d o.home fun e =>
    { e with current := e.pending, pending := none, origin := .assigned, active := true }) (d := d) (o := o) (b := b) f
  exact h

/-- The operation's first fault is an EQUIPMENT CHECK. -/
def AltOp.checked (a : AltOp) : Bool :=
  match a.firstFault with
  | some (k, _) => decide (k = .equipmentCheck)
  | none => false

theorem AltOp.checked_iff : a.checked = true ↔ ∃ x, a.firstFault = some (.equipmentCheck, x) := by
  unfold AltOp.checked
  rcases a.firstFault with _ | ⟨k, x⟩
  · simp
  · simp

theorem State.commit_new (ho : s.op d = some o) (ha : o.alt = some a) (hn : a.old = none) :
    s.commit d = (s.committed d o { a with step := .commit }).finishAlternate d := by
  unfold State.commit
  rw [ho]
  dsimp only
  rw [ha]
  dsimp only
  rw [State.committed_altered ho ha, hn]

/-- A re-spare retires its old alternate, unless the positioner is UNCALIBRATED after an EQUIPMENT CHECK. -/
theorem State.commit_old (ho : s.op d = some o) (ha : o.alt = some a) (hq : a.old = some q) :
    s.commit d = if a.checked = true ∧ (s.pos d).actuator = .uncalibrated
      then (s.committed d o { a with step := .commit, retired := some false }).finishAlternate d
      else (s.committed d o { a with step := .commit }).goRetire d q := by
  unfold State.commit
  rw [ho]
  dsimp only
  rw [ha]
  dsimp only
  rw [State.committed_altered ho ha, hq, State.committed_modAlt]
  rfl

theorem State.retireAlt_old (ho : s.op d = some o) (ha : o.alt = some a) (hq : a.old = some q) :
    s.retireAlt d = (s.altered d o { a with step := .retireAlt }).goRetire d q := by
  unfold State.retireAlt
  rw [State.altOf ho ha]
  dsimp only
  rw [State.modAlt_some ho ha, hq]

/-! ### A positioning that fails, by step (R126, R128, R129, R132) -/

theorem State.equipmentCheck_alternate (ho : s.op d = some o) (ha : o.alt = some a) (det : Detail) :
    s.equipmentCheck d det = s.altPositioningFault d det := by
  unfold State.equipmentCheck
  rw [ho]
  dsimp only
  rw [ha]
  rfl

theorem State.altPositioningFault_ends (ho : s.op d = some o) (ha : o.alt = some a) (det : Detail)
    (hs : a.step = .pick ∨ a.step = .probe ∨ a.step = .markAlt ∨ a.step = .approach ∨ a.step = .rewriteHome) :
    s.altPositioningFault d det = s.endAlternate d (.fault .equipmentCheck det) := by
  unfold State.altPositioningFault
  rw [State.altOf ho ha]
  dsimp only
  rcases hs with hs | hs | hs | hs | hs <;> rw [hs]

theorem State.altPositioningFault_markHome (ho : s.op d = some o) (ha : o.alt = some a) (det : Detail) (hs : a.step = .markHome) :
    s.altPositioningFault d det = (s.altered d o { a with
      firstFault := a.firstFault <|> some (.equipmentCheck, det), marked := some false }).commit d := by
  rw [← State.homeUnmarked_eq ho ha]
  unfold State.altPositioningFault
  rw [State.altOf ho ha]
  dsimp only
  rw [hs]

theorem State.altPositioningFault_retire (ho : s.op d = some o) (ha : o.alt = some a) (det : Detail)
    (hs : a.step = .commit ∨ a.step = .retireAlt) : s.altPositioningFault d det = (s.altered d o { a with
      firstFault := a.firstFault <|> some (.equipmentCheck, det), retired := some false }).finishAlternate d := by
  have hnote : ((s.noteFirstFault d .equipmentCheck det).modAlt d fun a => { a with retired := some false }) = s.altered d o { a with
      firstFault := a.firstFault <|> some (.equipmentCheck, det), retired := some false } := by
    unfold State.noteFirstFault
    rw [State.modAlt_some ho ha, State.modAlt_altered]
    rfl
  rw [← hnote]
  unfold State.altPositioningFault
  rw [State.altOf ho ha]
  dsimp only
  rcases hs with hs | hs <;> rw [hs]

/-! ### The ends (R129 to R132) -/

theorem State.finishAlternate_eq (ho : s.op d = some o) (ha : o.alt = some a) : s.finishAlternate d =
    (if o.kind = .restoreTrack then (s.removeSuspects d (o.home :: a.old.toList)).deleteEntry d o.home
      else s.removeSuspects d (o.home :: a.old.toList)).endAlternate d
        ((a.firstFault.map fun x => AltOutcome.fault x.1 x.2).getD .done) := by
  unfold State.finishAlternate
  rw [ho]
  dsimp only
  rw [ha]
  dsimp only
  rcases a.firstFault with _ | ⟨k, det⟩ <;> rfl

/-- The pending status of an alternate operation that ends (R102, R130). -/
def AltResult.status (r : AltResult) (out : AltOutcome) : Status :=
  match out with
  | .fault k det => { fault := true, disconnect := true, reason := .fault k, detail := det, alt := some r }
  | .done | .aborted => { done := true, disconnect := true, alt := some r }

/-- The operation's record with its result kept. -/
def Operation.keptAlt (o : Operation) (a : AltOp) (r : AltResult) (out : AltOutcome) : Operation :=
  { o with alt := some (a.ended out), work := .ended, orient := none,
           pending := some { status := r.status out, record := none }, statusDeferred := PortSet.none }

/-- The state in which an alternate operation keeps its result. -/
def State.keptAlt (s : State) (d : Drive) (o : Operation) (a : AltOp) (out : AltOutcome) : State :=
  ({ s with lastAlt := some (s.altResult d o a out) } : State).setOp d (some (o.keptAlt a (s.altResult d o a out) out))

theorem State.endAlternate_keeps (ho : s.op d = some o) (ha : o.alt = some a) (out : AltOutcome) :
    s.endAlternate d out = ((s.keptAlt d o a out).freeInternalPath d).dropUnclaimed d := by
  have hop : ({ s with lastAlt := some (s.altResult d o a out) } : State).op d = some o := ho
  unfold State.endAlternate
  rw [ho]
  dsimp only
  rw [ha]
  dsimp only
  unfold State.keepPending
  rw [State.modAlt_some hop ha, State.modOp_altered]
  cases out <;> rfl

theorem State.dropUnclaimed_pending {y : Pending} (ho : s.op d = some o) (ha : o.alt = some a) (hp : o.pending = some y) :
    s.dropUnclaimed d = if s.unclaimable o a then (s.withdrawOffersOf d).endOperation d else s := by
  unfold State.dropUnclaimed
  rw [ho]
  dsimp only
  rw [ha, hp]

theorem State.unclaimable_iff : s.unclaimable o a = true ↔
    a.issuerHeld = false ∧ (o.group = 0 ∨ ∀ p, (s.port p).group ≠ o.group) := by
  simp [State.unclaimable, mem_allPorts]

theorem State.endAlternate_of (ho : s.op d = some o) (ha : o.alt = some a) (out : AltOutcome) : s.endAlternate d out =
    if s.unclaimable o a then (((s.keptAlt d o a out).freeInternalPath d).withdrawOffersOf d).endOperation d
    else (s.keptAlt d o a out).freeInternalPath d := by
  have hop : ((s.keptAlt d o a out).freeInternalPath d).op d = some (o.keptAlt a (s.altResult d o a out) out) :=
    State.setOp_op_same ({ s with lastAlt := some (s.altResult d o a out) } : State) d _
  have hclaim : ((s.keptAlt d o a out).freeInternalPath d).unclaimable (o.keptAlt a (s.altResult d o a out) out) (a.ended out) =
      s.unclaimable o a := by
    unfold State.unclaimable
    rw [AltOp.ended_issuerHeld]
    rfl
  rw [State.endAlternate_keeps ho ha, State.dropUnclaimed_pending hop rfl rfl, hclaim]

end Alternates

/-- Settles O44: PICK, a home field read and written by step, MARK-ALT and what follows it, and the ends. -/
theorem pickTakesTheTrackAtTheCursor : Obligations.PickTakesTheTrackAtTheCursor := by
  unfold Obligations.PickTakesTheTrackAtTheCursor
  intro s d o a n ho ha cur c handed home altered write mapped committed cleared outcome
  refine ⟨State.pick_spent ho ha, State.pick_exhausted ho ha, fun ht hc => ⟨fun h => ?_, fun h k hon hk hne hu => ?_⟩,
    fun f => ⟨State.altHomeRead_probe ho ha, fun hs q hq => State.altHomeRead_markHome ho ha hs hq, State.altHomeRead_approach ho ha,
      fun hs q hq => State.altHomeRead_retire ho ha hs hq⟩, fun q hq => ?_, fun hs => ?_, State.altWritten_markHome ho ha,
    State.altWritten_rewriteHome ho ha, State.altWritten_retired ho ha, fun k hon hk => ?_, State.commit_new ho ha,
    fun q hq => ?_, fun q hq => State.retireAlt_old ho ha hq, fun det => ?_, fun hk => ?_, fun hk => ?_, fun out => ?_⟩
  · exact State.pick_skips ho ha ht hc (State.isCurrentAlternate_iff.mpr h)
  · have hcur : s.isCurrentAlternate d c = false := by
      rw [← Bool.not_eq_true, State.isCurrentAlternate_iff]
      exact fun ⟨e, he, hd, hx⟩ => h e he hd hx
    exact State.pick_goes ho ha ht hc hcur hon hk hne hu
  · intro marking passed
    refine ⟨fun he hl => State.markAlt_full ho ha hq he hl, ?_⟩
    intro held entered ty placed
    have hheld : ∀ cur', (s.setRecord d { s.record d with cursor := cur' }).heldElsewhere d home q = true ↔ held := fun _ =>
      State.heldElsewhere_iff
    have hentered : ∀ cur', ((s.setRecord d { s.record d with cursor := cur' }).entryFor d home).isSome = true ↔ entered := fun _ =>
      State.entryFor_isSome
    have hplaced : ∀ cur', (s.setRecord d { s.record d with cursor := cur' }).places d home q = true ↔ placed := fun _ => by
      rw [State.places_cursor, State.places_tracks]
    refine ⟨fun he hh hp => ?_, fun he hl hh hp hn => ?_, fun h => ?_⟩
    · have hv := State.takePending_enters he (Bool.eq_false_iff.mpr (mt (hheld (cur + 1)).mp hh)) ((hplaced (cur + 1)).mpr hp)
      rw [State.markAlt_marks ho ha hq (.inl he) hv ho]
      rfl
    · have hv := State.takePending_joins he (Bool.eq_false_iff.mpr (mt (hheld (cur + 1)).mp hh)) ((hplaced (cur + 1)).mpr hp)
        (Bool.eq_false_iff.mpr (mt (hentered (cur + 1)).mp hn))
      rw [State.markAlt_marks ho ha hq (.inr hl) hv ho]
      rfl
    · have hm : a.hasEntry = true ∨ s.spareMap.length < 96 := h.imp And.left fun h => h.2.1
      have hv := State.takePending_stays (s := s.setRecord d { s.record d with cursor := cur + 1 }) (d := d) (q := home) (c := q)
        (b := a.hasEntry) (by
          rw [hheld, ← Bool.not_eq_true (State.places _ _ _ _), hplaced, hentered]
          rcases h with ⟨_, h | h⟩ | ⟨he, _, h | h | h⟩
          · exact .inl h
          · exact .inr (.inl h)
          · exact .inl h
          · exact .inr (.inl h)
          · exact .inr (.inr ⟨he, h⟩))
      rw [State.markAlt_marks ho ha hq hm hv ho]
      rfl
  · obtain ⟨hgood, hbad⟩ := State.altWritten_markAlt ho ha hs
    refine ⟨hgood, fun hf => ?_, fun hf => ?_⟩
    · rw [hbad, hf, State.undoPending, if_neg Bool.false_ne_true, State.modEntry_eq]
      rfl
    · rw [hbad, hf, State.undoPending, if_pos rfl]
      rfl
  · intro seek
    refine ⟨fun hne hu => State.markHome_seeks ho ha hon hk hne hu, fun q st he hh hst hq => ?_, fun q hne hu => ?_, fun q he hh => ?_⟩
    · exact State.markHome_here ho ha hon (he ▸ hk) hh hst hq
    · exact State.goRetire_seeks ho hon hk hne hu
    · exact State.goRetire_here ho hon (he ▸ hk) hh
  · rw [State.commit_old ho ha hq]
    refine ⟨fun h => if_neg fun ⟨hx, hun⟩ => ?_, fun x hx hun => if_pos ⟨AltOp.checked_iff.mpr ⟨x, hx⟩, hun⟩⟩
    obtain ⟨x, hx⟩ := AltOp.checked_iff.mp hx
    exact h.elim (fun h => h x hx) fun h => h hun
  · rw [State.equipmentCheck_alternate ho ha]
    exact ⟨State.altPositioningFault_ends ho ha det, State.altPositioningFault_markHome ho ha det,
      State.altPositioningFault_retire ho ha det⟩
  · rw [State.finishAlternate_eq ho ha, if_neg hk]
    rfl
  · rw [State.finishAlternate_eq ho ha, if_pos hk]
    rfl
  · intro result status ended kept
    have hresult : s.altResult d o a out = result := rfl
    have hkept : s.keptAlt d o a out = kept := by
      unfold State.keptAlt Operation.keptAlt
      rw [hresult]
      cases out <;> rfl
    rw [State.endAlternate_of ho ha, hkept]
    refine ⟨fun h => if_neg fun hx => ?_, fun hi hg => if_pos (State.unclaimable_iff.mpr ⟨hi, hg⟩)⟩
    obtain ⟨hi, hg⟩ := State.unclaimable_iff.mp hx
    rcases h with h | ⟨hne, p, hp⟩
    · simp [hi] at h
    · exact hg.elim hne fun hg => hg p hp

end Sys2Proof.Machine
end

section
/-! SUPPORT. The host bytes of a WRITE (8.7, 5.6). -/

namespace Sys2Proof.Machine

open Sys2Proof

section HostBytes
variable {s u v : State} {d : Drive} {p : Port} {o : Operation} {w : WriteCmd} {a off n m q l : Nat} {bs : List Byte}
  {rest more : List (Nat × Nat)} {check : Bool}

/-- The operation with its WRITE going on as `w`. -/
def Operation.writes (o : Operation) (w : WriteCmd) (check : Bool) : Operation :=
  { o with keyCheck := check, cmd := some (.write w) }

/-- The WRITE goes on as `w`, and one request follows for the l bytes from q on, before `more` (R153). -/
def State.asks (v : State) (d : Drive) (p : Port) (o : Operation) (w : WriteCmd) (check : Bool) (q l : Nat)
    (more : List (Nat × Nat)) : State :=
  (v.setOp d (some (o.writes { w with toAsk := if 256 < l then (q + 256, l - 256) :: more else more } check))).modPort p fun r =>
    { r with link := r.link ++ [.request (r.addressOf (.drive d)) q (min 256 l)], requests := r.requests ++ [(q, min 256 l)] }

-- The proofs before this one end before those after it begin: they have to compile within the check's memory.
set_option Elab.async false in
/-- Beside one request or held frame exactly one request follows (R153). -/
theorem State.requestBytes_next (ha : w.toAsk = (q, l) :: more)
    (hone : (v.port p).requests.length + (v.port p).held.length = 1) :
    (v.setOp d (some (o.writes w check))).requestBytes d p 2 = v.asks d p o w check q l more := by
  rw [State.requestBytes_one (o := o.writes w check) (w := w) (State.setOp_op_same _ _ _) rfl ha
      (by rw [State.setOp_port]; omega),
    State.requestBytes_full (by simp; omega), State.setOp_setOp]
  rfl

/-! ### DATA (R153) -/

theorem exec_data (hu : s.Finds u) (hr : u.dataIn p a off n bs = v) : exec (.data p a off n bs) s = .next v.serveClaims := by
  unfold exec execData
  exact (State.perform_finds _ hu).trans (by rw [hr])

/-- DATA that no connection of the port's window answers, or whose count is not that of its bytes, is discarded (8.7). -/
theorem State.dataIn_discarded (h : u.addressed p a = none ∨ n ≠ bs.length ∨ n < 1 ∨ 256 < n) : u.dataIn p a off n bs = u :=
  if_pos h

theorem State.dataIn_taken (hn : u.addressed p a ≠ none) (hlen : n = bs.length) (h1 : 1 ≤ n) (h256 : n ≤ 256)
    (hs : (u.port p).state = .connected) (hconn : (u.port p).conn = some (.drive d)) (ho : u.op d = some o)
    (hp : o.conn = some p) (hc : o.cmd = some (.write w)) : u.dataIn p a off n bs = u.hostBytes d p w off bs := by
  have hgood : ¬ (u.addressed p a = none ∨ n ≠ bs.length ∨ n < 1 ∨ 256 < n) := by
    rintro (h | h | h | h)
    · exact hn h
    · exact h hlen
    all_goals omega
  unfold State.dataIn
  rw [if_neg hgood, hs, hconn]
  dsimp only
  rw [State.opOn_some ho hp]
  dsimp only
  rw [hc]

theorem State.hostBytes_unasked (h : (u.port p).requests = []) : u.hostBytes d p w off bs = u := by
  unfold State.hostBytes
  rw [h]

theorem State.hostBytes_elsewhere (h : (u.port p).requests = (q, m) :: rest) (hq : q ≠ off ∨ 2 ≤ (u.port p).bufferCount) :
    u.hostBytes d p w off bs = u := by
  unfold State.hostBytes
  rw [h]
  exact if_neg fun hboth => hq.elim (fun hne => hne hboth.1.symm) (fun hfull => absurd hboth.2 (not_lt.mpr hfull))

/-- What stays to be asked for once a frame of the answer's n bytes has come (log 15). -/
def WriteCmd.leftAfter (w : WriteCmd) (off n m : Nat) : List (Nat × Nat) :=
  if n < m then (off + n, m - n) :: w.toAsk else w.toAsk

/-- The port with the frame held that answers its oldest request (R153). -/
def State.holds (u : State) (p : Port) (rest : List (Nat × Nat)) (off : Nat) (kept : List Byte) : State :=
  u.modPort p fun r => { r with requests := rest, held := r.held ++ [{ offset := off, bytes := kept }] }

theorem State.hostBytes_held (ho : u.op d = some o) (h : (u.port p).requests = (off, m) :: rest)
    (hfree : (u.port p).bufferCount < 2) : u.hostBytes d p w off bs =
      ((u.holds p rest off (bs.take m)).setOp d
        (some (o.writes { w with toAsk := w.leftAfter off bs.length m } o.keyCheck))).requestBytes d p 2 := by
  have hleft : (if (bs.take m).length < m then [(off + (bs.take m).length, m - (bs.take m).length)] else []) ++ w.toAsk =
      w.leftAfter off bs.length m := by
    unfold WriteCmd.leftAfter
    by_cases hshort : bs.length < m
    · rw [List.take_of_length_le hshort.le, if_pos hshort, if_pos hshort, List.singleton_append]
    · rw [List.length_take, Nat.min_eq_left (not_lt.mp hshort), if_neg (lt_irrefl m), if_neg hshort, List.nil_append]
  have hop : (u.holds p rest off (bs.take m)).op d = some o := ho
  unfold State.hostBytes
  rw [h]
  dsimp only
  rw [if_pos ⟨rfl, hfree⟩, hleft, State.setCmd]
  exact congrArg (fun x : State => x.requestBytes d p 2) (State.modOp_some _ _ _ hop)

theorem State.holds_requests : ((u.holds p rest off bs).port p).requests = rest := by simp [State.holds]

theorem State.holds_held : ((u.holds p rest off bs).port p).held = (u.port p).held ++ [{ offset := off, bytes := bs }] := by
  simp [State.holds]

/-- With nothing left to ask for, or beside another request or held frame, no request follows (R153). -/
theorem State.hostBytes_silent (ho : u.op d = some o) (h : (u.port p).requests = (off, m) :: rest)
    (hfree : (u.port p).bufferCount < 2)
    (hno : w.leftAfter off bs.length m = [] ∨ rest ≠ [] ∨ (u.port p).held ≠ []) : u.hostBytes d p w off bs =
      (u.holds p rest off (bs.take m)).setOp d (some (o.writes { w with toAsk := w.leftAfter off bs.length m } o.keyCheck)) := by
  rw [State.hostBytes_held ho h hfree]
  obtain hnil | hother := hno
  · exact State.requestBytes_none (State.setOp_op_same _ _ _) rfl hnil _
  · refine State.requestBytes_full ?_ _
    rw [State.setOp_port, State.holds_requests, State.holds_held, List.length_append, List.length_singleton]
    obtain hr | hh := hother
    · have := List.length_pos_iff.mpr hr
      omega
    · have := List.length_pos_iff.mpr hh
      omega

theorem State.hostBytes_asks (ho : u.op d = some o) (h : (u.port p).requests = [(off, m)])
    (hfree : (u.port p).bufferCount < 2) (hheld : (u.port p).held = [])
    (hl : w.leftAfter off bs.length m = (q, l) :: more) : u.hostBytes d p w off bs =
      (u.holds p [] off (bs.take m)).asks d p o w o.keyCheck q l more := by
  have hone : ((u.holds p [] off (bs.take m)).port p).requests.length +
      ((u.holds p [] off (bs.take m)).port p).held.length = 1 := by
    rw [State.holds_requests, State.holds_held, hheld]
    rfl
  rw [State.hostBytes_held ho h hfree, State.requestBytes_next hl hone]
  rfl

/-! ### BYTES DRAWN FOR WRITING (R93, R153, R97) -/

theorem exec_bytesDrawn (hu : s.Finds u) (hr : u.bytesDrawn d = v) :
    exec (.bytesDrawnForWriting d) s = .next v.serveClaims := by
  unfold exec execBytesDrawnForWriting
  exact (State.perform_finds _ hu).trans (by rw [hr])

theorem State.keyInTime_iff : u.keyInTime d o = true ↔
    ∃ r, o.current = some r ∧ o.lost = false ∧ u.inTime d o (r.start + 28) = true := by
  unfold State.keyInTime
  cases hcur : o.current with
  | none => simp
  | some r =>
    simp only [Option.some.injEq, exists_eq_left']
    exact State.reaches_iff

theorem State.writesNow_iff : u.writesNow d o w = true ↔ w.seek = none ∧ u.keyInTime d o = true := by
  simp [State.writesNow]

theorem State.bytesDrawn_early (ho : u.op d = some o) (hp : o.conn = some p) (hc : o.cmd = some (.write w))
    (h : ¬ u.writesNow d o w = true) : u.bytesDrawn d = u := by
  unfold State.bytesDrawn
  rw [ho]
  dsimp only
  rw [hp, hc]
  exact if_neg h

theorem State.bytesDrawn_now (ho : u.op d = some o) (hp : o.conn = some p) (hc : o.cmd = some (.write w))
    (h : u.writesNow d o w = true) : u.bytesDrawn d = u.drawBytes d p w := by
  unfold State.bytesDrawn
  rw [ho]
  dsimp only
  rw [hp, hc]
  exact if_pos h

/-- The held frame that stands next is the one drawn, and its slot is free (R153). -/
theorem State.drawNext_frame {c : Chunk} {front back : List Chunk} (ho : u.op d = some o)
    (hheld : (u.port p).held = front ++ c :: back) (hc : c.offset = w.drawn) (hrest : ∀ y ∈ front ++ back, y.offset ≠ w.drawn) :
    u.drawNext d p w = some (((u.modPort p fun r => { r with held := front ++ back }).setOp d
      (some { o with cmd := some (.write { w with bytes := w.bytes ++ c.bytes }) })),
      { w with bytes := w.bytes ++ c.bytes }) := by
  have hfind : (u.port p).held.find? (fun y => decide (y.offset = w.drawn)) = some c := by
    rw [hheld, List.find?_append,
      List.find?_eq_none.mpr fun y hy => by simpa using hrest y (List.mem_append_left _ hy), Option.none_or,
      List.find?_cons_of_pos (by simpa using hc)]
  have hfilter : (u.port p).held.filter (fun y => !decide (y.offset = w.drawn)) = front ++ back := by
    have hkeep : (front ++ back).filter (fun y => !decide (y.offset = w.drawn)) = front ++ back :=
      List.filter_eq_self.mpr fun y hy => by simpa using hrest y hy
    rw [hheld, List.filter_append, List.filter_cons_of_neg (by simpa using hc), ← List.filter_append, hkeep]
  have hop : (u.modPort p fun r => { r with held := front ++ back }).op d = some o := ho
  unfold State.drawNext
  rw [hfind]
  dsimp only
  rw [State.modPort_congr (g := fun r => { r with held := front ++ back }) (by rw [hfilter]), State.setCmd,
    State.modOp_some _ _ _ hop]

theorem State.drawNext_nothing (h : ∀ c ∈ (u.port p).held, c.offset ≠ w.drawn) : u.drawNext d p w = none := by
  have hfind : (u.port p).held.find? (fun y => decide (y.offset = w.drawn)) = none :=
    List.find?_eq_none.mpr fun y hy => by simpa using h y hy
  unfold State.drawNext
  rw [hfind]

/-- The WRITE with its data field begun. -/
def WriteCmd.began (w : WriteCmd) : WriteCmd := { w with begun := true }

theorem State.drawBytes_begun (ho : u.op d = some o) :
    (u.setCmd d (.write w.began)).modOp d (fun y => { y with keyCheck := false }) = u.setOp d (some (o.writes w.began false)) := by
  rw [State.setCmd, State.modOp_some _ _ _ ho, State.modOp_setOp]
  rfl

/-- With zeros going out, a stop taken, or all its bytes drawn, the WRITE draws nothing more (R97). -/
theorem State.drawBytes_over (ho : u.op d = some o) (h : w.zeroFill = true ∨ w.stop.isSome = true ∨ w.need ≤ w.drawn) :
    u.drawBytes d p w = u.setOp d (some (o.writes w.began false)) :=
  (if_pos h).trans (State.drawBytes_begun ho)

theorem State.drawBytes_frame {t : State} {w' : WriteCmd} (ho : u.op d = some o)
    (h : ¬ (w.zeroFill = true ∨ w.stop.isSome = true ∨ w.need ≤ w.drawn))
    (hn : (u.setOp d (some (o.writes w.began false))).drawNext d p w.began = some (t, w')) :
    u.drawBytes d p w = t.requestBytes d p 2 := by
  rw [← State.drawBytes_begun ho] at hn
  refine (if_neg h).trans ?_
  change (match ((u.setCmd d (.write w.began)).modOp d fun y => { y with keyCheck := false }).drawNext d p w.began with
    | some (s, _) => s.requestBytes d p 2
    | none => _) = _
  rw [hn]

theorem State.drawBytes_zeros (ho : u.op d = some o)
    (h : ¬ (w.zeroFill = true ∨ w.stop.isSome = true ∨ w.need ≤ w.drawn))
    (hn : ∀ c ∈ (u.port p).held, c.offset ≠ w.drawn) :
    u.drawBytes d p w = u.setOp d (some (o.writes { w with begun := true, zeroFill := true } false)) := by
  have hnone : ((u.setCmd d (.write w.began)).modOp d fun y => { y with keyCheck := false }).drawNext d p w.began = none := by
    rw [State.drawBytes_begun ho]
    exact State.drawNext_nothing hn
  refine (if_neg h).trans ?_
  change (match ((u.setCmd d (.write w.began)).modOp d fun y => { y with keyCheck := false }).drawNext d p w.began with
    | some (s, _) => s.requestBytes d p 2
    | none => ((u.setCmd d (.write w.began)).modOp d fun y => { y with keyCheck := false }).setCmd d
        (.write { w with begun := true, zeroFill := true })) = _
  rw [hnone, State.drawBytes_begun ho]
  exact State.setCmd_setOp

/-- The WRITE with its field begun and a frame's bytes drawn. -/
def WriteCmd.drew (w : WriteCmd) (bs : List Byte) : WriteCmd := { w with begun := true, bytes := w.bytes ++ bs }

/-- The port with these frames held. -/
def State.keeps (u : State) (p : Port) (fs : List Chunk) : State := u.modPort p fun r => { r with held := fs }

theorem State.drawBytes_draws {c : Chunk} {front back : List Chunk} (ho : u.op d = some o)
    (h : ¬ (w.zeroFill = true ∨ w.stop.isSome = true ∨ w.need ≤ w.drawn))
    (hheld : (u.port p).held = front ++ c :: back) (hc : c.offset = w.drawn)
    (hrest : ∀ y ∈ front ++ back, y.offset ≠ w.drawn) : u.drawBytes d p w =
      ((u.keeps p (front ++ back)).setOp d (some (o.writes (w.drew c.bytes) false))).requestBytes d p 2 := by
  rw [State.drawBytes_frame ho h
    (State.drawNext_frame (w := w.began) (o := o.writes w.began false) (State.setOp_op_same _ _ _) hheld hc hrest),
    State.modPort_setOp, State.setOp_setOp]
  rfl

end HostBytes

/-- Settles O48: by what discards a DATA frame, by what its bytes leave to be asked for, and by whether the field of the WRITE
is reached and which held frame stands next. -/
theorem hostBytesOfAWrite : Obligations.HostBytesOfAWrite := by
  unfold Obligations.HostBytesOfAWrite
  intro s u p d o w hu ho hp hc hs hconn going asked
  have haddr : ∀ a, u.addressed p a = (u.port p).named a := fun a => State.addressed_named (by simp [hs])
  have hframe : ∀ {a off n bs}, ¬ (u.addressed p a = none ∨ n ≠ bs.length ∨ n < 1 ∨ 256 < n) →
      u.dataIn p a off n bs = u.hostBytes d p w off bs := fun {a off n bs} h => by
    simp only [not_or, not_not, not_lt] at h
    obtain ⟨hn, hlen, h1, h256⟩ := h
    exact State.dataIn_taken hn hlen h1 h256 hs hconn ho hp hc
  refine ⟨fun a off n bs => ⟨fun h => ?_, fun m rest hreq hfull => ?_, fun m rest hn hlen h1 h256 hreq hfree => ?_⟩,
    fun h => ?_, fun r hcur hin hlost hseek => ⟨fun h => ?_, fun hz hstop hneed => ⟨fun c front back hheld hoff hrest => ?_, ?_⟩⟩⟩
  · refine exec_data hu ?_
    by_cases hbad : u.addressed p a = none ∨ n ≠ bs.length ∨ n < 1 ∨ 256 < n
    · exact State.dataIn_discarded hbad
    · rw [hframe hbad]
      simp only [not_or, not_not, not_lt] at hbad
      obtain ⟨hn, hlen, h1, h256⟩ := hbad
      rw [haddr] at hn
      obtain h | h | h | h | h | ⟨x, rest, hreq, hx⟩ := h
      · exact absurd h hn
      · exact absurd hlen h
      · omega
      · omega
      · exact State.hostBytes_unasked h
      · exact State.hostBytes_elsewhere (q := x.1) (m := x.2) hreq (.inl hx)
  · refine exec_data hu ?_
    by_cases hbad : u.addressed p a = none ∨ n ≠ bs.length ∨ n < 1 ∨ 256 < n
    · exact State.dataIn_discarded hbad
    · exact (hframe hbad).trans (State.hostBytes_elsewhere hreq (.inr hfull))
  · subst hlen
    have htaken := State.dataIn_taken (off := off) (by rwa [haddr]) rfl h1 h256 hs hconn ho hp hc
    intro v left
    refine ⟨fun hno => exec_data hu ?_, fun q l more hr hheld hleft => exec_data hu ?_⟩
    · exact htaken.trans (State.hostBytes_silent ho hreq hfree hno)
    · subst hr
      exact htaken.trans (State.hostBytes_asks ho hreq hfree hheld hleft)
  · refine exec_bytesDrawn hu (State.bytesDrawn_early ho hp hc fun hnow => ?_)
    obtain ⟨hseek, hkey⟩ := State.writesNow_iff.mp hnow
    obtain ⟨r, hcur, hlost, hin⟩ := State.keyInTime_iff.mp hkey
    obtain h | h | h := h
    · simp [hseek] at h
    · simp [hlost] at h
    · simp [h r hcur] at hin
  all_goals
    have hnow := State.bytesDrawn_now ho hp hc
      (State.writesNow_iff.mpr ⟨hseek, State.keyInTime_iff.mpr ⟨r, hcur, hlost, hin⟩⟩)
  · exact exec_bytesDrawn hu (hnow.trans (State.drawBytes_over ho h))
  · have hgoes : ¬ (w.zeroFill = true ∨ w.stop.isSome = true ∨ w.need ≤ w.drawn) := by
      simpa [hz, hstop, WriteCmd.drawn] using hneed
    have hdraws := hnow.trans (State.drawBytes_draws ho hgoes hheld hoff hrest)
    have hport : ((u.keeps p (front ++ back)).port p).held = front ++ back := by simp [State.keeps]
    have hreqs : ((u.keeps p (front ++ back)).port p).requests = (u.port p).requests := by simp [State.keeps]
    intro v w'
    refine ⟨fun hno => exec_bytesDrawn hu (hdraws.trans ?_), fun q l more hask hone => exec_bytesDrawn hu (hdraws.trans ?_)⟩
    · obtain hnil | hfull := hno
      · exact State.requestBytes_none (w := w.drew c.bytes) (State.setOp_op_same _ _ _) rfl hnil _
      · refine State.requestBytes_full ?_ _
        rwa [State.setOp_port, hport, hreqs]
    · exact State.requestBytes_next (w := w.drew c.bytes) hask (by rwa [hport, hreqs])
  · intro hnone
    have hgoes : ¬ (w.zeroFill = true ∨ w.stop.isSome = true ∨ w.need ≤ w.drawn) := by
      simpa [hz, hstop, WriteCmd.drawn] using hneed
    exact exec_bytesDrawn hu (hnow.trans (State.drawBytes_zeros ho hgoes hnone))

end Sys2Proof.Machine
end

section
/-! SUPPORT. Home fields read (6.3, 6.4, 3.5, 5.8). -/

namespace Sys2Proof.Machine

open Sys2Proof

section HomeFields
variable {s u v : State} {d : Drive} {p : Port} {o : Operation} {c : Option HomeField} {f : HomeField} {x t l : Track}
  {k : FaultKind} {det : Detail} {found : Option Condition} {n : Nat} {r : ReadCmd} {e : SpareEntry} {g found' : Condition}

/-! ### The event, and when it changes nothing -/

-- The proofs before this one end before those after it begin: they have to compile within the check's memory.
set_option Elab.async false in
/-- A drive's type depends on the tables alone. -/
theorem State.typeOf_congr (hr : v.records = u.records) (ht : v.types = u.types) : v.typeOf d = u.typeOf d := by
  have hrec : v.record d = u.record d := congrArg (fun w => w[d]) hr
  unfold State.typeOf State.loadedType
  simp only [ht, hrec]

theorem exec_homeFieldRead (hu : s.Finds u) (hr : (u.pos d).actuator ≠ .notReady) (hv : u.homeFieldArrives d c = v) :
    exec (.homeFieldRead d c) s = .next v.serveClaims := by
  unfold exec execHomeFieldRead
  exact (State.perform_finds _ hu).trans (by rw [State.fromReady, if_neg hr, hv])

theorem State.homeFieldArrives_none (ho : u.op d = none) : u.homeFieldArrives d c = u := by
  unfold State.homeFieldArrives
  rw [ho]

theorem State.homeFieldArrives_late (ho : u.op d = some o) (ht : u.inTime d o 0 = false) : u.homeFieldArrives d c = u := by
  unfold State.homeFieldArrives
  rw [ho]
  exact if_pos ht

theorem Operation.readsHome_iff : o.readsHome = true ↔ o.work = .readHome ∧ o.orient = none := by
  simp [Operation.readsHome]

theorem State.homeFieldArrives_internal (ho : u.op d = some o) (ht : u.inTime d o 0 = true) (hw : o.work = .readHome)
    (hn : o.orient = none) : u.homeFieldArrives d c = u.homeReadInternal d o c := by
  unfold State.homeFieldArrives
  rw [ho]
  dsimp only
  rw [if_neg (by simp [ht]), if_pos (Operation.readsHome_iff.mpr ⟨hw, hn⟩)]

theorem State.homeFieldArrives_unread (ho : u.op d = some o) (hh : o.work ≠ .readHome ∨ o.orient ≠ none)
    (hc : o.conn = none ∨ ∀ r, o.cmd ≠ some (.read r)) : u.homeFieldArrives d c = u := by
  unfold State.homeFieldArrives
  rw [ho]
  dsimp only
  rw [if_neg (c := o.readsHome = true) fun h => by
    obtain ⟨hw, hn⟩ := Operation.readsHome_iff.mp h
    exact hh.elim (fun g => g hw) (fun g => g hn)]
  split
  · rfl
  · split
    · rename_i r hp hcmd
      exact (hc.elim (fun g => by simp [g] at hp) fun g => absurd hcmd (g r))
    · rfl

theorem State.homeFieldArrives_inline (ho : u.op d = some o) (ht : u.inTime d o 0 = true) (hh : o.work ≠ .readHome)
    (hp : o.conn = some p) (hc : o.cmd = some (.read r)) (hr : r.phase = .home) :
    u.homeFieldArrives d c = u.homeReadInline d p o r c := by
  unfold State.homeFieldArrives
  rw [ho]
  dsimp only
  rw [if_neg (by simp [ht]), if_neg (fun h => hh (Operation.readsHome_iff.mp h).1), hp, hc]
  exact if_pos hr

/-! ### What the drive's track status becomes (R15) -/

/-- The state with this track status. -/
def State.knows (u : State) (d : Drive) (st : Option Condition) : State := u.modPos d fun q => { q with status := st }

/-- The status taken and the path of the INTERNAL grant FREE. -/
def State.freedWith (u : State) (d : Drive) (st : Option Condition) : State := (u.knows d st).freeInternalPath d

theorem State.freedWith_eq (st : Option Condition) : u.freedWith d st = { u.knows d st with
    paths := u.paths.map fun h => h.bind fun x => if x.drive = d ∧ x.port = none then none else some x } :=
  State.freeInternalPath_eq _ _

theorem State.freedWith_op (st : Option Condition) : (u.freedWith d st).op d = u.op d := by
  rw [State.freedWith_eq]
  rfl

theorem State.freedWith_spareMap (st : Option Condition) : (u.freedWith d st).spareMap = u.spareMap := by
  rw [State.freedWith_eq]
  rfl

theorem State.freedWith_tables (st : Option Condition) :
    (u.freedWith d st).records = u.records ∧ (u.freedWith d st).types = u.types := by
  rw [State.freedWith_eq]
  exact ⟨rfl, rfl⟩

theorem State.freedWith_now (st : Option Condition) : (u.freedWith d st).now = u.now := by
  rw [State.freedWith_eq]
  rfl

theorem State.freedWith_typeOf (st : Option Condition) : (u.freedWith d st).typeOf d = u.typeOf d := by
  rw [State.freedWith_eq]
  rfl

theorem State.freedWith_pos (st : Option Condition) : (u.freedWith d st).pos d = { u.pos d with status := st } := by
  rw [State.freedWith_eq]
  exact State.modPos_pos_same u d fun q => { q with status := st }

theorem State.homeRead_here (h : (u.pos d).selected = some f.address) :
    u.modPos d (fun q => q.homeRead (some f)) = u.knows d (some f.condition) :=
  State.modPos_congr (by simp [Positioner.homeRead, h])

theorem State.homeRead_elsewhere (h : (u.pos d).selected ≠ some f.address) :
    u.modPos d (fun q => q.homeRead (some f)) = u.knows d none :=
  State.modPos_congr (by simp [Positioner.homeRead, h])

theorem Positioner.mispositioned_iff {q : Positioner} : q.mispositioned (some f) = true ↔ q.selected ≠ some f.address :=
  decide_eq_true_iff

theorem State.homeReadInternal_wrong (h : (u.pos d).selected ≠ some f.address) :
    u.homeReadInternal d o (some f) = (u.freedWith d none).misposition d := by
  unfold State.homeReadInternal
  dsimp only
  rw [if_pos (Positioner.mispositioned_iff.mpr h), State.homeRead_elsewhere h]
  rfl

theorem State.homeReadInternal_judged (h : (u.pos d).selected = some f.address) (ha : o.alt = none) :
    u.homeReadInternal d o (some f) = (u.freedWith d (some f.condition)).judgeHome d f.condition := by
  unfold State.homeReadInternal
  dsimp only
  rw [if_neg fun hm => Positioner.mispositioned_iff.mp hm h, State.homeRead_here h, ha]
  rfl

theorem State.homeReadInternal_altered {a : AltOp} (h : (u.pos d).selected = some f.address) (ha : o.alt = some a) :
    u.homeReadInternal d o (some f) = (u.freedWith d (some f.condition)).altHomeRead d (some f.condition) := by
  unfold State.homeReadInternal
  dsimp only
  rw [if_neg fun hm => Positioner.mispositioned_iff.mp hm h, State.homeRead_here h, ha]
  rfl

theorem State.homeReadInternal_altCheck {a : AltOp} (ha : o.alt = some a) :
    u.homeReadInternal d o none = (u.freedWith d none).altHomeRead d none := by
  unfold State.homeReadInternal
  dsimp only
  rw [if_neg (by simp [Positioner.mispositioned]), ha]
  rfl

/-! ### Field checks (R95, R96) -/

/-- The operation with its field armed again (R95). -/
def Operation.rereading (o : Operation) : Operation :=
  { o with rereads := o.rereads + 1, retries := min 255 (o.retries + 1), rereadDue := true, marksSince := 0 }

/-- A check on the target track: the first one there is told to the suspect list (R96). -/
def State.told (u : State) (d : Drive) (o : Operation) (t l : Track) (k : FaultKind) : State :=
  (u.setOp d (some { o with reported := t :: o.reported })).suspectUpdate d t l k

theorem State.told_op : (u.told d o t l k).op d = some { o with reported := t :: o.reported } := by
  unfold State.told State.op
  rw [State.suspectUpdate_ops]
  exact State.setOp_op_same _ _ _

theorem State.told_typeOf : (u.told d o t l k).typeOf d = u.typeOf d :=
  State.typeOf_congr (State.suspectUpdate_records _ _ _ _ _) (State.suspectUpdate_types _ _ _ _ _)

theorem State.reportCheck_again (ho : u.op d = some o) (ht : o.target = some t) (hr : t ∈ o.reported) :
    u.reportCheck d k = u := by
  unfold State.reportCheck
  rw [ho]
  dsimp only
  rw [ht]
  exact if_pos hr

theorem State.reportCheck_first (ho : u.op d = some o) (ht : o.target = some t) (hl : o.logical = some l) (hr : t ∉ o.reported) :
    u.reportCheck d k = u.told d o t l k := by
  have hlogical : o.logical.getD t = l := by rw [hl, Option.getD_some]
  unfold State.reportCheck
  rw [ho]
  dsimp only
  rw [ht]
  dsimp only
  rw [if_neg hr, State.modOp_some _ _ _ ho, hlogical]
  rfl

theorem State.canReread_iff : u.canReread d o = true ↔ o.rereads < (u.typeOf d).retryBudget := decide_eq_true_iff

theorem State.reread_eq (ho : u.op d = some o) : u.reread d = u.setOp d (some o.rereading) := State.modOp_some _ _ _ ho

theorem State.homeReadInternal_check (ha : o.alt = none) (hv : (u.knows d none).reportCheck d .homeCheck = v) :
    u.homeReadInternal d o none =
      if v.canReread d o then v.reread d else (v.freeInternalPath d).pendingFault d .homeCheck .none none := by
  unfold State.homeReadInternal
  dsimp only
  rw [if_neg (by simp [Positioner.mispositioned]), ha]
  dsimp only
  rw [show (u.modPos d fun q => q.homeRead none).reportCheck d .homeCheck = v from hv]

/-! ### Verification and learning (R110, R111, R113) -/

theorem State.opVerdict_eq : u.opVerdict d o g = u.verdict d o.home (o.expected.getD .good) g := rfl

theorem State.verdict_learns (hv : u.verdict d t g h = .learn x) : (u.typeOf d).isAlternate x = true := by
  have hpointer : ∀ q, (if (u.typeOf d).isAlternate q = false then Verdict.conflict .pointerRange
      else if u.heldElsewhere d t q = true then .conflict .pointerHeld else .learn q) = .learn x →
      (u.typeOf d).isAlternate x = true := fun q hq => by
    by_cases halt : (u.typeOf d).isAlternate q = false
    · simp [halt] at hq
    · rw [if_neg halt] at hq
      split at hq
      · cases hq
      · cases hq
        simpa using halt
  cases g with
  | alternate y =>
    have hsplit : (if h = Condition.alternate y then Verdict.verified else .conflict .alternateCondition) = .learn x := hv
    split at hsplit <;> cases hsplit
  | good | defective | freeAlternate | retired =>
    cases h with
    | defective q => exact hpointer q hv
    | good | freeAlternate | alternate | retired => cases hv

theorem State.confirmGood_stands (h : ∀ e, u.entryFor d t = some e → e.active = true) : u.confirmGood d t = u := by
  unfold State.confirmGood
  cases he : u.entryFor d t with
  | none => rfl
  | some e => exact if_pos (h e he)

theorem State.confirmGood_deletes (he : u.entryFor d t = some e) (ha : e.active = false) : u.confirmGood d t =
    { u with spareMap := u.spareMap.filter fun e => !(decide (e.drive = d) && decide (e.home = t)) } := by
  unfold State.confirmGood
  rw [he]
  exact if_neg (by simp [ha])

theorem State.noteConflict_other (h : det ≠ .alternateCondition) : u.noteConflict d det = u := by
  unfold State.noteConflict
  split
  · exact absurd rfl h
  · rfl

theorem State.noteConflict_alternate (ho : u.op d = some o) (he : o.entry = some t) :
    u.noteConflict d .alternateCondition = u.mapped d t fun e => { e with active := false } := by
  have hentry : (u.op d).bind Operation.entry = some t := by rw [ho]; exact he
  unfold State.noteConflict
  rw [hentry]
  exact State.modEntry_eq _ _

/-- The operation with the track learned as its target. -/
def Operation.learnt (o : Operation) (x : Track) (e : Option Track) : Operation :=
  { o with target := some x, expected := some (.alternate o.home), entry := e }

theorem State.learn_op (t x : Track) : (u.learn d t x).op d = u.op d := by
  unfold State.learn
  split
  · rfl
  · split <;> rfl

theorem State.learnInOp_eq (ho : u.op d = some o) (hp : u.places d o.home x = true) : u.learnInOp d o.home x =
    (u.learn d o.home x).setOp d (some (o.learnt x (((u.learn d o.home x).entryFor d o.home).map SpareEntry.home))) := by
  unfold State.learnInOp
  dsimp only
  rw [if_pos hp, State.modOp_some _ _ _ ((State.learn_op _ _).trans ho)]
  rfl

theorem State.judgeHome_verified (ho : u.op d = some o) (hv : u.verdict d o.home (o.expected.getD .good) g = .verified)
    (hs : (if o.expected = some .good then u.confirmGood d o.home else u) = v) : u.judgeHome d g = v.handReconnect d := by
  unfold State.judgeHome
  rw [ho]
  dsimp only
  rw [State.opVerdict_eq, hv]
  exact congrArg (fun w : State => w.handReconnect d) hs

theorem State.judgeHome_conflict (ho : u.op d = some o) (hv : u.verdict d o.home (o.expected.getD .good) g = .conflict det)
    (hs : u.noteConflict d det = v) : u.judgeHome d g = v.pendingFault d .spareConflict det (some g) := by
  unfold State.judgeHome
  rw [ho]
  dsimp only
  rw [State.opVerdict_eq, hv]
  dsimp only
  rw [hs]

theorem State.judgeHome_learns (ho : u.op d = some o) (hv : u.verdict d o.home (o.expected.getD .good) g = .learn x)
    (hp : u.places d o.home x = true) : u.judgeHome d g = ((u.learn d o.home x).setOp d
      (some (o.learnt x (((u.learn d o.home x).entryFor d o.home).map SpareEntry.home)))).reposition d x := by
  unfold State.judgeHome
  rw [ho]
  dsimp only
  rw [State.opVerdict_eq, hv]
  dsimp only
  rw [State.learnInOp_eq ho hp]

/-- The operation waiting for its host (R56). -/
def Operation.waits (o : Operation) : Operation :=
  { o with
    rereads := 0, rereadDue := false, work := .reconnect,
    orient := some { external := true, sector := if o.reconnected then 0 else o.sector, req := .dormant, windowOpen := false,
                     later := false, deferred := PortSet.none, tested := false } }

theorem State.handReconnect_eq (ho : u.op d = some o) : u.handReconnect d = u.setOp d (some o.waits) := State.modOp_some _ _ _ ho

/-! ### A misposition of a disconnected operation (R45) -/

theorem State.misposition_recovers (ho : u.op d = some o) (hr : o.recovery = false) (hu : (u.pos d).unanswered < 2) :
    u.misposition d = (u.setOp d (some { o with recovery := true, work := .positioning, orient := none })).modPos d
      (sentHome (u.typeOf d) u.now) := by
  have hop : (u.modPos d fun q => { q with cyl := none, status := none }).op d = some o := ho
  have hfewer : (((u.modPos d fun q => { q with cyl := none, status := none }).setOp d
      (some { o with recovery := true, work := .positioning, orient := none })).pos d).unanswered < 2 := by
    rw [State.setOp_pos, State.modPos_pos_same]
    exact hu
  unfold State.misposition
  dsimp only
  rw [hop]
  dsimp only
  rw [if_neg (by simp [hr]), State.recover_eq, State.modOp_some _ _ _ hop, State.orderRecalibrate,
    State.orderMotion_fewer hfewer]
  exact State.modPos_modPos (u.setOp d (some { o with recovery := true, work := .positioning, orient := none })) d
    (fun q => { q with cyl := none, status := none }) (sentHome (u.typeOf d) u.now)

theorem State.misposition_spent (ho : u.op d = some o) (ha : o.alt = none) (hr : o.recovery = true) : u.misposition d =
    (u.modPos d Positioner.uncalibrate).pendingFault d .equipmentCheck .misposition none := by
  have hop : (u.modPos d fun q => { q with cyl := none, status := none }).op d = some o := ho
  have hpos : (u.modPos d fun q => { q with cyl := none, status := none }).modPos d Positioner.uncalibrate =
      u.modPos d Positioner.uncalibrate := State.modPos_modPos _ _ _ _
  unfold State.misposition
  dsimp only
  rw [hop]
  dsimp only
  rw [if_pos hr, hpos, State.equipmentCheck_plain (u := u.modPos d Positioner.uncalibrate) ho ha]

/-! ### In-line in a span (R117) -/

theorem State.homeReadInline_judged (h : (u.pos d).selected = some f.address) :
    u.homeReadInline d p o r (some f) = (u.knows d (some f.condition)).judgeInline d p o r f.condition := by
  unfold State.homeReadInline
  dsimp only
  rw [if_neg fun hm => Positioner.mispositioned_iff.mp hm h, State.homeRead_here h]

theorem State.judgeInline_verified (ho : u.op d = some o) (hv : u.verdict d o.home (o.expected.getD .good) g = .verified)
    (hs : o.expected ≠ some .good ∨ ∀ e, u.entryFor d o.home = some e → e.active = true) : u.judgeInline d p o r g =
      u.setOp d (some { o with rereads := 0, rereadDue := false, cmd := some (.read { r with phase := .nextId .next }) }) := by
  have hconfirm : (if o.expected = some .good then u.confirmGood d o.home else u) = u := by
    split
    · next hgood => exact State.confirmGood_stands (hs.resolve_left fun h => h hgood)
    · rfl
  unfold State.judgeInline
  rw [State.opVerdict_eq, hv]
  dsimp only
  rw [hconfirm, State.modOp_some _ _ _ ho, State.setCmd_setOp]
  rfl

theorem State.judgeInline_conflict (ho : u.op d = some o) (hp : o.conn = some p) (hs : (u.port p).slots = 0)
    (hc : (u.port p).conn = some (.drive d)) (hv : u.verdict d o.home (o.expected.getD .good) g = .conflict det)
    (hdet : det ≠ .alternateCondition) : u.judgeInline d p o r g =
      (u.modPort p fun r => { r with answer := none }).faultInConnection d p o .spareConflict det (o.byteCount - o.accounted)
        (some g) := by
  unfold State.judgeInline
  rw [State.opVerdict_eq, hv]
  dsimp only
  rw [State.noteConflict_other hdet, State.setCmd, State.modOp_some _ _ _ ho]
  exact State.commandFault_cmd hs hc hp

theorem State.learn_port (t x : Track) : (u.learn d t x).port p = u.port p := by
  unfold State.learn
  split
  · rfl
  · split <;> rfl

theorem State.judgeInline_learns (ho : u.op d = some o) (hs : (u.port p).slots = 0)
    (hv : u.verdict d o.home (o.expected.getD .good) g = .learn x) (hp : u.places d o.home x = true) :
    u.judgeInline d p o r g = ((((u.learn d o.home x).setOp d (some (({ o.learnt x
      (((u.learn d o.home x).entryFor d o.home).map SpareEntry.home) with
        cmd := some (.read { r with phase := .nextId .afterIndex }) } : Operation).aside p))).freePathOfPort p).endConnection
          p).position d := by
  have hslots : ∀ y : Option Operation, (((u.learn d o.home x).setOp d y).port p).slots = 0 := fun y => by
    rw [State.setOp_port, State.learn_port]
    exact hs
  unfold State.judgeInline
  rw [State.opVerdict_eq, hv]
  dsimp only
  rw [State.learnInOp_eq ho hp, State.setCmd_setOp, State.relocate, State.setAside_empty (hslots _), State.modOp_setOp]

/-! ### Pending faults (R102) -/

theorem State.pendingFault_eq (ho : u.op d = some o) (k : FaultKind) (det : Detail) (found : Option Condition) :
    u.pendingFault d k det found = (u.setOp d (some { o with
      work := .ended, orient := none, statusDeferred := PortSet.none,
      pending := some { status := (Status.faultOf k det o.pendingResidual).disc,
                        record := some (o.faultRecord d k det o.pendingResidual found) } })).freeInternalPath d := by
  unfold State.pendingFault
  rw [ho]
  unfold State.keepPending
  dsimp only
  rw [State.modOp_some _ _ _ ho]

theorem Operation.pendingResidual_eq
    (h1 : (∃ r, o.cmd = some (.read r)) ∨ (∃ w, o.cmd = some (.write w)) → n = o.byteCount - o.accounted)
    (h2 : (∀ r, o.cmd ≠ some (.read r)) → (∀ w, o.cmd ≠ some (.write w)) → n = 0) : o.pendingResidual = n := by
  unfold Operation.pendingResidual
  split
  · next r hr => exact (h1 (.inl ⟨r, hr⟩)).symm
  · next w hw => exact (h1 (.inr ⟨w, hw⟩)).symm
  all_goals
    rename_i hcmd
    exact (h2 (fun r hr => by simp [hr] at hcmd) fun w hw => by simp [hw] at hcmd).symm

end HomeFields

/-- Settles O57: by what the read is armed for, by the address and the condition found, and by the reread budget. -/
theorem homeFieldsAreJudged : Obligations.HomeFieldsAreJudged := by
  unfold Obligations.HomeFieldsAreJudged
  refine ⟨fun s d o k det found n ho h1 h2 => ?_, fun s u d hu hr =>
    ⟨fun ho c => exec_homeFieldRead hu hr (State.homeFieldArrives_none ho),
      fun o c ho ht => exec_homeFieldRead hu hr (State.homeFieldArrives_late ho ht),
      fun o c ho hh hc => exec_homeFieldRead hu hr (State.homeFieldArrives_unread ho hh hc), fun o ho ht => ?_⟩⟩
  · rw [State.pendingFault_eq ho, Operation.pendingResidual_eq h1 h2]
    rfl
  · intro freed placed
    have hplaces : ∀ {v : State} {f x}, v.records = u.records → v.types = u.types →
        v.verdict d o.home (o.expected.getD .good) f = .learn x → placed → v.places d o.home x = true := by
      intro v f x hrec hty hv ⟨hconf, hcyl, hhead⟩
      have hrecd : v.record d = u.record d := congrArg (fun w => w[d]) hrec
      have htype : v.typeOf d = u.typeOf d := State.typeOf_congr hrec hty
      refine (State.places_iff _ _ _ _).mpr ⟨hrecd ▸ hconf, ?_, State.verdict_learns hv⟩
      rw [htype]
      exact DriveType.isHome_iff.mpr ⟨hcyl, hhead⟩
    refine ⟨fun hw hn ha => ?_, fun a hw hn ha => ⟨fun f hsel => ?_, ?_⟩, fun p r f hw hp hc hph hsel => ?_⟩
    · have hint : ∀ c, u.homeFieldArrives d c = u.homeReadInternal d o c := fun c =>
        State.homeFieldArrives_internal ho ht hw hn
      refine ⟨fun f hsel => ?_, fun f hsel => ⟨fun hrec hun => ?_, fun hrec => ?_⟩, fun t htg hrep => ?_, fun t l htg hl hrep => ?_⟩
      · have hjudged := (hint (some f)).trans (State.homeReadInternal_judged hsel ha)
        have hop : (u.freedWith d (some f.condition)).op d = some o := (State.freedWith_op _).trans ho
        have hmap : (u.freedWith d (some f.condition)).spareMap = u.spareMap := State.freedWith_spareMap _
        intro v waits
        refine ⟨fun hv => ⟨fun hst => exec_homeFieldRead hu hr ?_, fun e hex he hact => exec_homeFieldRead hu hr ?_⟩,
          fun det hv hdet => exec_homeFieldRead hu hr ?_, fun x hv hx => exec_homeFieldRead hu hr ?_,
          fun x hv hpl => exec_homeFieldRead hu hr ?_⟩
        · have hconfirm : (if o.expected = some .good then (u.freedWith d (some f.condition)).confirmGood d o.home
              else u.freedWith d (some f.condition)) = u.freedWith d (some f.condition) := by
            split
            · next hgood =>
              refine State.confirmGood_stands fun e he => (hst.resolve_left fun h => h hgood) e ?_
              unfold State.entryFor at he
              rwa [hmap] at he
            · rfl
          exact hjudged.trans ((State.judgeHome_verified hop hv hconfirm).trans (State.handReconnect_eq hop))
        · have hentry : (u.freedWith d (some f.condition)).entryFor d o.home = some e := by
            unfold State.entryFor
            rw [hmap]
            exact he
          have hconfirm : (if o.expected = some .good then (u.freedWith d (some f.condition)).confirmGood d o.home
              else u.freedWith d (some f.condition)) = _ := (if_pos hex).trans (State.confirmGood_deletes hentry hact)
          exact hjudged.trans ((State.judgeHome_verified hop hv hconfirm).trans (State.handReconnect_eq hop))
        · exact hjudged.trans (State.judgeHome_conflict hop hv (State.noteConflict_other hdet))
        · exact hjudged.trans (State.judgeHome_conflict hop hv (State.noteConflict_alternate hop hx))
        · obtain ⟨hrecs, htys⟩ := State.freedWith_tables (u := u) (d := d) (some f.condition)
          exact hjudged.trans (State.judgeHome_learns hop hv (hplaces hrecs htys hv hpl))
      · have hwrong := (hint (some f)).trans (State.homeReadInternal_wrong hsel)
        have hfewer : ((u.freedWith d none).pos d).unanswered < 2 := by
          rw [State.freedWith_pos]
          exact hun
        have hopen : ({ o with recovery := true, work := .positioning, orient := none } : Operation) =
            { o with recovery := true, work := .positioning } := by rw [← hn]
        have hback := State.misposition_recovers ((State.freedWith_op none).trans ho) hrec hfewer
        rw [State.freedWith_typeOf, State.freedWith_now, hopen] at hback
        exact exec_homeFieldRead hu hr (hwrong.trans hback)
      · have hwrong := (hint (some f)).trans (State.homeReadInternal_wrong hsel)
        have hspent := State.misposition_spent ((State.freedWith_op none).trans ho) ha hrec
        have hpos : (u.freedWith d none).modPos d Positioner.uncalibrate = (u.freedWith d none).modPos d fun q =>
            { q with actuator := .uncalibrated, cyl := none, deadline := none } :=
          State.modPos_congr (by rw [State.freedWith_pos]; rfl)
        rw [hpos] at hspent
        exact exec_homeFieldRead hu hr (hwrong.trans hspent)
      · have hop : (u.knows d none).op d = some o := ho
        have hcheck := (hint none).trans (State.homeReadInternal_check ha (State.reportCheck_again hop htg hrep))
        refine ⟨fun hlt => exec_homeFieldRead hu hr ?_, fun hge => exec_homeFieldRead hu hr ?_⟩
        · exact hcheck.trans ((if_pos (State.canReread_iff.mpr hlt)).trans (State.reread_eq hop))
        · exact hcheck.trans (if_neg fun h => absurd (State.canReread_iff.mp h) (not_lt.mpr hge))
      · have hop : (u.knows d none).op d = some o := ho
        have hcheck := (hint none).trans (State.homeReadInternal_check ha (State.reportCheck_first hop htg hl hrep))
        have hbudget : ((u.knows d none).told d o t l .homeCheck).typeOf d = u.typeOf d := State.told_typeOf
        intro seen told
        refine ⟨fun hlt => exec_homeFieldRead hu hr ?_, fun hge => exec_homeFieldRead hu hr ?_⟩
        · exact hcheck.trans ((if_pos (State.canReread_iff.mpr (by rwa [hbudget]))).trans (State.reread_eq State.told_op))
        · refine hcheck.trans (if_neg fun h => absurd (State.canReread_iff.mp h) (not_lt.mpr ?_))
          rwa [hbudget]
    · exact exec_homeFieldRead hu hr ((State.homeFieldArrives_internal ho ht hw hn).trans
        (State.homeReadInternal_altered hsel ha))
    · exact exec_homeFieldRead hu hr ((State.homeFieldArrives_internal ho ht hw hn).trans (State.homeReadInternal_altCheck ha))
    · have hinline := (State.homeFieldArrives_inline (c := some f) ho ht hw hp hc hph).trans
        (State.homeReadInline_judged hsel)
      intro v
      have hop : (u.knows d (some f.condition)).op d = some o := ho
      refine ⟨fun hv hst => exec_homeFieldRead hu hr (hinline.trans (State.judgeInline_verified hop hv hst)),
        fun det hv hdet hs hconn => exec_homeFieldRead hu hr
          (hinline.trans (State.judgeInline_conflict hop hp hs hconn hv hdet)), fun x hv hpl hs => ?_⟩
      intro t
      exact exec_homeFieldRead hu hr (hinline.trans (State.judgeInline_learns hop hs hv (hplaces rfl rfl hv hpl)))

end Sys2Proof.Machine
end

section
/-! SUPPORT. Fields written (5.6, 5.7, 5.9, 5.10). -/

namespace Sys2Proof.Machine

open Sys2Proof

section Written
variable {s u v : State} {d : Drive} {p : Port} {o : Operation} {w : WriteCmd} {f : FormatCmd} {g : Bool} {t l : Track}
  {k : FaultKind} {fin : Finishing} {h : HomeField} {x : FormatField} {rest : List FormatField}

/-! ### The event goes to the block that ordered the write (R14) -/

-- The proofs before this one end before those after it begin: they have to compile within the check's memory.
set_option Elab.async false in
theorem exec_fieldWritten (hu : s.Finds u) (hr : (u.pos d).actuator ≠ .notReady) (hv : u.fieldWritten d g = v) :
    exec (.fieldWritten d g) s = .next v.serveClaims := by
  unfold exec execFieldWritten
  exact (State.perform_finds _ hu).trans (by rw [State.fromReady, if_neg hr, hv])

theorem State.fieldWritten_none (hf : u.finish d = none) (ho : u.op d = none) : u.fieldWritten d g = u := by
  unfold State.fieldWritten
  rw [hf, ho]

theorem State.fieldWritten_left (hf : u.finish d = some fin) : u.fieldWritten d g = u.finishWritten d fin g := by
  unfold State.fieldWritten
  rw [hf]

theorem State.fieldWritten_home (hf : u.finish d = none) (ho : u.op d = some o) (hw : o.work = .writeHome h)
    (hn : o.orient = none) : u.fieldWritten d g = if u.inTime d o 0 then u.homeWrittenInternal d h g else u := by
  unfold State.fieldWritten
  rw [hf, ho]
  dsimp only
  rw [hw, hn]

theorem State.fieldWritten_write (hf : u.finish d = none) (ho : u.op d = some o) (hw : o.work = .connected)
    (hp : o.conn = some p) (hc : o.cmd = some (.write w)) :
    u.fieldWritten d g = if u.writesNow d o w then u.writeDone d p o w g else u := by
  unfold State.fieldWritten
  rw [hf, ho]
  dsimp only
  rw [hw, hp, hc]

theorem State.fieldWritten_format (hf : u.finish d = none) (ho : u.op d = some o) (hw : o.work = .connected)
    (hp : o.conn = some p) (hc : o.cmd = some (.format f)) :
    u.fieldWritten d g = if f.begun then u.formatDone d p f g else u := by
  unfold State.fieldWritten
  rw [hf, ho]
  dsimp only
  rw [hw, hp, hc]

/-! ### A write left to be finished (R98, R155) -/

/-- The home field a write left to be finished has written, if any (R15). -/
def Finishing.homeDone (fin : Finishing) (u : State) (d : Drive) (g : Bool) : State :=
  match fin.home with
  | some h => u.modPos d fun q => q.homeWritten h g
  | none => u

theorem Finishing.homeDone_some (hh : fin.home = some h) : fin.homeDone u d g = u.modPos d fun q => q.homeWritten h g := by
  unfold Finishing.homeDone
  rw [hh]

theorem Finishing.homeDone_none (hh : fin.home = none) : fin.homeDone u d g = u := by
  unfold Finishing.homeDone
  rw [hh]

theorem State.finishWritten_quiet (hr : g = true ∨ fin.reported = true) (hp : fin.port = none) :
    u.finishWritten d fin g = fin.homeDone (u.setFinish d none) d g := by
  unfold State.finishWritten
  dsimp only
  rw [if_pos hr, hp]
  rfl

theorem State.finishWritten_told (hr : fin.reported = false) (hp : fin.port = none) : u.finishWritten d fin false =
    (fin.homeDone (u.setFinish d none) d false).suspectUpdate d fin.physical fin.logical .dataCheck := by
  unfold State.finishWritten
  dsimp only
  rw [if_neg (by simp [hr]), hp]
  rfl

theorem State.endReset_resetting (hs : (u.port p).state = .resetting) :
    u.endReset p = u.modPort p fun r => { r with state := .idle, resetDrive := none } :=
  State.modPort_congr (if_pos hs)

theorem State.finishWritten_resets (hh : fin.home = none) (hp : fin.port = some p) (hs : (u.port p).state = .resetting) :
    u.finishWritten d fin true = (u.setFinish d none).modPort p fun r => { r with state := .idle, resetDrive := none } := by
  have hdone : fin.homeDone (u.setFinish d none) d true = u.setFinish d none := Finishing.homeDone_none hh
  unfold State.finishWritten
  dsimp only
  rw [if_pos (.inl rfl), hp]
  exact (congrArg (fun w : State => w.endReset p) hdone).trans (State.endReset_resetting hs)

/-! ### Checks told to the suspect list (R96) -/

/-- An update of the suspect list changes of a port nothing but its overflow flag. -/
theorem State.suspectUpdate_port : ∃ b, (u.suspectUpdate d t l k).port p = { u.port p with overflow := b } := by
  unfold State.suspectUpdate
  dsimp only
  split
  · rw [State.postSpareAdvised_eq]
    exact State.postAll_port _ _
  · exact ⟨_, rfl⟩

theorem State.told_slots : ((u.told d o t l k).port p).slots = (u.port p).slots := by
  obtain ⟨b, hb⟩ := State.suspectUpdate_port (u := u.setOp d (some { o with reported := t :: o.reported })) (d := d) (t := t)
    (l := l) (k := k) (p := p)
  unfold State.told
  rw [hb]
  rfl

theorem State.told_conn : ((u.told d o t l k).port p).conn = (u.port p).conn := by
  obtain ⟨b, hb⟩ := State.suspectUpdate_port (u := u.setOp d (some { o with reported := t :: o.reported })) (d := d) (t := t)
    (l := l) (k := k) (p := p)
  unfold State.told
  rw [hb]
  rfl

/-- No update where the check is on no track, or where the track's first one has been told. -/
theorem State.reportCheck_silent (ho : u.op d = some o) (h : ∀ t, o.target = some t → t ∈ o.reported) :
    u.reportCheck d k = u := by
  cases ht : o.target with
  | none =>
    unfold State.reportCheck
    rw [ho]
    dsimp only
    rw [ht]
  | some t => exact State.reportCheck_again ho ht (h t ht)

/-! ### WRITE (R93, R97, R98) -/

/-- Nothing more is drawn at FIELD WRITTEN once all bytes are drawn, a stop is taken, or no frame is held. -/
theorem State.drawRest_over (h : w.stop.isSome = true ∨ w.need ≤ w.drawn ∨ (u.port p).held = []) :
    u.drawRest d p w 2 = (u, w) := by
  unfold State.drawRest
  split
  · rfl
  · next hgoes =>
    rw [State.drawNext_nothing]
    intro c hc
    obtain hstop | hneed | hheld := h
    · exact absurd (.inr (.inl hstop)) hgoes
    · exact absurd (.inr (.inr hneed)) hgoes
    · simp [hheld] at hc

/-- FIELD WRITTEN once nothing more is drawn. -/
def State.written (v : State) (d : Drive) (p : Port) (o : Operation) (w : WriteCmd) (g : Bool) : State :=
  match w.stop with
  | some e => v.finishStopped d p e (o.byteCount - w.drawn)
  | none =>
    if w.drawn < w.need then v.commandFault p .overrun .write (o.byteCount - w.drawn) none
    else if g then
      ((v.modOp d fun o => { o with accounted := w.need, keyCheck := false }).modPort p fun r =>
        { r with requests := [], held := [] }).complete p
        { status := Status.doneWith (o.byteCount - w.need), found := none, resets := true }
    else v.commandFault p .dataCheck .write o.byteCount none

theorem State.writeDone_written (hdraw : u.drawRest d p w 2 = (u, w)) (hv : (if g then u else u.reportCheck d .dataCheck) = v) :
    u.writeDone d p o w g = v.written d p o w g := by
  unfold State.writeDone
  rw [hdraw]
  dsimp only
  rw [hv]
  rfl

theorem State.written_stopped {e : StopEnd} (hs : w.stop = some e) :
    v.written d p o w g = v.finishStopped d p e (o.byteCount - w.drawn) := by
  unfold State.written
  rw [hs]

theorem State.written_overrun (hs : w.stop = none) (hn : w.drawn < w.need) :
    v.written d p o w g = v.commandFault p .overrun .write (o.byteCount - w.drawn) none := by
  unfold State.written
  rw [hs]
  exact if_pos hn

theorem State.written_check (hs : w.stop = none) (hn : w.drawn = w.need) :
    v.written d p o w false = v.commandFault p .dataCheck .write o.byteCount none := by
  unfold State.written
  rw [hs]
  dsimp only
  rw [if_neg (by omega), if_neg (by simp)]

theorem State.written_good (hs : w.stop = none) (hn : w.drawn = w.need) (ho : u.op d = some o) (hp : o.conn = some p)
    (hc : (u.port p).conn = some (.drive d)) (hsl : (u.port p).slots = 0) : u.written d p o w true =
      ((u.modPort p fun r => { r with requests := [], held := [], answer := none }).setOp d
        (some { o with accounted := w.need, keyCheck := false, cmd := none, idle := 0, searchIndex := 0 })).sendStatus p
          (.drive d) { done := true, residual := o.byteCount - w.need } false := by
  have hcomplete := State.complete_done (d := d) (p := p)
    (u := (u.setOp d (some { o with accounted := w.need, keyCheck := false })).modPort p fun r => { r with requests := [], held := [] })
    (o := { o with accounted := w.need, keyCheck := false })
    (x := { status := Status.doneWith (o.byteCount - w.need), found := none, resets := true })
    (by rw [State.modPort_port_same]; exact hsl) (by rw [State.modPort_port_same]; exact hc)
    (State.setOp_op_same _ _ _) hp rfl
  unfold State.written
  rw [hs]
  dsimp only
  rw [if_neg (by omega), if_pos rfl, State.modOp_some _ _ _ ho, hcomplete, State.modPort_setOp, State.setOp_setOp,
    State.modPort_modPort]
  unfold State.sendStatus State.push
  rw [State.modPort_setOp, State.modPort_modPort, State.modPort_port_same]
  rfl

/-! ### FORMAT TRACK (R94, R98) -/

/-- The record after this field of a format, as far as its ID fields are written. -/
def FormatCmd.lastAfter (f : FormatCmd) (x : FormatField) : Option RecordAt :=
  match x with
  | .id i => some i
  | .home _ | .keyData _ _ => f.last

/-- The drive after a field of a format: a home field sets the track status (R15). -/
def State.fieldDone (u : State) (d : Drive) (x : FormatField) (g : Bool) : State :=
  match x with
  | .home h => u.modPos d fun q => q.homeWritten h g
  | .id _ | .keyData _ _ => u

theorem State.formatDone_stopped {e : StopEnd} (hf : f.fields = x :: rest) (hs : f.stop = some e) :
    u.formatDone d p f true = (u.fieldDone d x true).finishStopped d p e 0 := by
  unfold State.formatDone
  rw [hf]
  dsimp only
  rw [hs]
  rfl

theorem State.formatDone_check (hf : f.fields = x :: rest) (hs : f.stop = none) : u.formatDone d p f false =
    ((u.fieldDone d x false).reportCheck d .dataCheck).commandFault p .dataCheck .write 0 none := by
  unfold State.formatDone
  rw [hf]
  dsimp only
  rw [hs]
  rfl

theorem State.fieldDone_op : (u.fieldDone d x g).op d = u.op d := by
  unfold State.fieldDone
  split <;> rfl

theorem State.formatDone_goes (hf : f.fields = x :: rest) (hs : f.stop = none) (hrest : rest ≠ []) (ho : u.op d = some o) :
    u.formatDone d p f true = (u.fieldDone d x true).setOp d
      (some { o with cmd := some (.format { f with fields := rest, last := f.lastAfter x }) }) := by
  have hsteps : u.formatDone d p f true =
      (u.fieldDone d x true).setCmd d (.format { f with fields := rest, last := f.lastAfter x }) := by
    unfold State.formatDone
    rw [hf]
    dsimp only
    rw [hs]
    exact if_neg hrest
  rw [hsteps]
  exact State.modOp_some _ _ _ (State.fieldDone_op.trans ho)

theorem State.formatDone_ends (hf : f.fields = [x]) (hs : f.stop = none) (ho : u.op d = some o)
    (hx : u.fieldDone d x true = u) (hp : o.conn = some p) (hc : (u.port p).conn = some (.drive d))
    (hsl : (u.port p).slots = 0) : u.formatDone d p f true =
      ((u.modPort p fun r => { r with answer := none }).setOp d
        (some { o with current := f.lastAfter x, cmd := none, idle := 0, searchIndex := 0 })).sendStatus p (.drive d)
          { done := true } false := by
  have hcomplete := State.complete_done (d := d) (p := p)
    (u := u.setOp d (some { o with cmd := some (.format { f with fields := [], last := f.lastAfter x }), current := f.lastAfter x }))
    (o := { o with cmd := some (.format { f with fields := [], last := f.lastAfter x }), current := f.lastAfter x })
    (x := { status := Status.doneWith 0, found := none, resets := true }) hsl hc (State.setOp_op_same _ _ _) hp rfl
  have hsteps : u.formatDone d p f true = (((u.fieldDone d x true).setCmd d (.format { f with fields := [], last := f.lastAfter x })).modOp d
      fun o => { o with current := f.lastAfter x }).complete p { status := Status.doneWith 0, found := none, resets := true } := by
    unfold State.formatDone
    rw [hf]
    dsimp only
    rw [hs]
    rfl
  rw [hsteps, hx, State.setCmd, State.modOp_some _ _ _ ho, State.modOp_setOp, hcomplete, State.setOp_setOp]
  unfold State.sendStatus State.push
  rw [State.modPort_setOp, State.modPort_modPort]
  refine State.modPort_congr ?_
  simp only [State.setOp_port, State.modPort_port_same]
  rfl

end Written

/-- Settles O59: by the block that ordered the write, and for a command by its stop, its bytes drawn, its field and the write
check. -/
theorem fieldsWritten : Obligations.FieldsWritten := by
  unfold Obligations.FieldsWritten
  refine ⟨fun w n => rfl, fun q f g => rfl, fun s u d hu hr => ⟨fun hf ho g => ?_, fun f hf hh hrep hp g => ?_,
    fun f h g hf hh hrep hp => ?_, fun f hf hh hrep hp => ?_, fun f p hf hh hp hs => ?_,
    fun o hf ho => ⟨fun f g hw hn => ⟨fun ht => ?_, fun ht => ?_⟩, fun p hp hc hsl hw =>
      ⟨fun w g hcmd hno => ?_, fun w x hcmd hcur hin hlost hseek => ?_, fun f hcmd => ⟨fun hb g => ?_, fun hb hs => ?_,
        fun hb hs i rest hfi => ?_⟩⟩⟩⟩⟩
  · exact exec_fieldWritten hu hr (State.fieldWritten_none hf ho)
  · exact exec_fieldWritten hu hr ((State.fieldWritten_left hf).trans
      ((State.finishWritten_quiet (.inr hrep) hp).trans (Finishing.homeDone_none hh)))
  · exact exec_fieldWritten hu hr ((State.fieldWritten_left hf).trans
      ((State.finishWritten_quiet (.inr hrep) hp).trans (Finishing.homeDone_some hh)))
  · refine exec_fieldWritten hu hr ((State.fieldWritten_left hf).trans ((State.finishWritten_told hrep hp).trans ?_))
    rw [Finishing.homeDone_none hh]
  · exact exec_fieldWritten hu hr ((State.fieldWritten_left hf).trans (State.finishWritten_resets hh hp hs))
  · exact exec_fieldWritten hu hr ((State.fieldWritten_home hf ho hw hn).trans (if_pos ht))
  · exact exec_fieldWritten hu hr ((State.fieldWritten_home hf ho hw hn).trans (if_neg (by simp [ht])))
  · refine exec_fieldWritten hu hr ((State.fieldWritten_write hf ho hw hp hcmd).trans (if_neg fun hnow => ?_))
    obtain ⟨hseek, hkey⟩ := State.writesNow_iff.mp hnow
    obtain ⟨r, hcur, hlost, hin⟩ := State.keyInTime_iff.mp hkey
    obtain h | h | h := hno
    · simp [hseek] at h
    · simp [hlost] at h
    · simp [h r hcur] at hin
  · have hnow : ∀ g, u.fieldWritten d g = u.writeDone d p o w g := fun g =>
      (State.fieldWritten_write hf ho hw hp hcmd).trans
        (if_pos (State.writesNow_iff.mpr ⟨hseek, State.keyInTime_iff.mpr ⟨x, hcur, hlost, hin⟩⟩))
    refine ⟨fun hall hs => ⟨?_, fun hrep => ?_, fun t l ht hl hrep => ?_⟩, fun g hrep hshort hs hheld => ?_, fun hs => ?_⟩
    · exact exec_fieldWritten hu hr ((hnow true).trans ((State.writeDone_written
        (State.drawRest_over (.inr (.inl hall.ge))) (if_pos rfl)).trans (State.written_good hs hall ho hp hc hsl)))
    · exact exec_fieldWritten hu hr ((hnow false).trans ((State.writeDone_written
        (State.drawRest_over (.inr (.inl hall.ge))) ((if_neg Bool.false_ne_true).trans (State.reportCheck_silent ho hrep))).trans
          ((State.written_check hs hall).trans (State.commandFault_now hsl hc ho hp))))
    · have hfault := State.commandFault_now (u := u.told d o t l .dataCheck) (State.told_slots.trans hsl)
        (State.told_conn.trans hc) State.told_op hp (k := .dataCheck) (det := .write) (n := o.byteCount) (found := none)
      exact exec_fieldWritten hu hr ((hnow false).trans ((State.writeDone_written
        (State.drawRest_over (.inr (.inl hall.ge)))
          ((if_neg Bool.false_ne_true).trans (State.reportCheck_first ho ht hl hrep))).trans
          ((State.written_check hs hall).trans hfault)))
    · have hsame : (if g then u else u.reportCheck d .dataCheck) = u := by
        rw [State.reportCheck_silent ho hrep, ite_self]
      exact exec_fieldWritten hu hr ((hnow g).trans ((State.writeDone_written
        (State.drawRest_over (.inr (.inr hheld))) hsame).trans
          ((State.written_overrun hs hshort).trans (State.commandFault_now hsl hc ho hp))))
    · exact exec_fieldWritten hu hr ((hnow true).trans ((State.writeDone_written
        (State.drawRest_over (.inl (by simp [hs]))) (if_pos rfl)).trans
          ((State.written_stopped hs).trans (State.finishStopped_haltedWith ho))))
  · exact exec_fieldWritten hu hr ((State.fieldWritten_format hf ho hw hp hcmd).trans (if_neg (by simp [hb])))
  · have hnow : ∀ g, u.fieldWritten d g = u.formatDone d p f g := fun g =>
      (State.fieldWritten_format hf ho hw hp hcmd).trans (if_pos hb)
    refine ⟨fun k y hfi => ?_, fun k y rest hfi hrest => ?_, fun i rest hfi hrest => ?_, fun h rest hfi hrest => ?_,
      fun i rest hfi hrep => ?_⟩
    · exact exec_fieldWritten hu hr ((hnow true).trans (State.formatDone_ends hfi hs ho rfl hp hc hsl))
    · exact exec_fieldWritten hu hr ((hnow true).trans (State.formatDone_goes hfi hs hrest ho))
    · exact exec_fieldWritten hu hr ((hnow true).trans (State.formatDone_goes hfi hs hrest ho))
    · exact exec_fieldWritten hu hr ((hnow true).trans (State.formatDone_goes hfi hs hrest ho))
    · have hfault := (congrArg (fun v : State => v.commandFault p .dataCheck .write 0 none)
        (State.reportCheck_silent (k := .dataCheck) ho hrep)).trans (State.commandFault_now hsl hc ho hp)
      exact exec_fieldWritten hu hr ((hnow false).trans ((State.formatDone_check hfi hs).trans hfault))
  · exact exec_fieldWritten hu hr ((State.fieldWritten_format hf ho hw hp hcmd).trans ((if_pos hb).trans
      ((State.formatDone_stopped hfi hs).trans (State.finishStopped_haltedWith ho))))

end Sys2Proof.Machine
end

section
/-! SUPPORT. ID and key fields read in a connection (5.2 to 5.4, 5.8, 3.5). -/

namespace Sys2Proof.Machine

open Sys2Proof

section Fields
variable {s u v : State} {d : Drive} {p : Port} {o y : Operation} {c : Cmd} {k : SearchCond} {a key : List Byte} {w : Awaited}
  {r : ReadCmd} {z : WriteCmd} {g : Finding} {q b : Nat} {x : IdRead} {f : IdField} {h : RecordAt} {n : Option RecordAt}
  {st : Status} {t l : Track} {kind : FaultKind} {det : Detail} {res : Nat} {found : Option Condition}

/-! ### The events (R8, R13) -/

-- The proofs before this one end before those after it begin: they have to compile within the check's memory.
set_option Elab.async false in
theorem exec_idFieldRead (hu : s.Finds u) (hr : (u.pos d).actuator ≠ .notReady) (ho : u.op d = some o) (hp : o.conn = some p)
    (hv : u.idArrives d p o x = v) : exec (.idFieldRead d x) s = .next v.serveClaims := by
  unfold exec execIdFieldRead
  exact (State.perform_finds _ hu).trans (by
    rw [State.fromReady, if_neg hr, State.connected, ho]
    dsimp only
    rw [hp]
    exact congrArg (fun v : State => Host.Outcome.next v.serveClaims) hv)

theorem exec_keyFieldRead (hu : s.Finds u) (hr : (u.pos d).actuator ≠ .notReady) (ho : u.op d = some o) (hp : o.conn = some p)
    (hv : u.keyRead d p o key = v) : exec (.keyFieldRead d key) s = .next v.serveClaims := by
  unfold exec execKeyFieldRead
  exact (State.perform_finds _ hu).trans (by
    rw [State.fromReady, if_neg hr, State.connected, ho]
    dsimp only
    rw [hp]
    exact congrArg (fun v : State => Host.Outcome.next v.serveClaims) hv)

theorem State.idArrives_read (hl : o.lost = false) (ht : u.inTime d o x.start = true ∨ o.homeAgain = true) :
    u.idArrives d p o x = u.idRead d p o x := by
  rw [State.idArrives_eq, if_pos ⟨hl, ht⟩]

theorem State.idArrives_passes (h : (u.inTime d o x.start = false ∧ o.homeAgain ≠ true) ∨ o.lost = true) :
    u.idArrives d p o x = u := by
  rw [State.idArrives_eq, if_neg]
  rintro ⟨hl, ht⟩
  obtain ⟨h1, h2⟩ | h := h
  · exact ht.elim (fun ht => by simp [h1] at ht) h2
  · simp [h] at hl

/-! ### The ends of a command -/

/-- The command is over with this STATUS, the operation as `y` otherwise (R80). -/
def State.ends (v : State) (d : Drive) (p : Port) (y : Operation) (st : Status) : State :=
  (v.sendStatus p (.drive d) st false).setOp d (some { y with cmd := none, idle := 0 })

theorem State.commandDone_setOp (m : Bool) : (u.setOp d (some y)).commandDone d p st m =
    u.ends d p { y with searchIndex := if m then 0 else y.searchIndex } st := by
  have hsend : (u.setOp d (some y)).sendStatus p (.drive d) st false = (u.sendStatus p (.drive d) st false).setOp d (some y) := rfl
  unfold State.commandDone
  rw [hsend, State.modOp_setOp]
  rfl

theorem State.compareKey_setOp : (u.setOp d (some y)).compareKey d p k a key =
    u.ends d p { y with keyCheck := true, searchIndex := if keyMeets k key a then 0 else y.searchIndex }
      { done := true, matched := keyMeets k key a } := by
  unfold State.compareKey
  dsimp only
  rw [State.commandDone_setOp, State.ends, State.modOp_setOp]
  rfl

/-- The operation with this record current. -/
def Operation.atRecord (o : Operation) (h : RecordAt) : Operation := { o.newField with current := some h }

theorem State.makeCurrent_eq (ho : u.op d = some o) : u.makeCurrent d h = u.setOp d (some (o.atRecord h)) := State.modOp_some _ _ _ ho

theorem State.setCmd_eq (ho : u.op d = some o) : u.setCmd d c = u.setOp d (some { o with cmd := some c }) := State.modOp_some _ _ _ ho

theorem State.searchRecord_keyed (ho : u.op d = some o) (hk : h.id.keyLength ≠ 0) :
    u.searchRecord d p k a h = u.setOp d (some { o.atRecord h with cmd := some (.search k a .key) }) := by
  unfold State.searchRecord
  dsimp only
  rw [if_neg hk, State.makeCurrent_eq ho, State.setCmd_setOp]

theorem State.searchRecord_keyless (ho : u.op d = some o) (hk : h.id.keyLength = 0) : u.searchRecord d p k a h =
    u.ends d p { o.atRecord h with keyCheck := true, searchIndex := if keyMeets k [] a then 0 else o.searchIndex }
      { done := true, matched := keyMeets k [] a } := by
  unfold State.searchRecord
  dsimp only
  rw [if_pos hk, State.makeCurrent_eq ho, State.compareKey_setOp]
  rfl

theorem State.enterRecord_eq (ho : u.op d = some o) :
    u.enterRecord d r h = u.setOp d (some { o.atRecord h with cmd := some (.read r.atData) }) := by
  unfold State.enterRecord
  rw [State.makeCurrent_eq ho, State.setCmd_setOp]

/-! ### FAULTs of the command in progress (R79, R145) -/

/-- The end of an operation by a FAULT takes of its record only what the fault record says. -/
theorem State.faultInConnection_sameRecord (hy : y.faultRecord d kind det res found = o.faultRecord d kind det res found) :
    (u.setOp d (some y)).faultInConnection d p y kind det res found = u.faultInConnection d p o kind det res found := by
  rw [State.faultInConnection_eq, State.faultInConnection_eq, ← State.modPort_setOp, hy]
  dsimp only
  unfold State.endOperation State.endOperationWithHold
  rw [State.discardOp_setOp]

theorem State.commandFault_produced (hs : (u.port p).slots = 0) (hc : (u.port p).conn = some (.drive d)) (hyp : y.conn = some p)
    (hy : y.faultRecord d kind det res found = o.faultRecord d kind det res found) :
    (u.setOp d (some y)).commandFault p kind det res found =
      (u.modPort p fun r => { r with answer := none }).faultInConnection d p o kind det res found := by
  rw [State.commandFault_now (u := u.setOp d (some y)) hs hc (State.setOp_op_same _ _ _) hyp, ← State.modPort_setOp,
    State.faultInConnection_sameRecord hy]

/-- A FAULT that waits for the buffer (R145). -/
theorem State.commandFault_waits (hs : (u.port p).slots ≠ 0) : u.commandFault p kind det res found = u.modPort p fun r =>
    { r with answer := some { status := Status.faultOf kind det res, found := found, resets := false } } := if_neg hs

/-! ### Checks at ID fields (R95, R96, R82) -/

theorem State.badId_again (ho : u.op d = some o) (ht : o.target = some t) (hr : t ∈ o.reported) :
    u.badId d = u.setOp d (some { o with lost := true }) := by
  unfold State.badId
  rw [State.reportCheck_again ho ht hr, State.modOp_some _ _ _ ho]

theorem State.badId_first (ho : u.op d = some o) (ht : o.target = some t) (hl : o.logical = some l) (hr : t ∉ o.reported) :
    u.badId d = (u.told d o t l .idCheck).setOp d (some { o with reported := t :: o.reported, lost := true }) := by
  unfold State.badId
  rw [State.reportCheck_first ho ht hl hr, State.modOp_some _ _ _ State.told_op]

theorem State.idCheck_rereads (ho : u.op d = some o) (ht : o.target = some t) (hr : t ∈ o.reported) (hc : o.cmd = some c)
    (hb : o.rereads < (u.typeOf d).retryBudget) :
    u.idCheck d p o q = u.setOp d (some { o.rereading with lost := true, cmd := some (c.rereadAt q) }) := by
  have hcan : (u.setOp d (some { o with lost := true })).canReread d o = true := State.canReread_iff.mpr hb
  unfold State.idCheck
  dsimp only
  rw [State.badId_again ho ht hr, if_pos hcan, State.reread_eq (State.setOp_op_same _ _ _), State.setOp_setOp, State.modOp_setOp]
  unfold Operation.rereading
  dsimp only
  rw [hc, Option.map_some]

theorem State.idCheck_over (ho : u.op d = some o) (ht : o.target = some t) (hr : t ∈ o.reported) (hc : o.cmd = some c)
    (hb : (u.typeOf d).retryBudget ≤ o.rereads) : u.idCheck d p o q =
      (u.setOp d (some { o with lost := true, cmd := some c.over })).commandFault p .idCheck .none o.faultResidual none := by
  have hcan : ¬ (u.setOp d (some { o with lost := true })).canReread d o = true := fun hcan =>
    absurd (State.canReread_iff.mp hcan) (not_lt.mpr hb)
  unfold State.idCheck
  dsimp only
  rw [State.badId_again ho ht hr, if_neg hcan, State.readOver, State.modOp_setOp]
  dsimp only
  rw [hc, Option.map_some]

theorem State.soughtCheck_waits {at' : Finding → Cmd} (hg : g.waitIndex = true) : u.soughtCheck d g at' = u := if_pos hg

theorem State.soughtCheck_notes {at' : Finding → Cmd} (hg : g.waitIndex = false) (ho : u.op d = some o) (ht : o.target = some t)
    (hr : t ∈ o.reported) : u.soughtCheck d g at' =
      u.setOp d (some { o with cmd := some (at' { g with noted := true, waitIndex := true }) }) := by
  refine (if_neg (by simp [hg])).trans ?_
  rw [State.reportCheck_again ho ht hr, State.setCmd_eq ho]
  rfl

theorem State.soughtId_waits {m : Bool} (hg : g.waitIndex = true) : u.soughtId d p g m v = u := if_pos hg

theorem State.soughtId_wrong (hg : g.waitIndex = false) : u.soughtId d p g true v = u.mispositionConnected d p :=
  (if_neg (by simp [hg])).trans (if_pos rfl)

theorem State.soughtId_takes (hg : g.waitIndex = false) : u.soughtId d p g false v = v :=
  (if_neg (by simp [hg])).trans (if_neg (by simp))

/-! ### ID FIELD READ by the command in progress -/

/-- The ID field names another track than the operation's (R46). -/
def Operation.elsewhere (o : Operation) (f : IdField) : Bool := decide (o.logical ≠ some f.address)

theorem Operation.elsewhere_here (hl : o.logical = some f.address) : o.elsewhere f = false := by
  simp [Operation.elsewhere, hl]

theorem Operation.elsewhere_wrong (hl : o.logical ≠ some f.address) : o.elsewhere f = true := by
  simp [Operation.elsewhere, hl]

theorem State.idRead_good : u.idRead d p o ⟨q, b, some f⟩ = u.idReadGood d p o ⟨q, b, some f⟩ f := rfl

theorem State.idRead_check : u.idRead d p o ⟨q, b, none⟩ = u.idReadCheck d p o ⟨q, b, none⟩ := rfl

theorem State.good_locate (hc : o.cmd = some (.locate g)) : u.idReadGood d p o x f = u.soughtId d p g (o.elsewhere f)
    (if f.number = o.record then (u.makeCurrent d ⟨x.start, f⟩).commandDone d p (Status.doneWith 0) true else u) := by
  unfold State.idReadGood
  rw [hc]
  rfl

theorem State.good_find_record (hc : o.cmd = some (.search k a (.find (some h) g))) : u.idReadGood d p o x f =
    u.soughtId d p g (o.elsewhere f) (if h = ⟨x.start, f⟩ then u.setCmd d (.search k a (.id .next)) else u) := by
  unfold State.idReadGood
  rw [hc]
  rfl

theorem State.good_find_first (hc : o.cmd = some (.search k a (.find none g))) : u.idReadGood d p o x f =
    u.soughtId d p g (o.elsewhere f) (u.searchRecord d p k a ⟨x.start, f⟩) := by
  unfold State.idReadGood
  rw [hc]
  rfl

theorem State.good_search (hc : o.cmd = some (.search k a (.id w))) : u.idReadGood d p o x f =
    if w.reads = true ∧ o.elsewhere f = true then u.mispositionConnected d p
    else if w.takes x then u.searchRecord d p k a ⟨x.start, f⟩ else u := by
  unfold State.idReadGood
  rw [hc]
  rfl

theorem State.good_nextId (hc : o.cmd = some (.read r)) (hph : r.phase = .nextId w) : u.idReadGood d p o x f =
    if w.reads = true ∧ o.elsewhere f = true then u.mispositionConnected d p
    else if w.takes x then u.enterRecord d r ⟨x.start, f⟩ else u := by
  unfold State.idReadGood
  rw [hc]
  dsimp only
  rw [hph]
  rfl

/-- A READ's search for its record, as far as it goes on with it. -/
def State.readFinds (u : State) (d : Drive) (r : ReadCmd) (n : Option RecordAt) (h : RecordAt) : State :=
  match n with
  | none => u.enterRecord d r h
  | some r' => if r' = h then u.setCmd d (.read { r with phase := .nextId .next }) else u

theorem State.good_readFind (hc : o.cmd = some (.read r)) (hph : r.phase = .find n g) : u.idReadGood d p o x f =
    u.soughtId d p g (o.elsewhere f) (u.readFinds d r n ⟨x.start, f⟩) := by
  unfold State.idReadGood
  rw [hc]
  dsimp only
  rw [hph]
  rfl

theorem State.good_readSeek (hc : o.cmd = some (.read r)) (hph : r.phase = .seek g) : u.idReadGood d p o x f =
    u.soughtId d p g (o.elsewhere f) (if o.current = some ⟨x.start, f⟩ then u.setCmd d (.read r.atData) else u) := by
  unfold State.idReadGood
  rw [hc]
  dsimp only
  rw [hph]
  rfl

theorem State.good_readField (hc : o.cmd = some (.read r)) (hph : r.phase = .data ∨ r.phase = .home) : u.idReadGood d p o x f =
    if o.elsewhere f then u.mispositionConnected d p else u := by
  unfold State.idReadGood
  rw [hc]
  dsimp only
  obtain hph | hph := hph <;> rw [hph] <;> rfl

theorem State.good_writeSeek (hc : o.cmd = some (.write z)) (hz : z.seek = some g) : u.idReadGood d p o x f =
    u.soughtId d p g (o.elsewhere f)
      (if o.current = some ⟨x.start, f⟩ then u.setCmd d (.write { z with seek := none }) else u) := by
  unfold State.idReadGood
  rw [hc]
  dsimp only
  rw [hz]
  rfl

theorem State.good_write (hc : o.cmd = some (.write z)) (hz : z.seek = none) : u.idReadGood d p o x f =
    if z.begun = false ∧ o.elsewhere f = true then u.mispositionConnected d p else u := by
  unfold State.idReadGood
  rw [hc]
  dsimp only
  rw [hz]
  rfl

theorem State.check_locate (hc : o.cmd = some (.locate g)) : u.idReadCheck d p o x = u.soughtCheck d g .locate := by
  unfold State.idReadCheck
  rw [hc]

theorem State.check_find (hc : o.cmd = some (.search k a (.find n g))) :
    u.idReadCheck d p o x = u.soughtCheck d g fun g => .search k a (.find n g) := by
  unfold State.idReadCheck
  rw [hc]

theorem State.check_search (hc : o.cmd = some (.search k a (.id w))) :
    u.idReadCheck d p o x = if w.takes x then u.idCheck d p o x.start else if w.reads then u.badId d else u := by
  unfold State.idReadCheck
  rw [hc]

theorem State.check_nextId (hc : o.cmd = some (.read r)) (hph : r.phase = .nextId w) :
    u.idReadCheck d p o x = if w.takes x then u.idCheck d p o x.start else if w.reads then u.badId d else u := by
  unfold State.idReadCheck
  rw [hc]
  dsimp only
  rw [hph]

theorem State.check_readSeek (hc : o.cmd = some (.read r)) (hph : r.phase = .seek g) :
    u.idReadCheck d p o x = u.soughtCheck d g fun g => .read { r with phase := .seek g } := by
  unfold State.idReadCheck
  rw [hc]
  dsimp only
  rw [hph]

theorem State.check_readField (hc : o.cmd = some (.read r)) (hph : r.phase = .data ∨ r.phase = .home) :
    u.idReadCheck d p o x = u.badId d := by
  unfold State.idReadCheck
  rw [hc]
  dsimp only
  obtain hph | hph := hph <;> rw [hph]

theorem State.check_writeSeek (hc : o.cmd = some (.write z)) (hz : z.seek = some g) :
    u.idReadCheck d p o x = u.soughtCheck d g fun g => .write { z with seek := some g } := by
  unfold State.idReadCheck
  rw [hc]
  dsimp only
  rw [hz]

theorem State.check_write (hc : o.cmd = some (.write z)) (hz : z.seek = none) (hb : z.begun = false) :
    u.idReadCheck d p o x = u.badId d := by
  unfold State.idReadCheck
  rw [hc]
  dsimp only
  rw [hz]
  exact if_neg (by simp [hb])

/-- A SEARCH whose index count is spent takes no ID field (R87). -/
theorem State.idRead_over (hc : o.cmd = some (.search k a .over)) : u.idRead d p o x = u := by
  unfold State.idRead
  split
  · unfold State.idReadCheck
    rw [hc]
  · unfold State.idReadGood
    rw [hc]

/-! ### Which ID fields a wait takes (R83, R84, R95) -/

theorem Awaited.takes_reads (hw : w = .next ∨ w = .after b ∨ w = .place q) :
    w.reads = true ∧ ∀ m, w.takes ⟨q, b, m⟩ = true := by
  obtain rfl | rfl | rfl := hw <;> simp [Awaited.reads, Awaited.takes]

theorem Awaited.passes_reads (hw : (∃ j, w = .after j ∧ j ≠ b) ∨ ∃ j, w = .place j ∧ j ≠ q) :
    w.reads = true ∧ ∀ m, w.takes ⟨q, b, m⟩ = false := by
  obtain ⟨j, rfl, hj⟩ | ⟨j, rfl, hj⟩ := hw <;> simp [Awaited.reads, Awaited.takes, hj.symm]

theorem Awaited.reads_of_ne (hw : w ≠ .afterIndex) : w.reads = true := by
  cases w with
  | afterIndex => exact absurd rfl hw
  | next | after | place => rfl

/-! ### The ID field of another track (R46) -/

/-- The command tests the ID fields that pass for a misposition. -/
def Cmd.testsTrack (c : Cmd) : Prop :=
  (∃ g, c = .locate g ∧ g.waitIndex = false) ∨
  (∃ k a w, c = .search k a (.id w) ∧ w ≠ .afterIndex) ∨
  (∃ k a n g, c = .search k a (.find n g) ∧ g.waitIndex = false) ∨
  (∃ r w, c = .read r ∧ r.phase = .nextId w ∧ w ≠ .afterIndex) ∨
  (∃ r n g, c = .read r ∧ r.phase = .find n g ∧ g.waitIndex = false) ∨
  (∃ r, c = .read r ∧ (r.phase = .data ∨ r.phase = .home ∨ ∃ g, r.phase = .seek g ∧ g.waitIndex = false)) ∨
  (∃ y, c = .write y ∧ (y.seek = none ∧ y.begun = false ∨ ∃ g, y.seek = some g ∧ g.waitIndex = false))

theorem State.idRead_wrong (hc : o.cmd = some c) (ht : c.testsTrack) (hl : o.logical ≠ some f.address) :
    u.idRead d p o ⟨q, b, some f⟩ = u.mispositionConnected d p := by
  have hw := Operation.elsewhere_wrong hl
  rw [State.idRead_good]
  obtain ⟨g, rfl, hg⟩ | ⟨k, a, w, rfl, hne⟩ | ⟨k, a, n, g, rfl, hg⟩ | ⟨r, w, rfl, hph, hne⟩ | ⟨r, n, g, rfl, hph, hg⟩ |
    ⟨r, rfl, hph⟩ | ⟨y, rfl, hy⟩ := ht
  · rw [State.good_locate hc, hw, State.soughtId_wrong hg]
  · rw [State.good_search hc, if_pos ⟨Awaited.reads_of_ne hne, hw⟩]
  · cases n with
    | none => rw [State.good_find_first hc, hw, State.soughtId_wrong hg]
    | some h => rw [State.good_find_record hc, hw, State.soughtId_wrong hg]
  · rw [State.good_nextId hc hph, if_pos ⟨Awaited.reads_of_ne hne, hw⟩]
  · rw [State.good_readFind hc hph, hw, State.soughtId_wrong hg]
  · obtain hph | hph | ⟨g, hph, hg⟩ := hph
    · rw [State.good_readField hc (.inl hph), if_pos hw]
    · rw [State.good_readField hc (.inr hph), if_pos hw]
    · rw [State.good_readSeek hc hph, hw, State.soughtId_wrong hg]
  · obtain ⟨hz, hb⟩ | ⟨g, hz, hg⟩ := hy
    · rw [State.good_write hc hz, if_pos ⟨hb, hw⟩]
    · rw [State.good_writeSeek hc hz, hw, State.soughtId_wrong hg]

/-- The operation with its command kept to be resumed (R46). -/
def Operation.kept (o : Operation) (c : Cmd) (p : Port) : Operation :=
  ({ o.newField with cmd := some (o.resumed c) } : Operation).aside p

/-- The connection of a misposition set aside (R46). -/
def State.keptAside (u : State) (d : Drive) (p : Port) (o : Operation) (c : Cmd) : State :=
  if (u.port p).slots = 0 then ((u.setOp d (some (o.kept c p))).freePathOfPort p).endConnection p
  else ((u.setOp d (some (o.kept c p))).freePathOfPort p).modPort p fun r => { r with draining := true }

theorem State.setAside_keeps (ho : u.op d = some o) (hc : o.cmd = some c) :
    (u.modOp d fun y => { y.newField with cmd := y.cmd.map y.resumed }).setAside d p = u.keptAside d p o c := by
  have hcmd : ({ o.newField with cmd := o.cmd.map o.resumed } : Operation) = { o.newField with cmd := some (o.resumed c) } := by
    rw [hc, Option.map_some]
  have hmod : u.modOp d (fun y => { y.newField with cmd := y.cmd.map y.resumed }) =
      u.setOp d (some { o.newField with cmd := some (o.resumed c) }) := by
    rw [State.modOp_some _ _ _ ho, hcmd]
  unfold State.keptAside
  rw [hmod]
  split
  · next hs => rw [State.setAside_empty (u := u.setOp d _) hs, State.modOp_setOp, Operation.kept]
  · next hs => rw [State.setAside_drains (u := u.setOp d _) hs, State.modOp_setOp, Operation.kept]

theorem State.keptAside_op : ∃ y, (u.keptAside d p o c).op d = some y ∧ y.recovery = o.recovery := by
  have hop : ((u.setOp d (some (o.kept c p))).freePathOfPort p).op d = some (o.kept c p) := by
    rw [State.freePathOfPort_eq]
    exact State.setOp_op_same _ _ _
  unfold State.keptAside
  split
  · rw [State.endConnection_op, hop]
    exact ⟨_, rfl, rfl⟩
  · exact ⟨_, hop, rfl⟩

theorem State.keptAside_tables : (u.keptAside d p o c).typeOf d = u.typeOf d ∧ (u.keptAside d p o c).now = u.now ∧
    (u.keptAside d p o c).pos d = u.pos d := by
  unfold State.keptAside
  split
  · rw [State.endConnection_typeOf, State.endConnection_now, State.endConnection_pos, State.freePathOfPort_eq]
    exact ⟨rfl, rfl, rfl⟩
  · rw [State.freePathOfPort_eq]
    exact ⟨rfl, rfl, rfl⟩

theorem State.mispositionConnected_recovers (ho : u.op d = some o) (hc : o.cmd = some c) (hr : o.recovery = false)
    (hu : (u.pos d).unanswered < 2) : u.mispositionConnected d p = ((u.keptAside d p o c).modOp d fun y =>
      { y with recovery := true, work := .positioning, orient := none }).modPos d (sentHome (u.typeOf d) u.now) := by
  obtain ⟨y, hy, hrec⟩ := State.keptAside_op (u := u) (d := d) (p := p) (o := o) (c := c)
  obtain ⟨htype, hnow, hpos⟩ := State.keptAside_tables (u := u) (d := d) (p := p) (o := o) (c := c)
  unfold State.mispositionConnected
  rw [State.setAside_keeps ho hc, State.misposition_recovers hy (hrec.trans hr) (by rw [hpos]; exact hu), htype, hnow,
    State.modOp_some _ _ _ hy]

/-! ### The key field (R85) -/

theorem State.keyRead_compares (ho : u.op d = some o) (hc : o.cmd = some (.search k a .key)) (ht : u.keyInTime d o = true) :
    u.keyRead d p o key = u.ends d p { o with
      keyCheck := true, searchIndex := if keyMeets k key a then 0 else o.searchIndex }
      { done := true, matched := keyMeets k key a } := by
  have hkey : u.keyRead d p o key = u.compareKey d p k a key := by
    unfold State.keyRead
    rw [hc]
    exact if_pos ht
  have hcompare := State.compareKey_setOp (u := u) (d := d) (p := p) (y := o) (k := k) (a := a) (key := key)
  rw [State.setOp_self _ _ ho] at hcompare
  exact hkey.trans hcompare

theorem State.keyRead_early (hc : o.cmd = some (.search k a .key)) (ht : ¬ u.keyInTime d o = true) : u.keyRead d p o key = u := by
  unfold State.keyRead
  rw [hc]
  exact if_neg ht

theorem State.keyRead_none (hc : o.cmd = none) : u.keyRead d p o key = u := by
  unfold State.keyRead
  rw [hc]

end Fields

end Sys2Proof.Machine
end

section
/-! SUPPORT. Data fields read in a connection (5.5, 5.8, 5.9). -/

namespace Sys2Proof.Machine

open Sys2Proof

/-! ### Frames (R90) -/

section Frames
variable {s u : State} {p : Port} {a off n : Nat} {f : List Byte} {fs : List (List Byte)} {bs still : List Byte}

-- The proofs before this one end before those after it begin: they have to compile within the check's memory.
set_option Elab.async false in
/-- Bytes are cut into full frames in one way. -/
theorem fullFrames_flatten (hfull : ∀ f ∈ fs, f.length = 256) (hstill : still.length < 256) (hn : fs.length ≤ n) :
    fullFrames n (fs.flatten ++ still) = (fs, still) := by
  induction fs generalizing n with
  | nil =>
    cases n with
    | zero => rfl
    | succ n =>
      unfold fullFrames
      exact if_pos hstill
  | cons f fs ih =>
    cases n with
    | zero => simp at hn
    | succ n =>
      have hf : f.length = 256 := hfull f List.mem_cons_self
      have hbytes : (f :: fs).flatten ++ still = f ++ (fs.flatten ++ still) := by simp
      have hdrop : (f ++ (fs.flatten ++ still)).drop 256 = fs.flatten ++ still := by
        rw [← hf]
        exact List.drop_left
      have htake : (f ++ (fs.flatten ++ still)).take 256 = f := by
        rw [← hf]
        exact List.take_left
      have hrest := ih (n := n) (fun g hg => hfull g (List.mem_cons_of_mem _ hg)) (by simpa using hn)
      unfold fullFrames
      rw [hbytes, if_neg (by simp [hf]), hdrop, htake, hrest]

/-- Every frame but an empty one takes a byte or more. -/
theorem length_le_flatten (h : ∀ f ∈ fs, f.length = 256) : fs.length ≤ fs.flatten.length := by
  induction fs with
  | nil => exact le_refl _
  | cons f fs ih =>
    have hf := h f List.mem_cons_self
    have hrest := ih fun g hg => h g (List.mem_cons_of_mem _ hg)
    simp only [List.flatten_cons, List.length_append, List.length_cons]
    omega

/-- The frames formed as the field goes on: full ones alone (R90). -/
theorem framesOf_part (hfull : ∀ f ∈ fs, f.length = 256) (hstill : still.length < 256) :
    framesOf (fs.flatten ++ still) false = (fs, still) := by
  unfold framesOf
  rw [fullFrames_flatten hfull hstill (by rw [List.length_append]; exact (length_le_flatten hfull).trans (Nat.le_add_right _ _))]
  exact if_neg (by simp)

/-- The frames formed as the field's transfer ends: the last one as long as what is left (R90). -/
theorem framesOf_end (hne : ∀ f ∈ fs, f ≠ [] ∧ f.length ≤ 256) (hfull : ∀ f ∈ fs.dropLast, f.length = 256) :
    framesOf fs.flatten true = (fs, []) := by
  obtain rfl | ⟨init, f, hcat⟩ := List.eq_nil_or_concat fs
  · rfl
  rw [List.concat_eq_append] at hcat
  subst hcat
  rw [List.dropLast_concat] at hfull
  obtain ⟨hf, hle⟩ := hne f (by simp)
  have hflat : (init ++ [f]).flatten = init.flatten ++ f := by simp
  unfold framesOf
  by_cases hlast : f.length = 256
  · have hall : ∀ g ∈ init ++ [f], g.length = 256 := fun g hg => by
      obtain hg | rfl := by simpa using hg
      · exact hfull g hg
      · exact hlast
    have hcut := fullFrames_flatten (still := []) hall (by simp) (length_le_flatten hall)
    rw [List.append_nil] at hcut
    rw [hcut]
    exact if_neg (by simp)
  · have hcut := fullFrames_flatten (n := (init.flatten ++ f).length) (still := f) hfull (by omega)
      (by rw [List.length_append]; exact (length_le_flatten hfull).trans (Nat.le_add_right _ _))
    rw [hflat, hcut]
    exact if_pos ⟨rfl, hf⟩

/-- The DATA frames of these bytes, from this offset on. -/
def framesAt (a : Nat) : Nat → List (List Byte) → List OutFrame
  | _, [] => []
  | off, f :: fs => .data a off f :: framesAt a (off + f.length) fs

theorem framesAt_eq (hfull : ∀ f ∈ fs.dropLast, f.length = 256) :
    framesAt a off fs = fs.mapIdx fun n f => OutFrame.data a (off + 256 * n) f := by
  induction fs generalizing off with
  | nil => rfl
  | cons f fs ih =>
    cases fs with
    | nil => rfl
    | cons g fs =>
      have hf : f.length = 256 := hfull f (by simp)
      have hrest : ∀ x ∈ (g :: fs).dropLast, x.length = 256 := fun x hx => hfull x (by simp [hx])
      have hshift : (fun n x => OutFrame.data a (off + 256 + 256 * n) x) = fun n x => OutFrame.data a (off + 256 * (n + 1)) x := by
        funext n x
        rw [Nat.mul_add, Nat.mul_one, Nat.add_comm (256 * n), Nat.add_assoc]
      rw [framesAt, ih hrest, hf, hshift]
      exact (List.mapIdx_cons (f := fun n x => OutFrame.data a (off + 256 * n) x) (a := f) (l := g :: fs)).symm

/-- The port with these frames at the end of its link. -/
def State.links (s : State) (p : Port) (fr : List OutFrame) : State := s.modPort p fun y => { y with link := y.link ++ fr }

theorem State.links_nil : s.links p [] = s := by
  unfold State.links
  simp only [List.append_nil]
  exact State.modPort_id s p

theorem State.push_links {x : OutFrame} {fr : List OutFrame} : (s.push p x).links p fr = s.links p (x :: fr) := by
  unfold State.links State.push
  rw [State.modPort_modPort]
  simp only [List.append_assoc, List.singleton_append]

theorem State.push_bufferCount : ((s.push p (.data a off f)).port p).bufferCount = (s.port p).bufferCount + 1 := by
  unfold State.push PortRec.bufferCount PortRec.slots
  rw [State.modPort_port_same]
  dsimp only
  rw [List.filter_append, List.length_append, List.filter_cons_of_pos rfl, List.length_cons, List.filter_nil, List.length_nil]
  omega

theorem State.links_slots : ((s.links p (framesAt a off fs)).port p).slots = (s.port p).slots + fs.length := by
  have hdata : ∀ off, ((framesAt a off fs).filter OutFrame.isData).length = fs.length := by
    induction fs with
    | nil => exact fun _ => rfl
    | cons f fs ih =>
      intro off
      rw [framesAt, List.filter_cons_of_pos rfl, List.length_cons, List.length_cons, ih (off + f.length)]
  unfold State.links PortRec.slots
  rw [State.modPort_port_same]
  simp only [List.filter_append, List.length_append]
  rw [hdata]

/-- Frames that find a slot each enter the buffer (R152). -/
theorem State.formFrames_fit (hfit : (s.port p).bufferCount + fs.length ≤ 2) :
    s.formFrames p a off fs = (s.links p (framesAt a off fs), off + fs.flatten.length, false) := by
  induction fs generalizing s off with
  | nil =>
    rw [State.formFrames, framesAt, State.links_nil]
    rfl
  | cons f fs ih =>
    rw [List.length_cons] at hfit
    rw [State.formFrames, if_neg (by omega), ih (by rw [State.push_bufferCount]; omega), State.push_links, framesAt,
      List.flatten_cons, List.length_append, Nat.add_assoc]

/-- A frame formed while both slots are full is discarded, and no more are formed (R97, R152). -/
theorem State.formFrames_full (hne : fs ≠ []) (hfull : 2 < (s.port p).bufferCount + fs.length) :
    ∃ stop, s.formFrames p a off fs = (s.links p (framesAt a off (fs.take (2 - (s.port p).bufferCount))), stop, true) := by
  induction fs generalizing s off with
  | nil => exact absurd rfl hne
  | cons f fs ih =>
    rw [List.length_cons] at hfull
    by_cases hb : 2 ≤ (s.port p).bufferCount
    · refine ⟨off, ?_⟩
      rw [State.formFrames, if_pos hb, Nat.sub_eq_zero_of_le hb, List.take_zero, framesAt, State.links_nil]
    · have hmore : fs ≠ [] := by
        rintro rfl
        simp at hfull
        omega
      obtain ⟨stop, hstop⟩ := ih (s := s.push p (.data a off f)) (off := off + f.length) hmore
        (by rw [State.push_bufferCount]; omega)
      have hroom : 2 - (s.port p).bufferCount = 2 - ((s.push p (.data a off f)).port p).bufferCount + 1 := by
        rw [State.push_bufferCount]
        omega
      refine ⟨stop, ?_⟩
      rw [State.formFrames, if_neg hb, hstop, hroom, List.take_succ_cons, framesAt, State.push_links]

/-! ### Where the frames of the buffer end (R90, log 61) -/

/-- The farthest end of a DATA frame so far. -/
def OutFrame.farther (m : Nat) (x : OutFrame) : Nat :=
  match x with
  | .data _ off bs => max m (off + bs.length)
  | .status _ _ _ | .request _ _ _ | .offer _ _ => m

theorem PortRec.dataEnd_fold (y : PortRec) : y.dataEnd = y.link.foldl OutFrame.farther 0 := rfl

theorem OutFrame.farther_ge (m : Nat) (x : OutFrame) : m ≤ OutFrame.farther m x := by
  cases x with
  | data a off bs => exact Nat.le_max_left _ _
  | status | request | offer => exact le_refl _

theorem OutFrame.farther_le {m b : Nat} {x : OutFrame} (hm : m ≤ b) (h : ∀ a off f, OutFrame.data a off f = x → off + f.length ≤ b) :
    OutFrame.farther m x ≤ b := by
  cases x with
  | data a off bs => exact max_le hm (h a off bs rfl)
  | status | request | offer => exact hm

theorem foldl_farther_ge (l : List OutFrame) (m : Nat) : m ≤ l.foldl OutFrame.farther m := by
  induction l generalizing m with
  | nil => exact le_refl _
  | cons x l ih => exact (OutFrame.farther_ge m x).trans (ih _)

theorem foldl_farther_mem {l : List OutFrame} (h : OutFrame.data a off f ∈ l) (m : Nat) :
    off + f.length ≤ l.foldl OutFrame.farther m := by
  induction l generalizing m with
  | nil => cases h
  | cons x l ih =>
    obtain rfl | h := List.mem_cons.mp h
    · exact (Nat.le_max_right m _).trans (foldl_farther_ge l (max m (off + f.length)))
    · exact ih h _

theorem foldl_farther_le {l : List OutFrame} {m b : Nat} (hm : m ≤ b)
    (h : ∀ a off f, OutFrame.data a off f ∈ l → off + f.length ≤ b) : l.foldl OutFrame.farther m ≤ b := by
  induction l generalizing m with
  | nil => exact hm
  | cons x l ih =>
    exact ih (OutFrame.farther_le hm fun a off f hx => h a off f (hx ▸ List.mem_cons_self)) fun a off f hx =>
      h a off f (List.mem_cons_of_mem _ hx)

/-- The farthest end is that of one of the frames, and no frame ends after it. -/
theorem PortRec.dataEnd_eq {y : PortRec} {sent : Nat} (hex : ∃ a off f, OutFrame.data a off f ∈ y.link ∧ off + f.length = sent)
    (hall : ∀ a off f, OutFrame.data a off f ∈ y.link → off + f.length ≤ sent) : y.dataEnd = sent := by
  obtain ⟨a, off, f, hmem, rfl⟩ := hex
  rw [PortRec.dataEnd_fold]
  exact le_antisymm (foldl_farther_le (Nat.zero_le _) hall) (foldl_farther_mem hmem 0)

end Frames

/-! ### A READ's data field (R89, R95, R97) -/

section DataFields
variable {s u v w W : State} {d : Drive} {p : Port} {o y seen : Operation} {r : ReadCmd} {x : RecordAt} {bs : List Byte}
  {fs : List (List Byte)} {still : List Byte} {ends good : Bool} {outcome : Option Bool} {t l : Track}

theorem exec_dataFieldRead (hu : s.Finds u) (hr : (u.pos d).actuator ≠ .notReady) (ho : u.op d = some o) (hp : o.conn = some p)
    (hv : u.dataRead d p o bs (if ends then some good else none) = v) :
    exec (.dataFieldRead d bs ends good) s = .next v.serveClaims := by
  unfold exec execDataFieldRead
  exact (State.perform_finds _ hu).trans (by
    rw [State.fromReady, if_neg hr, State.connected, ho]
    dsimp only
    rw [hp]
    exact congrArg (fun v : State => Host.Outcome.next v.serveClaims) hv)

theorem State.dataInTime_iff (hx : o.current = some x) : u.dataInTime d o = true ↔
    o.lost = false ∧ u.inTime d o (x.start + 28 + x.id.keyLength) = true := by
  unfold State.dataInTime
  rw [hx]
  exact State.reaches_iff

theorem State.readsData_iff (hc : o.cmd = some (.read r)) (hph : r.phase = .data) (ht : u.dataInTime d o = true) :
    u.readsData d o = some r := by
  unfold State.readsData
  rw [hc]
  exact if_pos ⟨hph, ht⟩

theorem State.readsData_late (hc : o.cmd = some (.read r)) (ht : ¬ u.dataInTime d o = true) : u.readsData d o = none := by
  unfold State.readsData
  rw [hc]
  exact if_neg fun h => ht h.2

theorem State.readsData_none (hc : o.cmd = none) : u.readsData d o = none := by
  unfold State.readsData
  rw [hc]

/-- Without a READ's field and without the read a SEARCH left armed, a data field passes. -/
theorem State.dataRead_passes (hn : u.readsData d o = none) (hk : o.keyCheck = false) : u.dataRead d p o bs outcome = u := by
  unfold State.dataRead
  rw [hn]
  exact if_neg (by simp [hk])

/-- The read that a SEARCH left armed takes the field for its check alone (R88). -/
theorem State.dataRead_checked (hc : o.cmd = none) (hk : o.keyCheck = true) :
    u.dataRead d p o bs (some good) = u.keyCheckOutcome d good := by
  have hw : u.writeReplaces d o = false := by
    unfold State.writeReplaces
    rw [hc]
  unfold State.dataRead
  rw [State.readsData_none hc]
  exact if_pos ⟨hk, hw⟩

/-- The operation as its READ goes on with a data field. -/
def Operation.reads (o : Operation) (r : ReadCmd) : Operation :=
  { o with keyCheck := false, rereadDue := false, cmd := some (.read r) }

/-- The READ after these frames and bytes of its field have passed. -/
def ReadCmd.passed (r : ReadCmd) (got : Nat) (fs : List (List Byte)) (still : List Byte) : ReadCmd :=
  { r with got := got, formed := r.formed + fs.flatten.length, forming := still }

/-- The unit after these frames of the READ have entered its buffer. -/
def State.framed (u : State) (d : Drive) (p : Port) (o : Operation) (r : ReadCmd) (fs : List (List Byte)) : State :=
  u.links p (framesAt ((u.port p).addressOf (.drive d)) (o.accounted + r.formed) fs)

theorem State.framed_mapIdx (hfull : ∀ f ∈ fs.dropLast, f.length = 256) : u.framed d p o r fs = u.modPort p fun y =>
    { y with link := y.link ++ (fs.mapIdx fun n f =>
        OutFrame.data (y.addressOf (.drive d)) (o.accounted + r.formed + 256 * n) f) } := by
  unfold State.framed State.links
  rw [framesAt_eq hfull]
  exact State.modPort_congr rfl

theorem State.framed_op : (u.framed d p o r fs).op d = u.op d := rfl

theorem Operation.fieldWant_eq (hx : o.current = some x) : o.fieldWant = min (o.byteCount - o.accounted) x.id.dataLength := by
  unfold Operation.fieldWant
  rw [hx]
  rfl

/-- The frames that a part of the field, or its rest, completes, in the two forms of the transfer's end (R90). -/
theorem framesOf_mine {mine : List Byte} {want got : Nat} (hmine : mine = fs.flatten ++ still)
    (hcut : if want ≤ got then still = [] ∧ (∀ f ∈ fs, f ≠ [] ∧ f.length ≤ 256) ∧ ∀ f ∈ fs.dropLast, f.length = 256
      else still.length < 256 ∧ ∀ f ∈ fs, f.length = 256) :
    framesOf mine (decide (want ≤ got)) = (fs, still) ∧ ∀ f ∈ fs.dropLast, f.length = 256 := by
  subst hmine
  by_cases hend : want ≤ got
  · rw [if_pos hend] at hcut
    obtain ⟨rfl, hne, hfull⟩ := hcut
    rw [decide_eq_true hend, List.append_nil]
    exact ⟨framesOf_end hne hfull, hfull⟩
  · rw [if_neg hend] at hcut
    obtain ⟨hstill, hfull⟩ := hcut
    rw [decide_eq_false hend]
    exact ⟨framesOf_part hfull hstill, fun f hf => hfull f (List.mem_of_mem_dropLast hf)⟩

/-- What the outcome of the field makes of the READ. -/
def State.fieldEnds (W : State) (d : Drive) (p : Port) (o : Operation) (r : ReadCmd) (outcome : Option Bool) : State :=
  match outcome with
  | none => W
  | some true => W.fieldGood d p o r
  | some false => W.fieldCheck d p o r

theorem State.links_setOp {fr : List OutFrame} {z : Option Operation} :
    (u.setOp d z).links p fr = (u.links p fr).setOp d z := rfl

theorem State.dataPasses_fit (hfr : framesOf (r.forming ++ bs.take (o.fieldWant - r.got))
      (decide (o.fieldWant ≤ r.got + bs.length)) = (fs, still))
    (hfit : (u.port p).bufferCount + fs.length ≤ 2) : u.dataPasses d p o r bs =
      (u.framed d p o r fs, some (r.passed (r.got + bs.length) fs still)) := by
  unfold State.dataPasses
  dsimp only
  rw [hfr]
  dsimp only
  rw [State.formFrames_fit hfit]
  dsimp only
  rw [Nat.add_sub_cancel_left]
  rfl

theorem State.dataPasses_full (hfr : framesOf (r.forming ++ bs.take (o.fieldWant - r.got))
      (decide (o.fieldWant ≤ r.got + bs.length)) = (fs, still))
    (hne : fs ≠ []) (hfull : 2 < (u.port p).bufferCount + fs.length)
    (hv : u.framed d p o r (fs.take (2 - (u.port p).bufferCount)) = v) : u.dataPasses d p o r bs =
      ((v.setCmd d (.read { r with phase := .done })).commandFault p .overrun .read
        (o.byteCount - max (o.transferred r) (v.port p).dataEnd) none, none) := by
  obtain ⟨stop, hstop⟩ := State.formFrames_full (a := (u.port p).addressOf (.drive d)) (off := o.accounted + r.formed) hne hfull
  have hport : ((v.setCmd d (.read { r with phase := .done })).port p).dataEnd = (v.port p).dataEnd := by
    rw [State.setCmd, State.modOp_port]
  unfold State.dataPasses
  dsimp only
  rw [hfr]
  dsimp only
  rw [hstop]
  dsimp only
  rw [show u.links p _ = v from hv, hport]

/-- A data field of a READ whose frames find their slots (R89, R90). -/
theorem State.dataRead_fit (ho : u.op d = some o) (hrd : u.readsData d o = some r)
    (hfr : framesOf (r.forming ++ bs.take (o.fieldWant - r.got)) (decide (o.fieldWant ≤ r.got + bs.length)) = (fs, still))
    (hfit : (u.port p).bufferCount + fs.length ≤ 2) : u.dataRead d p o bs outcome =
      ((u.framed d p o r fs).setOp d (some (o.reads (r.passed (r.got + bs.length) fs still)))).fieldEnds d p o
        (r.passed (r.got + bs.length) fs still) outcome := by
  have hmod : u.modOp d (fun o => { o with keyCheck := false, rereadDue := false }) =
      u.setOp d (some { o with keyCheck := false, rereadDue := false }) := State.modOp_some _ _ _ ho
  have hpass : (u.setOp d (some { o with keyCheck := false, rereadDue := false })).dataPasses d p o r bs =
      ((u.framed d p o r fs).setOp d (some { o with keyCheck := false, rereadDue := false }),
        some (r.passed (r.got + bs.length) fs still)) := State.dataPasses_fit hfr hfit
  have hcmd : ((u.framed d p o r fs).setOp d (some { o with keyCheck := false, rereadDue := false })).setCmd d
      (.read (r.passed (r.got + bs.length) fs still)) = (u.framed d p o r fs).setOp d
        (some (o.reads (r.passed (r.got + bs.length) fs still))) := State.setCmd_setOp
  unfold State.dataRead
  rw [hrd]
  dsimp only
  rw [hmod, hpass]
  dsimp only
  rw [hcmd]
  rfl

/-- A frame formed with both slots full ends the READ: an OVERRUN that waits for the buffer (R97, log 61). -/
theorem State.dataRead_full (ho : u.op d = some o) (hrd : u.readsData d o = some r)
    (hfr : framesOf (r.forming ++ bs.take (o.fieldWant - r.got)) (decide (o.fieldWant ≤ r.got + bs.length)) = (fs, still))
    (hne : fs ≠ []) (hfull : 2 < (u.port p).bufferCount + fs.length)
    (hv : u.framed d p o r (fs.take (2 - (u.port p).bufferCount)) = v) : u.dataRead d p o bs outcome =
      (v.setOp d (some (o.reads { r with phase := .done }))).commandFault p .overrun .read
        (o.byteCount - max (max o.accounted r.sentTo) (v.port p).dataEnd) none := by
  have hmod : u.modOp d (fun o => { o with keyCheck := false, rereadDue := false }) =
      u.setOp d (some { o with keyCheck := false, rereadDue := false }) := State.modOp_some _ _ _ ho
  have hpass := State.dataPasses_full (u := u.setOp d (some { o with keyCheck := false, rereadDue := false })) (d := d) (p := p)
    (v := v.setOp d (some { o with keyCheck := false, rereadDue := false })) hfr hne hfull (by rw [← hv]; rfl)
  have hcmd : (v.setOp d (some { o with keyCheck := false, rereadDue := false })).setCmd d (.read { r with phase := .done }) =
      v.setOp d (some (o.reads { r with phase := .done })) := State.setCmd_setOp
  rw [hcmd, State.setOp_port] at hpass
  unfold State.dataRead
  rw [hrd]
  dsimp only
  rw [hmod, hpass]
  rfl

/-! ### The field's end (R89, R91) -/

/-- The operation with the field's bytes accounted. -/
def Operation.accounts (o : Operation) (r : ReadCmd) (acc : Nat) : Operation :=
  { o.reads r with rereads := 0, accounted := acc }

theorem State.fieldGood_spans {acc : Nat} (hacc : o.accounted + min o.fieldWant r.got = acc)
    (hs : r.span = true) (hlt : acc < o.byteCount) : (v.setOp d (some (o.reads r))).fieldGood d p o r =
      v.setOp d (some (o.accounts { r with phase := .nextId .next } acc)) := by
  unfold State.fieldGood
  dsimp only
  rw [hacc, if_pos ⟨hs, hlt⟩, State.modOp_setOp, State.setCmd_setOp]
  rfl

theorem State.fieldGood_ends {acc : Nat} (hacc : o.accounted + min o.fieldWant r.got = acc)
    (hs : r.span = false ∨ o.byteCount ≤ acc) : (v.setOp d (some (o.reads r))).fieldGood d p o r =
      (v.setOp d (some (o.accounts { r with phase := .done } acc))).complete p
        { status := Status.doneWith (o.byteCount - acc), found := none, resets := true } := by
  have hover : ¬ (r.span = true ∧ acc < o.byteCount) := fun ⟨h1, h2⟩ =>
    hs.elim (fun h => by simp [h] at h1) fun h => absurd h2 (not_lt.mpr h)
  unfold State.fieldGood
  dsimp only
  rw [hacc, if_neg hover, State.modOp_setOp, State.setCmd_setOp]
  rfl

theorem State.complete_waits {m : Answer} (hs : (u.port p).slots ≠ 0) :
    u.complete p m = u.modPort p fun r => { r with answer := some m } := if_neg hs

/-- DONE at once, as the buffer holds no frame (R145). -/
theorem State.complete_sends {m : Answer} (hs : (u.port p).slots = 0) (hc : (u.port p).conn = some (.drive d))
    (hoc : y.conn = some p) (hr : m.status.reason = .none) (hres : m.resets = true) : (u.setOp d (some y)).complete p m =
      ((u.modPort p fun r => { r with answer := none }).sendStatus p (.drive d) m.status false).setOp d
        (some { y with cmd := none, idle := 0, searchIndex := 0 }) := by
  have hnow : (u.setOp d (some y)).complete p m = (u.setOp d (some y)).produce p m := if_pos hs
  rw [hnow, State.produce_done (s := u.setOp d (some y)) hc (State.setOp_op_same _ _ _) hoc hr, hres, if_pos rfl]
  exact State.setOp_setOp ((u.modPort p fun r => { r with answer := none }).sendStatus p (.drive d) m.status false) d _ _

/-! ### A data check (R95, R96) -/

/-- A check once reported, as the operation and the unit then stand: `seen` and `w`. -/
structure Reported (v : State) (d : Drive) (p : Port) (o : Operation) (r : ReadCmd) (seen : Operation) (w : State) : Prop where
  told : (v.setOp d (some (o.reads r))).reportCheck d .dataCheck = w.setOp d (some (seen.reads r))
  typeOf : w.typeOf d = v.typeOf d
  slots : (w.port p).slots = (v.port p).slots
  conn : (w.port p).conn = (v.port p).conn
  rereads : seen.rereads = o.rereads
  retries : seen.retries = o.retries
  port : seen.conn = o.conn

theorem Reported.again (h : ∀ t, o.target = some t → t ∈ o.reported) : Reported v d p o r o v where
  told := State.reportCheck_silent (u := v.setOp d (some (o.reads r))) (o := o.reads r) (State.setOp_op_same _ _ _) h
  typeOf := rfl
  slots := rfl
  conn := rfl
  rereads := rfl
  retries := rfl
  port := rfl

theorem Reported.first (ht : o.target = some t) (hl : o.logical = some l) (hr : t ∉ o.reported) :
    Reported v d p o r { o with reported := t :: o.reported }
      ((v.setOp d (some (({ o with reported := t :: o.reported } : Operation).reads r))).suspectUpdate d t l .dataCheck) := by
  have htold : (v.setOp d (some (o.reads r))).told d (o.reads r) t l .dataCheck =
      (v.setOp d (some (({ o with reported := t :: o.reported } : Operation).reads r))).suspectUpdate d t l .dataCheck := by
    unfold State.told
    rw [State.setOp_setOp]
    rfl
  have hop := State.told_op (u := v.setOp d (some (o.reads r))) (d := d) (o := o.reads r) (t := t) (l := l) (k := .dataCheck)
  have hfirst := State.reportCheck_first (u := v.setOp d (some (o.reads r))) (o := o.reads r) (k := .dataCheck)
    (State.setOp_op_same _ _ _) ht hl hr
  have hslots := State.told_slots (u := v.setOp d (some (o.reads r))) (d := d) (p := p) (o := o.reads r) (t := t) (l := l)
    (k := .dataCheck)
  have hconn := State.told_conn (u := v.setOp d (some (o.reads r))) (d := d) (p := p) (o := o.reads r) (t := t) (l := l)
    (k := .dataCheck)
  have htype := State.told_typeOf (u := v.setOp d (some (o.reads r))) (d := d) (o := o.reads r) (t := t) (l := l)
    (k := .dataCheck)
  rw [htold] at hop hfirst hslots hconn htype
  exact { told := hfirst.trans (State.setOp_self _ _ hop).symm, typeOf := htype, slots := hslots, conn := hconn,
          rereads := rfl, retries := rfl, port := rfl }

theorem State.fieldCheck_rereads (h : Reported v d p o r seen w) (hb : o.rereads < (v.typeOf d).retryBudget) :
    (v.setOp d (some (o.reads r))).fieldCheck d p o r = w.setOp d (some { seen with
      keyCheck := false, rereads := o.rereads + 1, retries := min 255 (o.retries + 1), rereadDue := true, marksSince := 0,
      cmd := some (.read r.atData) }) := by
  have hcan : (w.setOp d (some (seen.reads r))).canReread d o = true :=
    State.canReread_iff.mpr (show o.rereads < (w.typeOf d).retryBudget by rw [h.typeOf]; exact hb)
  unfold State.fieldCheck
  dsimp only
  rw [h.told, if_pos hcan, State.reread_eq (State.setOp_op_same _ _ _), State.setOp_setOp, State.setCmd_setOp, ← h.rereads,
    ← h.retries]
  rfl

theorem State.fieldCheck_over (h : Reported v d p o r seen w) (hb : (v.typeOf d).retryBudget ≤ o.rereads) :
    (v.setOp d (some (o.reads r))).fieldCheck d p o r =
      (w.setOp d (some (seen.reads { r with phase := .done }))).commandFault p .dataCheck .read (o.byteCount - o.accounted) none := by
  have hcan : ¬ (w.setOp d (some (seen.reads r))).canReread d o = true := fun hcan =>
    absurd (State.canReread_iff.mp hcan)
      (show ¬ o.rereads < (w.typeOf d).retryBudget by rw [h.typeOf]; exact not_lt.mpr hb)
  unfold State.fieldCheck
  dsimp only
  rw [h.told, if_neg hcan, State.setCmd_setOp]
  rfl

theorem State.keyCheckOutcome_good (ho : u.op d = some o) :
    u.keyCheckOutcome d true = u.setOp d (some { o with keyCheck := false }) := by
  unfold State.keyCheckOutcome
  rw [State.modOp_some _ _ _ ho]
  rfl

theorem State.keyCheckOutcome_first (ho : u.op d = some o) (ht : o.target = some t) (hl : o.logical = some l)
    (hr : t ∉ o.reported) : u.keyCheckOutcome d false =
      (u.setOp d (some { o with keyCheck := false, reported := t :: o.reported })).suspectUpdate d t l .dataCheck := by
  have hfirst := State.reportCheck_first (u := u.setOp d (some { o with keyCheck := false })) (k := .dataCheck)
    (o := { o with keyCheck := false }) (State.setOp_op_same _ _ _) ht hl hr
  unfold State.keyCheckOutcome
  rw [State.modOp_some _ _ _ ho]
  refine (if_neg (by simp)).trans (hfirst.trans ?_)
  unfold State.told
  rw [State.setOp_setOp]

end DataFields

end Sys2Proof.Machine
end

section
/-! SUPPORT. The fields of a connection: how a command set aside is resumed, and the obligation. -/

namespace Sys2Proof.Machine

open Sys2Proof

section Resumed
variable {o : Operation} {r : ReadCmd} {z : WriteCmd} {g : Finding} {w : Awaited} {ph : ReadPhase} {x : RecordAt} {t : Track}
  {n : Option RecordAt}

/-- A READ set aside begins its field anew, from the index (R46). -/
def ReadCmd.sought (r : ReadCmd) (ph : ReadPhase) : Cmd := .read { r with phase := ph, got := 0, formed := 0, forming := [] }

-- The proofs before this one end before those after it begin: they have to compile within the check's memory.
set_option Elab.async false in
theorem Operation.resumed_between (h : r.phase = .nextId w ∨ r.phase = .home) :
    o.resumed (.read r) = r.sought (.find o.currentHere Finding.fromIndex) := by
  unfold Operation.resumed
  dsimp only
  obtain h | h := h <;> rw [h] <;> rfl

theorem Operation.resumed_data (h : r.phase = .data) : o.resumed (.read r) = r.sought (.seek Finding.fromIndex) := by
  unfold Operation.resumed
  dsimp only
  rw [h]
  rfl

theorem Operation.resumed_seek (h : r.phase = .seek g) : o.resumed (.read r) = r.sought (.seek g.again) := by
  unfold Operation.resumed
  dsimp only
  rw [h]
  rfl

/-- A WRITE set aside asks for all its bytes anew, from the index (R46, log 62). -/
def WriteCmd.sought (z : WriteCmd) (g : Finding) : Cmd := .write { z with bytes := [], toAsk := [(0, z.need)], seek := some g }

theorem Operation.resumed_write (h : z.seek = none) : o.resumed (.write z) = z.sought Finding.fromIndex := by
  unfold Operation.resumed
  dsimp only
  rw [h]
  rfl

theorem Operation.resumed_writeSeek (h : z.seek = some g) : o.resumed (.write z) = z.sought g.again := by
  unfold Operation.resumed
  dsimp only
  rw [h]
  rfl

theorem Operation.currentHere_some (hx : o.current = some x) (ht : o.logical = some t) :
    o.currentHere = if x.id.address = t then some x else none := by
  unfold Operation.currentHere
  rw [hx, ht]

theorem Operation.currentHere_none (hx : o.current = none) : o.currentHere = none := by
  unfold Operation.currentHere
  rw [hx]

end Resumed

section Takes
variable {u : State} {d : Drive} {p : Port} {o : Operation} {k : SearchCond} {a : List Byte} {w : Awaited} {r : ReadCmd}
  {z : WriteCmd} {g : Finding} {q b : Nat} {f : IdField} {t l : Track} {h : RecordAt} {n : Option RecordAt} {c : Cmd}

/-! ### ID fields, by what the command makes of them -/

theorem State.idRead_locate_done (ho : u.op d = some o) (hc : o.cmd = some (.locate g)) (hg : g.waitIndex = false)
    (hl : o.logical = some f.address) (hn : f.number = o.record) : u.idRead d p o ⟨q, b, some f⟩ =
      u.ends d p { o.atRecord ⟨q, f⟩ with searchIndex := 0 } { done := true } := by
  rw [State.idRead_good, State.good_locate hc, Operation.elsewhere_here hl, State.soughtId_takes hg, if_pos hn,
    State.makeCurrent_eq ho, State.commandDone_setOp]
  rfl

theorem State.idRead_locate_passes (hc : o.cmd = some (.locate g)) (hg : g.waitIndex = false)
    (hl : o.logical = some f.address) (hn : f.number ≠ o.record) : u.idRead d p o ⟨q, b, some f⟩ = u := by
  rw [State.idRead_good, State.good_locate hc, Operation.elsewhere_here hl, State.soughtId_takes hg, if_neg hn]

theorem State.idRead_locate_waits (hc : o.cmd = some (.locate g)) (hg : g.waitIndex = true) (m : Option IdField) :
    u.idRead d p o ⟨q, b, m⟩ = u := by
  cases m with
  | none => rw [State.idRead_check, State.check_locate hc, State.soughtCheck_waits hg]
  | some f => rw [State.idRead_good, State.good_locate hc, State.soughtId_waits hg]

theorem State.idRead_search (hc : o.cmd = some (.search k a (.id w))) (hw : ∀ m, w.takes ⟨q, b, m⟩ = true)
    (hl : o.logical = some f.address) : u.idRead d p o ⟨q, b, some f⟩ = u.searchRecord d p k a ⟨q, f⟩ := by
  rw [State.idRead_good, State.good_search hc, Operation.elsewhere_here hl, if_neg (by simp), if_pos (hw _)]

theorem State.idRead_nextId (ho : u.op d = some o) (hc : o.cmd = some (.read r)) (hph : r.phase = .nextId w)
    (hw : ∀ m, w.takes ⟨q, b, m⟩ = true) (hl : o.logical = some f.address) : u.idRead d p o ⟨q, b, some f⟩ =
      u.setOp d (some { o.atRecord ⟨q, f⟩ with cmd := some (.read r.atData) }) := by
  rw [State.idRead_good, State.good_nextId hc hph, Operation.elsewhere_here hl, if_neg (by simp), if_pos (hw _),
    State.enterRecord_eq ho]

/-- An ID field that is waited for, read with a check (R95). -/
theorem State.idRead_awaitedCheck (hw : ∀ m, w.takes ⟨q, b, m⟩ = true)
    (hc : (∃ k a, o.cmd = some (.search k a (.id w))) ∨ ∃ r, o.cmd = some (.read r) ∧ r.phase = .nextId w) :
    u.idRead d p o ⟨q, b, none⟩ = u.idCheck d p o q := by
  rw [State.idRead_check]
  obtain ⟨k, a, hc⟩ | ⟨r, hc, hph⟩ := hc
  · rw [State.check_search hc, if_pos (hw _)]
  · rw [State.check_nextId hc hph, if_pos (hw _)]

theorem State.idRead_afterIndex (hc : o.cmd = some (.search k a (.id .afterIndex))) (m : Option IdField) :
    u.idRead d p o ⟨q, b, m⟩ = u := by
  cases m with
  | none =>
    rw [State.idRead_check, State.check_search hc]
    rfl
  | some f =>
    rw [State.idRead_good, State.good_search hc, if_neg (by simp [Awaited.reads])]
    rfl

/-- The command waits for another field than the ID field that passes. -/
def Operation.letsPass (o : Operation) (q b : Nat) : Prop :=
  (∃ w, ((∃ c a, o.cmd = some (.search c a (.id w))) ∨ ∃ r, o.cmd = some (.read r) ∧ r.phase = .nextId w) ∧
    ((∃ k, w = .after k ∧ k ≠ b) ∨ ∃ k, w = .place k ∧ k ≠ q)) ∨
  (∃ r, o.cmd = some (.read r) ∧ (r.phase = .data ∨ r.phase = .home)) ∨
  (∃ y, o.cmd = some (.write y) ∧ y.seek = none ∧ y.begun = false)

theorem State.idRead_letsPass (h : o.letsPass q b) (hl : o.logical = some f.address) :
    u.idRead d p o ⟨q, b, some f⟩ = u := by
  have hhere := Operation.elsewhere_here hl
  rw [State.idRead_good]
  obtain ⟨w, hc | ⟨r, hc, hph⟩, hw⟩ | ⟨r, hc, hph⟩ | ⟨y, hc, hz, -⟩ := h
  · obtain ⟨k, a, hc⟩ := hc
    rw [State.good_search hc, hhere, if_neg (by simp), if_neg (by simp [(Awaited.passes_reads hw).2])]
  · rw [State.good_nextId hc hph, hhere, if_neg (by simp), if_neg (by simp [(Awaited.passes_reads hw).2])]
  · rw [State.good_readField hc hph, hhere, if_neg (by simp)]
  · rw [State.good_write hc hz, hhere, if_neg (by simp)]

theorem State.idRead_letsPass_check (h : o.letsPass q b) : u.idRead d p o ⟨q, b, none⟩ = u.badId d := by
  rw [State.idRead_check]
  obtain ⟨w, hc | ⟨r, hc, hph⟩, hw⟩ | ⟨r, hc, hph⟩ | ⟨y, hc, hz, hb⟩ := h
  · obtain ⟨k, a, hc⟩ := hc
    rw [State.check_search hc, if_neg (by simp [(Awaited.passes_reads hw).2]), if_pos (Awaited.passes_reads hw).1]
  · rw [State.check_nextId hc hph, if_neg (by simp [(Awaited.passes_reads hw).2]), if_pos (Awaited.passes_reads hw).1]
  · exact State.check_readField hc hph
  · exact State.check_write hc hz hb

/-- A READ or WRITE that finds its current record again: the command as it seeks, and as it goes on (R46, log 62). -/
def Operation.seeks (o : Operation) (g : Finding) (at' : Finding → Cmd) (found : Cmd) : Prop :=
  (∃ r, o.cmd = some (.read r) ∧ r.phase = .seek g ∧ at' = (fun k => .read { r with phase := .seek k }) ∧
    found = .read { r with phase := .data, got := 0, formed := 0, forming := [] }) ∨
  (∃ y, o.cmd = some (.write y) ∧ y.seek = some g ∧ at' = (fun k => .write { y with seek := some k }) ∧
    found = .write { y with seek := none })

theorem State.idRead_seeks {at' : Finding → Cmd} (ho : u.op d = some o) (h : o.seeks g at' c) (hg : g.waitIndex = false)
    (hl : o.logical = some f.address) : u.idRead d p o ⟨q, b, some f⟩ =
      if o.current = some ⟨q, f⟩ then u.setOp d (some { o with cmd := some c }) else u := by
  have hhere := Operation.elsewhere_here hl
  rw [State.idRead_good]
  obtain ⟨r, hc, hph, -, rfl⟩ | ⟨y, hc, hz, -, rfl⟩ := h
  · rw [State.good_readSeek hc hph, hhere, State.soughtId_takes hg, State.setCmd_eq ho]
    rfl
  · rw [State.good_writeSeek hc hz, hhere, State.soughtId_takes hg, State.setCmd_eq ho]

theorem State.idRead_seeks_check {at' : Finding → Cmd} (ho : u.op d = some o) (h : o.seeks g at' c) (hg : g.waitIndex = false)
    (ht : o.target = some t) (hr : t ∈ o.reported) : u.idRead d p o ⟨q, b, none⟩ =
      u.setOp d (some { o with cmd := some (at' { g with noted := true, waitIndex := true }) }) := by
  rw [State.idRead_check]
  obtain ⟨r, hc, hph, rfl, -⟩ | ⟨y, hc, hz, rfl, -⟩ := h
  · rw [State.check_readSeek hc hph, State.soughtCheck_notes hg ho ht hr]
  · rw [State.check_writeSeek hc hz, State.soughtCheck_notes hg ho ht hr]

theorem State.idRead_seeks_waits (hg : g.waitIndex = true) (h : (∃ r, o.cmd = some (.read r) ∧ r.phase = .seek g) ∨
    (∃ y, o.cmd = some (.write y) ∧ y.seek = some g)) (m : Option IdField) : u.idRead d p o ⟨q, b, m⟩ = u := by
  cases m with
  | none =>
    rw [State.idRead_check]
    obtain ⟨r, hc, hph⟩ | ⟨y, hc, hz⟩ := h
    · rw [State.check_readSeek hc hph, State.soughtCheck_waits hg]
    · rw [State.check_writeSeek hc hz, State.soughtCheck_waits hg]
  | some f =>
    rw [State.idRead_good]
    obtain ⟨r, hc, hph⟩ | ⟨y, hc, hz⟩ := h
    · rw [State.good_readSeek hc hph, State.soughtId_waits hg]
    · rw [State.good_writeSeek hc hz, State.soughtId_waits hg]

theorem State.idRead_find (ho : u.op d = some o) (hc : o.cmd = some (.search k a (.find (some h) g))) (hg : g.waitIndex = false)
    (hl : o.logical = some f.address) : u.idRead d p o ⟨q, b, some f⟩ =
      if h = ⟨q, f⟩ then u.setOp d (some { o with cmd := some (.search k a (.id .next)) }) else u := by
  rw [State.idRead_good, State.good_find_record hc, Operation.elsewhere_here hl, State.soughtId_takes hg, State.setCmd_eq ho]

theorem State.idRead_find_first (hc : o.cmd = some (.search k a (.find none g))) (hg : g.waitIndex = false)
    (hl : o.logical = some f.address) : u.idRead d p o ⟨q, b, some f⟩ = u.searchRecord d p k a ⟨q, f⟩ := by
  rw [State.idRead_good, State.good_find_first hc, Operation.elsewhere_here hl, State.soughtId_takes hg]

end Takes

/-- Settles O58: how each command set aside is resumed; then ID fields by the command in progress and what it waits for, the
key field, and the data field by its frames, its end and its check. -/
theorem fieldsOfAConnection : Obligations.FieldsOfAConnection := by
  unfold Obligations.FieldsOfAConnection
  refine ⟨fun o g c a w r => ?_, fun s u d p o hu hr ho hp => ?_⟩
  · intro start
    refine ⟨rfl, fun ph hph => by obtain rfl | rfl := hph <;> rfl, Operation.resumed_between, fun ph hph => ?_,
      fun y n hy => ?_, fun x t => Operation.currentHere_some, Operation.currentHere_none⟩
    · obtain ⟨hph, rfl⟩ | ⟨hph, rfl⟩ := hph
      · exact Operation.resumed_data hph
      · exact Operation.resumed_seek hph
    · obtain ⟨hz, rfl⟩ | ⟨hz, rfl⟩ := hy
      · exact Operation.resumed_write hz
      · exact Operation.resumed_writeSeek hz
  · intro done keyTimely homeAgain
    have hid : ∀ {q b c v}, (u.inTime d o q = true ∨ homeAgain) → o.lost = false → u.idRead d p o ⟨q, b, c⟩ = v →
        exec (.idFieldRead d ⟨q, b, c⟩) s = .next v.serveClaims := fun {q b c v} ht hl hv =>
      exec_idFieldRead hu hr ho hp ((State.idArrives_read (x := ⟨q, b, c⟩) hl (ht.imp_right o.homeAgain_iff.mpr)).trans hv)
    refine ⟨fun q b c hno => exec_idFieldRead hu hr ho hp (State.idArrives_passes (x := ⟨q, b, c⟩)
        (hno.imp_left fun ⟨h1, h2⟩ => ⟨h1, fun h => h2 (o.homeAgain_iff.mp h)⟩)), fun q b ht hl =>
      ⟨fun g c hc hg => hid ht hl (State.idRead_locate_waits hc hg c), fun g hc hg => ⟨fun f hlog => ⟨fun hn => ?_, fun hn => ?_⟩,
          fun t htg hrep => ?_⟩, fun c a w hc hw => ⟨fun f hlog => ⟨fun hk => ?_, fun hk => ?_⟩, fun t htg hrep =>
          ⟨fun hb => ?_, fun hb hs hcn => ?_⟩⟩, fun c a x hc => hid ht hl (State.idRead_afterIndex hc x),
        fun hpass => ⟨fun f hlog => hid ht hl (State.idRead_letsPass hpass hlog), fun t htg hrep => ?_,
          fun t l htg hlog hrep => ?_⟩, fun g hg at' found hseek => ⟨fun f hlog => ⟨fun hcur => ?_, fun hcur => ?_⟩,
          fun t htg hrep => hid ht hl (State.idRead_seeks_check ho hseek hg htg hrep)⟩,
        fun g x hg hseek => hid ht hl (State.idRead_seeks_waits hg hseek x), fun c a x hc => hid ht hl (State.idRead_over hc),
        fun c a n g f hc hg hlog => ⟨fun hn => ?_, fun x hn hne => ?_, fun t htg hrep => ?_, fun hn hk => ?_⟩,
        fun r w hc hph hw => ⟨fun f hlog => hid ht hl (State.idRead_nextId ho hc hph (Awaited.takes_reads hw).2 hlog),
          fun t htg hrep => ⟨fun hb => ?_, fun hb hs => ?_⟩⟩, fun c f hc htests hlog hrec hun => ?_⟩,
      fun c a key hc => ⟨fun htimely => ?_, fun hlate => ?_⟩, fun hc => ⟨fun key => ?_, fun bs => ⟨fun hk ends good => ?_,
        fun hk => ?_, fun t l hk htg hlog hrep => ?_⟩⟩, fun r x bs hc hph hx => ?_⟩
    · exact hid ht hl (State.idRead_locate_done ho hc hg hlog hn)
    · exact hid ht hl (State.idRead_locate_passes hc hg hlog hn)
    · refine hid ht hl ?_
      rw [State.idRead_check, State.check_locate hc, State.soughtCheck_notes hg ho htg hrep]
    · exact hid ht hl ((State.idRead_search hc (Awaited.takes_reads hw).2 hlog).trans (State.searchRecord_keyed ho hk))
    · exact hid ht hl ((State.idRead_search hc (Awaited.takes_reads hw).2 hlog).trans (State.searchRecord_keyless ho hk))
    · exact hid ht hl ((State.idRead_awaitedCheck (Awaited.takes_reads hw).2 (.inl ⟨c, a, hc⟩)).trans
        (State.idCheck_rereads ho htg hrep hc hb))
    · have hres : o.faultResidual = 0 := by
        unfold Operation.faultResidual
        rw [hc]
      have hover := State.idCheck_over (p := p) (q := q) ho htg hrep hc hb
      rw [hres] at hover
      exact hid ht hl ((State.idRead_awaitedCheck (Awaited.takes_reads hw).2 (.inl ⟨c, a, hc⟩)).trans
        (hover.trans (State.commandFault_produced (o := o) hs hcn hp rfl)))
    · exact hid ht hl ((State.idRead_letsPass_check hpass).trans (State.badId_again ho htg hrep))
    · exact hid ht hl ((State.idRead_letsPass_check hpass).trans (State.badId_first ho htg hlog hrep))
    · exact hid ht hl ((State.idRead_seeks ho hseek hg hlog).trans (if_pos hcur))
    · exact hid ht hl ((State.idRead_seeks ho hseek hg hlog).trans (if_neg hcur))
    · subst hn
      exact hid ht hl ((State.idRead_find ho hc hg hlog).trans (if_pos rfl))
    · subst hn
      exact hid ht hl ((State.idRead_find ho hc hg hlog).trans (if_neg hne))
    · refine hid ht hl ?_
      rw [State.idRead_check, State.check_find hc, State.soughtCheck_notes hg ho htg hrep]
    · subst hn
      exact hid ht hl ((State.idRead_find_first hc hg hlog).trans (State.searchRecord_keyed ho hk))
    · exact hid ht hl ((State.idRead_awaitedCheck (Awaited.takes_reads hw).2 (.inr ⟨r, hc, hph⟩)).trans
        (State.idCheck_rereads ho htg hrep hc hb))
    · have hres : o.faultResidual = o.byteCount - o.accounted := by
        unfold Operation.faultResidual
        rw [hc]
      have hover := State.idCheck_over (p := p) (q := q) ho htg hrep hc hb
      rw [hres] at hover
      exact hid ht hl ((State.idRead_awaitedCheck (Awaited.takes_reads hw).2 (.inr ⟨r, hc, hph⟩)).trans
        (hover.trans (State.commandFault_waits hs)))
    · intro kept aside
      exact hid ht hl ((State.idRead_wrong hc htests hlog).trans (State.mispositionConnected_recovers ho hc hrec hun))
    · obtain ⟨hl, x, hx, ht⟩ := htimely
      exact exec_keyFieldRead hu hr ho hp (State.keyRead_compares ho hc (State.keyInTime_iff.mpr ⟨x, hx, hl, ht⟩))
    · refine exec_keyFieldRead hu hr ho hp (State.keyRead_early hc fun h => hlate ?_)
      obtain ⟨x, hx, hl, ht⟩ := State.keyInTime_iff.mp h
      exact ⟨hl, x, hx, ht⟩
    · exact exec_keyFieldRead hu hr ho hp (State.keyRead_none hc)
    · exact exec_dataFieldRead hu hr ho hp (State.dataRead_passes (State.readsData_none hc) hk)
    · exact exec_dataFieldRead hu hr ho hp ((State.dataRead_checked hc hk).trans (State.keyCheckOutcome_good ho))
    · exact exec_dataFieldRead hu hr ho hp ((State.dataRead_checked hc hk).trans (State.keyCheckOutcome_first ho htg hlog hrep))
    · intro want got mine
      refine ⟨fun hk hlate ends good => ?_, fun fs still ht hl hheld hmine hcut => ?_⟩
      · refine exec_dataFieldRead hu hr ho hp (State.dataRead_passes (State.readsData_late hc fun h => ?_) hk)
        obtain ⟨hl, ht⟩ := (State.dataInTime_iff hx).mp h
        obtain h | h := hlate
        · simp [ht] at h
        · simp [hl] at h
      · intro framed v passed reads failed waits
        have hwant : o.fieldWant = want := Operation.fieldWant_eq hx
        have hrd : u.readsData d o = some r := State.readsData_iff hc hph ((State.dataInTime_iff hx).mpr ⟨hl, ht⟩)
        have hcount : (u.port p).bufferCount = (u.port p).slots := by
          unfold PortRec.bufferCount
          rw [hheld]
          rfl
        obtain ⟨hframes, hfull⟩ := framesOf_mine hmine hcut
        have hfr : framesOf (r.forming ++ bs.take (o.fieldWant - r.got)) (decide (o.fieldWant ≤ r.got + bs.length)) =
            (fs, still) := by
          rw [hwant]
          exact hframes
        have hv : u.framed d p o r fs = v := State.framed_mapIdx hfull
        refine ⟨fun hfit => ?_, fun hne hmore => ?_⟩
        · have hread : ∀ outcome, u.dataRead d p o bs outcome =
              (v.setOp d (some (o.reads passed))).fieldEnds d p o passed outcome := fun outcome => by
            rw [← hv]
            exact State.dataRead_fit ho hrd hfr (by rw [hcount]; exact hfit)
          have htype : v.typeOf d = u.typeOf d := rfl
          refine ⟨fun good => exec_dataFieldRead hu hr ho hp (hread none), fun hgot => ?_, fun seen w hagain hfirst hsome => ?_⟩
          · intro ended st
            have hacc : o.accounted + min o.fieldWant passed.got = o.accounted + want := by
              show o.accounted + min o.fieldWant got = _
              rw [hwant, hgot, Nat.min_eq_left (Nat.min_le_right _ _)]
            refine ⟨fun hspan hlt => exec_dataFieldRead hu hr ho hp ((hread (some true)).trans
              (State.fieldGood_spans hacc hspan hlt)), fun hover => ⟨fun hs => ?_, fun hs hcn => ?_⟩⟩
            · exact exec_dataFieldRead hu hr ho hp ((hread (some true)).trans ((State.fieldGood_ends hacc hover).trans
                (State.complete_waits hs)))
            · exact exec_dataFieldRead hu hr ho hp ((hread (some true)).trans ((State.fieldGood_ends hacc hover).trans
                (State.complete_sends hs hcn hp rfl rfl)))
          · have hrep : Reported v d p o passed seen w := by
              by_cases hall : ∀ t, o.target = some t → t ∈ o.reported
              · obtain ⟨rfl, rfl⟩ := hagain hall
                exact Reported.again hall
              · simp only [not_forall] at hall
                obtain ⟨t, htg, hnew⟩ := hall
                obtain ⟨l, hlog⟩ := Option.ne_none_iff_exists'.mp (hsome.resolve_left (by simp [htg]))
                obtain ⟨rfl, rfl⟩ := hfirst t l htg hlog hnew
                exact Reported.first htg hlog hnew
            have hback : passed.atData = { r with got := 0, formed := 0, forming := [] } := by
              unfold ReadCmd.atData
              rw [← hph]
            refine ⟨fun hb => ?_, fun hb hs => ?_, fun hb hs hcn => ?_⟩
            · have hcheck := State.fieldCheck_rereads hrep (by rw [htype]; exact hb)
              rw [hback] at hcheck
              exact exec_dataFieldRead hu hr ho hp ((hread (some false)).trans hcheck)
            · have hcheck := State.fieldCheck_over hrep (by rw [htype]; exact hb)
              exact exec_dataFieldRead hu hr ho hp ((hread (some false)).trans (hcheck.trans
                (State.commandFault_waits (by rw [State.setOp_port, hrep.slots]; exact hs))))
            · have hcheck := State.fieldCheck_over hrep (by rw [htype]; exact hb)
              exact exec_dataFieldRead hu hr ho hp ((hread (some false)).trans (hcheck.trans
                (State.commandFault_produced (o := seen) (hrep.slots.trans hs) (hrep.conn.trans hcn) (hrep.port.trans hp) rfl)))
        · intro v' sent hex hall ends good
          have htake : ∀ f ∈ (fs.take (2 - (u.port p).slots)).dropLast, f.length = 256 := fun f hf => by
            refine hfull f ?_
            rw [List.dropLast_eq_take] at hf ⊢
            rw [List.take_take, List.length_take] at hf
            exact (List.take_subset_take_left fs (by omega)) hf
          have hv' : u.framed d p o r (fs.take (2 - (u.port p).bufferCount)) = v' := by
            rw [hcount]
            exact State.framed_mapIdx htake
          have hread := State.dataRead_full (bs := bs) (outcome := if ends then some good else none) ho hrd hfr hne
            (by rw [hcount]; exact hmore) hv'
          have hslots : (v'.port p).slots ≠ 0 := by
            have hcounted : (v'.port p).slots = (u.port p).slots + (fs.take (2 - (u.port p).bufferCount)).length := by
              rw [← hv']
              exact State.links_slots
            rw [hcounted, List.length_take, hcount]
            omega
          rw [PortRec.dataEnd_eq hex hall, State.commandFault_waits (by rw [State.setOp_port]; exact hslots)] at hread
          exact exec_dataFieldRead hu hr ho hp hread

end Sys2Proof.Machine
end
